-- ==== Sys2Proof/Word.lean ====
section
/-! DEFINITION. The word types of the device: bytes of its formats, 32-bit host-visible registers
(R3), 48-bit native words, and their plainest arithmetic. -/
namespace Sys2Proof

/-- One byte of a format, a digest or a key (R5). -/
abbrev Byte := BitVec 8

/-- A host-visible register (R3). -/
abbrev Word := BitVec 32

/-- The native word of the device, without its word code. -/
abbrev W48 := BitVec 48

/-- A multiply-accumulate register. -/
abbrev Acc := BitVec 112

/-- 0 or 1. -/
def b2n (b : Bool) : Nat := if b then 1 else 0

@[simp] theorem b2n_true : b2n true = 1 := rfl
@[simp] theorem b2n_false : b2n false = 0 := rfl

/-- The quotient of `a` by `b`, rounded up. -/
def ceilDiv (a b : Nat) : Nat := (a + b - 1) / b

end Sys2Proof
end

