-- ==== Sys2Proof/Syntax.lean ====
section
/-! DEFINITION. The commands of the device: one constructor per row of the opcode table, with the operands
that the outside world chooses. -/
namespace Sys2Proof

/-- Fields of format FR below the opcode and FN (R466). -/
structure FormR where
  rd   : BitVec 5
  rs1  : BitVec 5
  rs2  : BitVec 5
  resv : BitVec 17
  deriving DecidableEq, Repr

/-- Fields of format FI (R466). -/
structure FormI where
  rd  : BitVec 5
  rs1 : BitVec 5
  imm : BitVec 30
  deriving DecidableEq, Repr

/-- Fields of format FL (R466). -/
structure FormL where
  rd   : BitVec 5
  resv : BitVec 3
  imm  : BitVec 32
  deriving DecidableEq, Repr

/-- Fields of format FM (R466). -/
structure FormM where
  rt   : BitVec 5
  ab   : BitVec 4
  mode : BitVec 3
  ix   : BitVec 5
  disp : BitVec 23
  deriving DecidableEq, Repr

/-- Fields of format FB (R466); `opnd` is bits 29:21. -/
structure FormB where
  cond : BitVec 4
  rs1  : BitVec 5
  immf : Bool
  opnd : BitVec 9
  off  : BitVec 21
  deriving DecidableEq, Repr

/-- Fields of format FJ (R466). -/
structure FormJ where
  ra   : BitVec 4
  resv : BitVec 12
  tgt  : BitVec 24
  deriving DecidableEq, Repr

/-- Fields of format FP (R466). -/
structure FormP where
  lvl  : Bool
  immf : Bool
  rs   : BitVec 5
  resv : BitVec 1
  cnt  : BitVec 16
  stop : BitVec 16
  deriving DecidableEq, Repr

/-- Fields of format FS below FN (R466). -/
structure FormS where
  sel  : BitVec 6
  reg  : BitVec 5
  resv : BitVec 5
  imm  : BitVec 16
  deriving DecidableEq, Repr

/-- The core on which an instruction issues (0 the supervisor, 1 + c comb controller c), and whether the
fetched word and the data word it reads pass their word codes (R409). -/
structure Issue where
  core      : Nat
  fetchCode : Bool
  dataCode  : Bool
  deriving DecidableEq, Repr


/-- The commands of the opcode table. -/
inductive Instr where
  /-- PGOOD rises: main power-up begins the start-up sequence in TEST with the 100 µs reset hold (R227). -/
  | pgoodRise
  /-- The 100 µs reset hold expires and reset is released, so clocks, noise sources, ROM and store SCAN start (R245). -/
  | resetHoldExpiry (kat : Nat)
  /-- The ROM finishes its OTP read, pending increments, wipe and boot-block measurement, then hands over to the bootable bank with the higher ACT_SEQ (R518). -/
  | romHandOff (rowOk : Bool)
  /-- TIME_START_WAIT expires with no measurement, and the main timebase loads from the always-on counter or from the checkpoint (R156). -/
  | timeStartWaitExpiry
  /-- Firmware measurement, signature check and key derivation complete; BOOT_DONE is set and mailbox frames held so far are served (R227). -/
  | bootDone
  /-- One source has passed its start-up test and 512 bytes are gathered, so all instances are instantiated and the close pool is filled (R397). -/
  | randomOutputReady
  /-- The store finishes rebuilding its index, re-pins holds, restores HIVE_LAST_SIGNED and enters READY (R192). -/
  | storeScanDone
  /-- With the store READY and PFAIL_N deasserted, the supervisor reconciles the close reserve into the container ring (R46). -/
  | reconcile
  /-- The reconciliation record is programmed; HIVE_CTRL.EN and WRITER_EN are set and the mode becomes IDLE (R227). -/
  | startUpDone
  /-- PGOOD falls: every main-powered block is reset and the device drops to VAULT, FIELD or no power (R576). -/
  | pgoodFall
  /-- VBAT and VDD_IO are both absent and the always-on domain loses power (R576). -/
  | aonPowerLoss
  /-- PFAIL_N assertion is recognised; in RECORD or INGEST custody close begins, and elsewhere it is only counted (R36). -/
  | pfailNAssert
  /-- PFAIL_N deassertion is recognised, which starts the 10 ms restart wait after close-done (R238). -/
  | pfailNDeassert
  /-- PFAIL_N has been deasserted for 10 ms in close-done, and the device makes a close restart (R238). -/
  | pfailRestartWaitExpiry
  /-- The writer's final container page and the journal's open page are programmed, and the close opening record is formed (R185). -/
  | closeFlushDone
  /-- The 0.2 ms close flush bound passes with the flush incomplete, and STORE_CLOSE_LATE is logged (R213). -/
  | closeFlushExpiry
  /-- The close opening record counts as programmed, and close-reserve programming of segments begins (R37). -/
  | closeOpeningProgrammed
  /-- A lane in SCHUSS obtains one of the 16 engine slots and seals its owed units (R233). -/
  | schussEngineSlot (lane units : Nat)
  /-- 10 ms after the stop edge, every unit whose encryption is incomplete is truncated at its last completed block (R38). -/
  | sealCutoffExpiry (done : List Nat)
  /-- After the last append on any lane, the close sequencer takes the final snapshot and submits the FINAL receipt for signing (R113). -/
  | finalSnapshot
  /-- The close record counts as programmed and the field-page write of the close starts (R37). -/
  | closeRecordProgrammed
  /-- 32 ms after PFAIL_N assertion the close record is not yet programmed, and CLOSE_LATE is set (R236). -/
  | closeDeadlineExpiry
  /-- The field step ends and the device enters close-done, then acts according to the close cause (R238). -/
  | closeDone
  /-- PWR_CTRL.GO requests the mode in REQ; the request is checked and the transition is started or refused (R221). -/
  | modeRequest (req : Nat)
  /-- A started mode transition completes and PWR_STATUS.MODE changes (R221). -/
  | modeTransitionDone
  /-- PWR_CTRL.SHUTDOWN: in IDLE, checkpoint and enter STANDBY with SAFE_OFF; in RECORD or INGEST, enter CLOSE (R222). -/
  | pwrShutdown
  /-- A GPIO level change becomes stable and is recognised as a trigger or a wake edge (R590). -/
  | gpioEdge (line : Nat) (level : Bool)
  /-- The compensation interval expires and the always-on increment is recomputed from temperature, curve and trim (R158). -/
  | timeCompensationInterval (temp : Int)
  /-- A 64 s window in LOCKED ends; TIME_AON_TRIM is adjusted and the always-on counter is realigned (R159). -/
  | aonTrimWindow
  /-- No crystal edge arrives in 256 RC periods; the always-on counter moves to the RC oscillator and XTAL_FAIL is set (R160). -/
  | crystalWatchdogExpiry
  /-- Crystal edges have returned for 32,768 consecutive periods, and the counter changes back to the crystal (R160). -/
  | crystalReturn
  /-- A PPS edge is captured, checked against the validity window and, while PPS is the active source, applied as a measurement (R162). -/
  | ppsEdge (falling ignored : Bool)
  /-- A write of TIME_MEAS_HI submits an IEEE 1588 offset measurement (R163). -/
  | timeMeasSubmit (hi : BitVec 32)
  /-- The active source has given no valid measurement for TIME_REF_TO; the device changes source or enters HOLDOVER (R161). -/
  | timeRefToExpiry
  /-- A write of 1 to TIME_CTRL.LABEL_ARM arms the label for the next PPS edge, unless TIME_LABEL is out of range (R162). -/
  | timeLabelArm
  /-- A write of TIME_CTRL.FORCE_HOLD enters or leaves forced holdover (R164). -/
  | forceHoldWrite (on : Bool)
  /-- The clock reaches an enabled alarm value; FIRED is set, the time interrupt is raised and a wake may follow (R171). -/
  | timeAlarmFire (n : Nat)
  /-- The operating-time counter reaches another 64 units, and custody time is checkpointed into the counter log (R157). -/
  | counterLogCheckpoint (ok : Bool)
  /-- A read of a LO register latches the whole 64-bit value for this requester's next HI read (R174). -/
  | latchedLoRead (who reg : Nat)
  /-- A PTP event message is timestamped at start of frame, with the latency correction added (R266). -/
  | ptpEventMessage (port : Nat) (tx : Bool)
  /-- In its reserved slot, 4·d + 4 cycles before a periodic boundary or a scheduled T, the root issues SNAPSHOT (R102). -/
  | snapshotIssue
  /-- At the endpoint edge, lanes copy their capture fields into the shadow and HIVE_SNAP_SEQ increments (R106). -/
  | snapshotCapture
  /-- A hive period boundary edge is reached: any unfinished receipt is abandoned and the boundary's snapshot is taken (R110). -/
  | hiveBoundary
  /-- The shadow read and hashing finish, HIVE_ROOT is set and the receipt is submitted for signing, or is issued directly when unsigned (R109). -/
  | hiveRootComputed
  /-- HIVE_CTRL.DEMAND requests an on-demand snapshot, or is refused while the sequencer is IDLE or STOPPED (R115). -/
  | hiveCtrlDemand
  /-- HIVE_CTRL.AT_ARM arms a scheduled snapshot at T, or refuses with AT_PAST (R120). -/
  | hiveCtrlAtArm
  /-- HIVE_CTRL.AT_CANCEL disarms the scheduled snapshot (R120). -/
  | hiveCtrlAtCancel
  /-- A write of HIVE_PERIOD_NEXT requests a new hive period with a change point (R116). -/
  | hivePeriodNextWrite (value : Nat)
  /-- A write of HIVE_EPOCH_NEXT requests a new lane epoch period (R117). -/
  | hiveEpochNextWrite (value : Nat)
  /-- At a lane epoch boundary, lanes capture epoch values, hold appends until the link and switch to new content keys (R117). -/
  | epochBoundary
  /-- The EPOCH_LINK supplied by the comb controller, or formed by the chain unit in CLOSE, is appended and appends resume (R117). -/
  | epochLinkAppend (lane : Nat)
  /-- An epoch link is not appended HIVE_LINK_MAX after the boundary; LINK_LATE is set and logged, and the wait continues (R118). -/
  | hiveLinkMaxExpiry (lane : Nat)
  /-- A completed epoch signature is appended as an EPOCH_SIGNATURE element (R119). -/
  | epochSignatureAppend (lane : Nat)
  /-- WAG_CMD GO with OP BARRIER queues a barrier among the masked endpoints (R103). -/
  | wagBarrier (id : Nat)
  /-- WAG_CMD GO with OP BROADCAST delivers the broadcast word to the masked endpoints (R101). -/
  | wagBroadcast
  /-- WAG_CMD GO with OP SNAPSHOT queues a software snapshot (R101). -/
  | wagSnapshot
  /-- WAG_CMD GO with OP RESET, from M, resets the masked endpoints; lanes that must refuse do so (R104). -/
  | wagReset (machine : Bool)
  /-- A comb controller writes WAG_EP_ARRIVE to arrive at the barrier with the given identifier (R103). -/
  | wagEpArrive (comb id : Nat)
  /-- 8·d + 8 cycles after the last arrival, every waiting comb controller sees RELEASED (R103). -/
  | barrierRelease
  /-- WAG_BAR_TIMEOUT expires, and the waiters are released with TIMED_OUT (R103). -/
  | wagBarTimeoutExpiry
  /-- The acknowledgement of an operation reaches the root, and DONE is set (R99). -/
  | wagOpComplete
  /-- The acknowledgement is missing 16 cycles after its expected completion; NO_ACK is set and WAG_NO_ACK is logged (R105). -/
  | wagAckLimitExpiry (ep : Nat)
  /-- A write of RING_INx_TAIL from the owning port announces descriptors, or is rejected as an overrun or as coming from the wrong port (R64). -/
  | ringInDoorbell (port lane ring value : Nat)
  /-- A write of RING_CMPx_HEAD frees completion slots, or is rejected as invalid (R64). -/
  | ringCmpHeadWrite (port lane ring value : Nat)
  /-- A SEAL_UNIT descriptor is read and checked in order, or completes with an ERROR entry (R56). -/
  | sealUnit (lane ctx : Nat) (bytes : List Byte) (ok : Bool)
  /-- A VERIFY_ELEMENT descriptor is read, checked and streamed through the verify-chain or verify-open engine (R76). -/
  | verifyElement (lane ctx : Nat) (bytes : List Byte) (ok : Bool)
  /-- A context-0 unit is parked at a block boundary so that a context-1 job can run, and its context is saved (R80). -/
  | unitSuspend (lane done : Nat)
  /-- A verify job ends and its VERIFIED entry is posted, with zero fill on a tag failure and a stop on a chain break (R77). -/
  | verifyComplete (lane ctx : Nat) (data : List Byte) (ok : Bool)
  /-- After a context-1 job, the parked unit is restored and its CRC is checked (R82). -/
  | unitResume (lane : Nat) (crcOk : Bool)
  /-- The parked unit has waited SUSP_MAX, so it resumes after the current context-1 job (R94). -/
  | suspMaxExpiry (lane : Nat)
  /-- Enough free pages exist, the length is rechecked and the payload fetch of the checked descriptor starts (R53). -/
  | payloadFetchStart (lane : Nat)
  /-- Every read request of the fetch has completed or failed; the unit becomes RESIDENT or fails with DMA_FAULT (R86). -/
  | payloadFetchDone (lane : Nat) (data : List Byte) (ok : Bool)
  /-- The PCIe completion timeout of a DMA read expires and the request fails (R86). -/
  | pcieCompletionTimeout (lane ctx : Nat)
  /-- A RESIDENT unit meeting every condition of R15 is accepted, timestamped and given its sequence number (R15). -/
  | unitAccept (lane : Nat)
  /-- The engine starts the next context-0 unit once the previous one is APPENDED, using the key then current (R69). -/
  | engineStart (lane : Nat)
  /-- The tag and digest are formed and the chain unit appends the segment, replacing the chain head (R73). -/
  | segmentAppend (lane : Nat)
  /-- Once a free slot exists, the lane posts an ACCEPT, SEALED, VERIFIED, ERROR or ELEMENT entry (R63). -/
  | completionEntryPost (lane ring : Nat)
  /-- A segment or entry write fails at the port; the unit stays owed and the context stops accepting (R87). -/
  | outputWriteFault (lane ring : Nat)
  /-- The coalescing time expires and the combined MSI-X message is sent (R94). -/
  | coalTimeExpiry (lane ring : Nat)
  /-- A request of a lane (0 to 63), of a tile (64 + its number) or of the store controller (72) has waited LANE_ARB_AGE cycles and is
  promoted one class (R85). -/
  | arbAgeExpiry (lane : Nat)
  /-- LANE_CTRL.DRAIN puts the lane in DRAIN, where it accepts nothing (R90). -/
  | laneDrain (lane : Nat)
  /-- Owed units reach zero and the CLOSE element is appended, so the drain ends and DRAIN_DONE is set (R90). -/
  | drainComplete (lane : Nat)
  /-- LANE_CTRL.LANE_RESET resets the lane if nothing is owed and both contexts are closed, or sets RESET_REFUSED (R91). -/
  | laneReset (lane : Nat)
  /-- A write of LANE_CMB_CTRL.CLK_EN starts or gates the comb clock, subject to the mode limit and to open contexts (R218). -/
  | combClkEnWrite (comb : Nat) (on : Bool)
  /-- A write of STOR_SQ_TAIL submits store descriptors, or is rejected as an overrun (R197). -/
  | storeSqDoorbell (tail : Nat)
  /-- Store descriptor READ: pages are read to the target after the checks of R200 (R199). -/
  | storeRead (machine : Bool)
  /-- Store descriptor PROGRAM: pages are programmed from the target into a fast region (R199). -/
  | storeProgram (data : List Byte) (ok : Bool)
  /-- Store descriptor ERASE: a fast-region block is erased (R199). -/
  | storeErase
  /-- Store descriptor APPEND: whole framed records are appended to the container ring through the writer (R199). -/
  | storeAppend (data : List Byte) (ok : Bool)
  /-- Store descriptor PIN: one hold is added to each existing block in the range (R199). -/
  | storePin
  /-- Store descriptor UNPIN: one hold is removed from each block in the range, and a block whose last hold goes returns to the ring (R199). -/
  | storeUnpin
  /-- A store operation finishes and its completion is written with its status and DONE count (R201). -/
  | storeDescComplete (index : Nat) (bad : Option Nat) (hostOk : Bool)
  /-- A page program completes, and pages that now count as programmed let segments be taken and containers exist (R179). -/
  | storePageProgrammed (block page : Nat) (ok : Bool)
  /-- A block erase completes, or fails and the block is retired (R184). -/
  | storeEraseDone (block : Nat) (ok : Bool)
  /-- The writer takes the next record round-robin, frames it into the page buffer and opens or closes containers as needed (R180). -/
  | containerWriterTake (n : Nat)
  /-- The writer erases the oldest qualifying container block to keep PREERASE blocks erased (R184). -/
  | ringPreerase
  /-- Within 0.2 ms of a trigger's recognition, a trigger hold is computed and placed by PIN (R195). -/
  | triggerHoldPlace
  /-- STOR_TRIG_DEB expires and the trigger line is rearmed (R213). -/
  | trigDebExpiry (line : Nat)
  /-- A supervisor read of STOR_TRIG_POP removes the oldest trigger and latches its time (R214). -/
  | storTrigPopRead
  /-- A journal page completes programming, and the records in it become persistent (R190). -/
  | journalPageProgrammed (ok : Bool)
  /-- DDR5 training ends; staging enters READY with keys drawn, or FAULT with TRAIN_FAIL (R207). -/
  | stagingTrainDone (channels : Nat) (ok : Bool)
  /-- STG_SEGS reaches zero in DRAIN and staging goes to OFF (R216). -/
  | stagingDrainDone
  /-- A write of MBX_DBs with GO copies the request window into the slot and hands the frame to Sharnolos, or completes with a transport status (R255). -/
  | mbxDoorbell (port slot len tag : Nat)
  /-- A write of MBX_SLOTs.ACK in DONE returns the slot to IDLE (R255). -/
  | mbxSlotAck (port slot : Nat)
  /-- MBX_CTRL.LOGOUT ends the port's session (R252). -/
  | mbxCtrlLogout (port : Nat)
  /-- A write of MBX_NTC_HEAD acknowledges notice entries, or is rejected as invalid (R260). -/
  | mbxNtcHeadWrite (port value : Nat)
  /-- A HELLO datagram takes a session slot and draws a CHALLENGE, or a REJECT (R273). -/
  | udpHello (port : Nat) (bytes : List Byte)
  /-- A PROVE datagram is checked, and the role is granted with an ACCEPT and session keys, or AUTH_FAIL follows (R250). -/
  | udpProve (port : Nat) (bytes : List Byte)
  /-- A complete REQUEST message is executed as a new request or answered from the cache as a retransmission (R270). -/
  | udpRequest (port : Nat) (bytes : List Byte)
  /-- A NOTICE_ACK acknowledges a notice datagram (R272). -/
  | udpNoticeAck (port : Nat) (bytes : List Byte)
  /-- An EXPORT_ACK acknowledges an export chunk (R272). -/
  | udpExportAck (port : Nat) (bytes : List Byte)
  /-- A LOGOUT datagram ends the session (R252). -/
  | udpLogout (port : Nat) (bytes : List Byte)
  /-- A message is still incomplete when ETH_REASM expires and is discarded (R271). -/
  | ethReasmExpiry (port sess : Nat)
  /-- An unacknowledged NOTICE or EXPORT is resent, or after four retransmissions is dropped or stops the export (R272). -/
  | ethRetxExpiry (port sess : Nat)
  /-- A role challenge lapses, so the session returns to NONE with AUTH_FAIL (R276). -/
  | challengeExpiry (port sess : Nat)
  /-- The lockout ends and role proofs are accepted again on the port (R251). -/
  | mbxLockoutExpiry (port : Nat)
  /-- A session has been idle for MBX_IDLE and ends (R252). -/
  | mbxIdleExpiry (port sess : Nat)
  /-- Link down, hot reset, FLR or PERST_N on a port ends its session, clears its state and pauses its rings (R263). -/
  | pciePortReset (port : Nat) (down : Bool) (rate width : Nat)
  /-- A move of a port to D3hot pauses its ring DMA and mailbox responses (R262). -/
  | pcieD3hot (port : Nat)
  /-- A return of a port to D0 resumes its DMA where it stopped (R262). -/
  | pcieD0Return (port : Nat)
  /-- A host-initiated exit from L1 wakes the device from STANDBY when enabled (R264). -/
  | pcieL1Exit (port : Nat)
  /-- A BAR memory request in STANDBY reads zero, is discarded if a write, and counts as a wake (R264). -/
  | pcieStandbyAccess (port len : Nat) (read : Bool)
  /-- An SPI or I²C write transaction on P4 writes registers or window bytes (R275). -/
  | mgtWrite (addr : Nat) (data : List Byte) (held : Bool)
  /-- An SPI or I²C read transaction on P4 returns window or register bytes (R274). -/
  | mgtRead (addr len : Nat) (held : Bool)
  /-- A CS_N fall or matching I²C address in STANDBY wakes the device and is otherwise discarded (R586). -/
  | mgtStandbyWake (len : Nat)
  /-- SCL has been held low for 25 ms; the interface resets and the transaction is discarded (R276). -/
  | i2cSclLowExpiry
  /-- Returns part, firmware, state, mode, role, session and identity information (R290). -/
  | getInfo (port slot : Nat)
  /-- Carries a HELLO body and returns a CHALLENGE on P0, P1 or P4 (R291). -/
  | authHello (port slot : Nat)
  /-- Carries a PROVE body; grants the role with a device signature or fails (R291). -/
  | authProve (port slot : Nat)
  /-- Completes with OK and then ends the session (R291). -/
  | logout (port slot : Nat)
  /-- Writes data into the session buffer on P2 to P4 (R292). -/
  | bufWrite (port slot : Nat)
  /-- Returns bytes from the session buffer on P2 to P4 (R292). -/
  | bufRead (port slot : Nat)
  /-- Replaces the notice subscription of the port or session (R293). -/
  | noticeSubscribe (port slot : Nat)
  /-- Requests a mode transition under R221 and completes with its status (R294). -/
  | setMode (port slot : Nat)
  /-- Writes OK and then performs the orderly shutdown of R222 (R294). -/
  | shutdown (port slot : Nat)
  /-- Enters TEST for recovery unless a context is open (R230). -/
  | recovery (port slot : Nat)
  /-- Returns host random output in reseeded steps within the fill window (R295). -/
  | rngRead (port slot : Nat)
  /-- Opens a seal stream on context 0, installs a key and appends OPEN and WRAPPED_KEY (R297). -/
  | streamOpen (port slot : Nat) (preparing : Bool)
  /-- Sets DRAIN on the stream's lane; responds after the CLOSE element is posted (R298). -/
  | streamClose (port slot : Nat)
  /-- Opens a verify-chain or verify-open context with an anchor (R300). -/
  | verifyOpen (port slot : Nat)
  /-- Finishes the job in progress, closes the verify context and clears its key register (R301). -/
  | verifyClose (port slot : Nat)
  /-- Replaces the head and counters of a context stopped by a chain break and resumes it (R301). -/
  | verifyReanchor (port slot : Nat)
  /-- Moves a stopped or paused context's rings to new memory and redelivers undischarged segments (R303). -/
  | ringRetarget (port slot : Nat) (readBack : Nat)
  /-- Returns the lane's leaf record and status registers (R304). -/
  | streamStatus (port slot : Nat)
  /-- Takes an on-demand snapshot and completes with its receipt, or with RECEIPT_DROPPED (R305). -/
  | hiveDemand (port slot : Nat)
  /-- Arms or disarms a scheduled snapshot at T (R306). -/
  | hiveAt (port slot : Nat)
  /-- Writes new running hive and epoch periods and returns their change points (R307). -/
  | hivePeriods (port slot : Nat)
  /-- Returns the last periodic receipt, or the last receipt of any kind, with an optional lane proof (R308). -/
  | hiveGet (port slot : Nat)
  /-- Places a command hold over a window and responds after its journal record is programmed (R309). -/
  | holdPlace (port slot : Nat)
  /-- Releases a hold by UNPIN and a RELEASE record, from the evidence authority (R310). -/
  | holdRelease (port slot : Nat)
  /-- Returns live holds in their latest revisions (R311). -/
  | holdList (port slot : Nat)
  /-- Exports selected containers to host memory or as EXPORT chunks (R312). -/
  | storeExport (port slot : Nat)
  /-- Returns store status, free counts, held blocks, geometry and sequence numbers (R313). -/
  | storeInfo (port slot : Nat)
  /-- Returns custody time, error bound, status, offset and counters (R314). -/
  | timeGet (port slot : Nat)
  /-- Submits a MANUAL measurement and returns the offset and the action taken (R315). -/
  | timeSet (port slot : Nat)
  /-- Writes TIME_LABEL and arms it for the next PPS edge (R316). -/
  | timeLabel (port slot : Nat)
  /-- Writes an alarm's value, period, enable and wake together and clears its FIRED bit (R317). -/
  | timeAlarm (port slot : Nat)
  /-- Writes the identity public key and certificate to the session buffer (R318). -/
  | identityGet (port slot : Nat)
  /-- Checks and commits a key delivery message with the delivery counter (R319). -/
  | keyDeliver (port slot : Nat)
  /-- Writes the key statement of a device-generated key (R320). -/
  | keyStatement (port slot : Nat)
  /-- Returns a slot's attribute word and key digest (R320). -/
  | keyInfo (port slot : Nat)
  /-- Returns event records from a start index (R321). -/
  | logRead (port slot : Nat)
  /-- Takes the log freeze and stops appending (R322). -/
  | logFreeze (port slot : Nat)
  /-- Ends the holding session's freeze, and the held records are appended (R322). -/
  | logUnfreeze (port slot : Nat)
  /-- Clears the log behind a LOG_CLEARED record if the stated newest index is current (R323). -/
  | logClear (port slot : Nat)
  /-- Returns the life-cycle state, debug level, mode, counters and identity (R324). -/
  | lcGet (port slot : Nat)
  /-- Requests a life-cycle transition, checked and committed as R441 and R442 state (R325). -/
  | lcTransition (port slot : Nat)
  /-- Returns a debug unlock challenge and its expiry for a level (R326). -/
  | debugChallenge (port slot : Nat)
  /-- Checks a signed debug response, consumes the challenge and opens the unlock window (R450). -/
  | debugUnlock (port slot : Nat)
  /-- Returns the debug level to CLOSED at once (R326). -/
  | debugLock (port slot : Nat)
  /-- Returns field-link pool, flags, bank and session information (R327). -/
  | fieldStatus (port slot : Nat)
  /-- Composes the inspection page into the inactive bank and commits it (R328). -/
  | fieldPageUpdate (port slot : Nat)
  /-- Runs reader-mode tree walks for the duration and returns the identifiers found (R329). -/
  | fieldInventory (port slot : Nat) (replies : List (List Bool × Bool))
  /-- Selects, authenticates and pairs one tag and writes the pairing record (R562). -/
  | fieldPair (port slot : Nat) (sel : Option (List Byte)) (auth : List Byte) (prove pair rssi : Nat)
  /-- Loads a signed extension bundle into the named combs and extends their measurement (R330). -/
  | extLoad (port slot : Nat)
  /-- Starts U-level code on the named combs (R330). -/
  | extStart (port slot : Nat)
  /-- Halts U-level code on the named combs (R330). -/
  | extStop (port slot : Nat)
  /-- Returns the extension state and security version for each comb (R330). -/
  | extStatus (port slot : Nat)
  /-- Programs firmware data into the staging bank (R331). -/
  | fwStage (port slot : Nat)
  /-- Verifies the staged image and writes its activation row (R331). -/
  | fwActivate (port slot : Nat)
  /-- Returns a setting from the persistent settings, the shadow or the running register (R334). -/
  | setRead (port slot : Nat)
  /-- Writes a setting into the session's shadow, creating the shadow if needed (R333). -/
  | setWrite (port slot : Nat)
  /-- Cross-checks the shadow and programs it as the next settings generation (R335). -/
  | setCommit (port slot : Nat)
  /-- Ends the session's shadow without change (R335). -/
  | setDiscard (port slot : Nat)
  /-- 200 ms after FIELD_PAGE_UPDATE the waiting page commit is made (R328). -/
  | fieldPageCommitExpiry
  /-- The inventory duration ends and the search stops (R329). -/
  | fieldInventoryDurationExpiry
  /-- A write of PK_SQ_TAIL submits tile jobs, which the dispatcher checks and queues (R344). -/
  | pkSqDoorbell (sub tail : Nat)
  /-- A tile runs a Falcon-1024 signature with a sign-only long key (R338). -/
  | falconSign (tile : Nat)
  /-- A tile verifies a Falcon-1024 signature (R338). -/
  | falconVerify (tile : Nat)
  /-- A tile generates a Falcon-1024 key pair into a long slot (R338). -/
  | falconKeygen (tile : Nat)
  /-- A tile generates an ML-KEM-1024 key and seed (R338). -/
  | mlkemKeygen (tile : Nat)
  /-- A tile encapsulates to an ML-KEM-1024 key, with the shared secret going to a slot (R338). -/
  | mlkemEncaps (tile : Nat)
  /-- A tile decapsulates with a decrypt-only seed (R338). -/
  | mlkemDecaps (tile : Nat)
  /-- A tile signs with a P-384 scalar (R338). -/
  | ecdsaP384Sign (tile : Nat)
  /-- A tile verifies an ECDSA P-384 signature (R338). -/
  | ecdsaP384Verify (tile : Nat)
  /-- A tile generates a P-384 key (R338). -/
  | p384Keygen (tile : Nat)
  /-- A tile performs P-384 key agreement into a slot (R338). -/
  | ecdhP384 (tile : Nat)
  /-- A tile performs X25519 key agreement into a slot (R338). -/
  | x25519 (tile : Nat)
  /-- A tile generates an X25519 key (R338). -/
  | x25519Keygen (tile : Nat)
  /-- A tile verifies an RSA signature (R338). -/
  | rsaVerify (tile : Nat)
  /-- A running job reaches a yield point, where it continues, parks or is abandoned for a waiting job (R345). -/
  | tileYieldPoint (tile : Nat)
  /-- A tile job ends: compare, output release or mismatch, completion entry and scratch clear (R343). -/
  | tileJobComplete (tile fault : Nat)
  /-- A write of PK_ABORT with GO abandons the submitter's jobs bearing the tag (R348). -/
  | pkAbort (sub tag : Nat)
  /-- A write of PK_CTRL.TILE_EN enables tiles, or sends cleared tiles to OFF after their jobs end (R356). -/
  | pkTileEnWrite (en : Nat)
  /-- Key store GENERATE draws a key from the requester's DRBG into DST (R381). -/
  | keyOpGenerate (who : Nat) (resv : Bool)
  /-- Key store DERIVE forms a derived key from k_root or a slot, or the KEK from slot 67 (R369). -/
  | keyOpDerive (who flavour : Nat) (kek resv : Bool)
  /-- Key store WRAP wraps SRC under a wrap-only KEK to memory (R381). -/
  | keyOpWrap (who : Nat) (resv : Bool)
  /-- Key store UNWRAP unwraps bytes at KEY_ADDR into DST (R381). -/
  | keyOpUnwrap (who : Nat) (resv : Bool)
  /-- Key store OPEN_DST marks an empty slot to receive the next tile result (R381). -/
  | keyOpOpenDst (who : Nat) (resv : Bool)
  /-- Key store CLEAR zeroises DST and writes a slot-clear record if persistent (R381). -/
  | keyOpClear (who : Nat) (resv : Bool)
  /-- Key store LOAD_LANE loads SRC into a lane key register (R381). -/
  | keyOpLoadLane (who : Nat) (resv : Bool)
  /-- Key store INFO returns DST's attribute word (R381). -/
  | keyOpInfo (who : Nat) (resv : Bool)
  /-- A key log record's last row programs, and its slot change and counter take effect together (R379). -/
  | keyLogRecordWritten (ok : Bool)
  /-- At least 1 s before a key epoch boundary, or at power-up, the supervisor encapsulates and derives the next KEK (R375). -/
  | kekPrepare (ok : Bool)
  /-- A key epoch boundary is reached and the new KEK is in force (R375). -/
  | keyEpochBoundary
  /-- A source fails a health test, enters FAILED and the conditioner switches source or stops (R388). -/
  | noiseHealthFail (source : Bool) (test : Nat)
  /-- A source's 1,024-sample start-up test ends in OK or FAILED (R387). -/
  | sourceStartupTestDone (source ok : Bool)
  /-- 1,280 samples are conditioned into a 64-byte block that enters the pool and serves waiting draws (R390). -/
  | conditionerBlock
  /-- RNG_CTRL.RETEST_A retests source A, or is refused with RETEST_DENIED (R388). -/
  | rngRetestA
  /-- RNG_CTRL.RETEST_B retests source B, or is refused with RETEST_DENIED (R388). -/
  | rngRetestB
  /-- RNG_CTRL.KAT runs the conditioner and instance known-answer tests (R393). -/
  | rngKat (bad : Nat)
  /-- RNG_ICTRL.RESEED reseeds the instance when pool bytes are available (R391). -/
  | rngIctrlReseed (inst : Nat)
  /-- RNG_ICTRL.REINST discards the instance state and instantiates it afresh (R392). -/
  | rngIctrlReinst (inst : Nat)
  /-- An instance reaches RNG_RESEED_INT requests and reseeds before serving (R391). -/
  | reseedIntervalReached (inst : Nat)
  /-- The 990 µs host fill window ends and RNG_READ responds with what was filled (R395). -/
  | hostFillWindowExpiry
  /-- A detector of a tamper class fires and the event is counted in the class window (R402). -/
  | sensorDetectorFire (cls det site : Nat) (level : Option Bool)
  /-- The partner detector stays silent through the window; a detector fault is set and logged (R402). -/
  | corroborationWindowExpiry
  /-- The oldest event leaves the class window W and is no longer counted (R403). -/
  | filterWindowExpiry (cls : Nat)
  /-- An enclosure input level persists for ENC_DEB and is accepted (R406). -/
  | encDebExpiry (input : Nat)
  /-- A pending tamper-evidence increment is programmed into OTP and both pending copies are cleared (R416). -/
  | tecIncrement
  /-- The TAMPERED life-cycle entry caused by DESTROY is programmed at close-done or in an idle mode (R444). -/
  | tamperedEntryProgram (ok : Bool)
  /-- TMP_CTRL.CFG_COMMIT programs the next OTP configuration slot (R420). -/
  | tmpCfgCommit
  /-- TMP_CTRL.INJ_GO injects one tamper event, outside PROVISION and SERVICE it is refused (R421). -/
  | tmpInject (cls det : Nat)
  /-- LOG_FLUSH elapses and the page buffer is programmed, except a held newest record (R428). -/
  | logFlushExpiry
  /-- A log page counts as programmed and its always-on copies are released (R428). -/
  | logPageProgrammed (ok : Bool)
  /-- The oldest log block is erased; LOG_OLDEST advances and uncarried records are counted as dropped (R431). -/
  | logBlockEraseDone
  /-- LOG_SW_TYPE.GO forms a firmware-side record, or sets SW_REFUSED (R435). -/
  | logSwGo (typ : Nat)
  /-- The life-cycle OTP entry finishes programming; the state changes, keys are destroyed and sessions end (R442). -/
  | lcEntryProgrammed (ok : Bool)
  /-- In RETIRED, every store block is erased in IDLE, resuming at each power-up until complete (R455). -/
  | retireStoreErase
  /-- DBG_CTRL.LOCK returns the debug level to CLOSED and releases halted cores (R451). -/
  | dbgCtrlLock
  /-- DBG_CTRL.LC_PROVISION moves BLANK to PROVISION from the debug port at FULL (R441). -/
  | dbgCtrlLcProvision
  /-- DBG_CTRL.LC_RETIRE moves BLANK to RETIRED from the debug port at FULL (R441). -/
  | dbgCtrlLcRetire
  /-- DBG_CORE.HALT halts cores in reach, or counts as a locked access (R457). -/
  | dbgCoreHalt (mask : Nat)
  /-- DBG_CORE.RESUME resumes every halted core in reach (R457). -/
  | dbgCoreResume
  /-- DBG_CORE.STEP steps each halted core in reach by one instruction (R457). -/
  | dbgCoreStep
  /-- The debug unlock window expires and the level returns to CLOSED (R456). -/
  | unlockWindowExpiry
  /-- The debug challenge lapses and becomes void (R456). -/
  | debugChallengeExpiry
  /-- The TAP EXTEST instruction, within the reach of the current level (R591). -/
  | tapExtest
  /-- The TAP SAMPLE/PRELOAD instruction (R591). -/
  | tapSamplePreload (cells : Nat)
  /-- The TAP IDCODE instruction returns the variant's IDCODE (R591). -/
  | tapIdcode
  /-- The TAP CLAMP instruction, at FULL only (R591). -/
  | tapClamp
  /-- The TAP HIGHZ instruction, at FULL only (R591). -/
  | tapHighz
  /-- A DBG_ACCESS transfer reads or writes device space within the level's reach (R445). -/
  | tapDbgAccess (wr : Bool) (space core addr : Nat) (value : BitVec 48)
  /-- The TAP BYPASS instruction, also taken by any instruction out of reach (R591). -/
  | tapBypass
  /-- A write of CFL_SQ_TAIL submits code-flash descriptors, or is rejected as an overrun (R520). -/
  | cflSqDoorbell (tail : Nat)
  /-- Code flash READ copies rows to D-space (R521). -/
  | cflRead
  /-- Code flash PROGRAM programs rows of the staging bank or the settings sectors (R521). -/
  | cflProgram
  /-- Code flash ERASE erases a sector or the staging boot block (R521). -/
  | cflErase
  /-- Code flash ACTIVATE programs the staging bank's activation row (R519). -/
  | cflActivate
  /-- Code flash RDP raises or lowers read-out protection (R530). -/
  | cflRdp
  /-- A code-flash row program completes and its completion is written (R523). -/
  | cflRowProgrammed (bank : Nat) (ok : Bool)
  /-- A code-flash erase completes (R523). -/
  | cflEraseDone (bank : Nat) (ok : Bool)
  /-- 2 µs pass with no read of the bank and the suspended erase resumes (R526). -/
  | cflEraseResumeExpiry (bank : Nat)
  /-- A write of CFL_FCTRL discards the prefetch buffer and the branch cache (R516). -/
  | cflFctrlWrite (pf bc : Bool)
  /-- The carrier rises after at least 2 ms of absence and the tag takes a new identifier (R544). -/
  | fieldCarrierRise
  /-- The carrier has been absent for 2 ms; the activation ends and the tag goes OFF (R541). -/
  | carrierAbsenceExpiry
  /-- Reader BEGIN ends any session and puts the tag in ARBITRATE (R547). -/
  | fldBegin (crcOk : Bool)
  /-- Reader WALK: a tag matching the prefix sends a Manchester reply (R549). -/
  | fldWalk (plen pre : Nat) (crcOk : Bool)
  /-- Reader SELECT: the named tag enters SELECTED and replies; others go QUIET (R547). -/
  | fldSelect (id : Nat) (crcOk : Bool)
  /-- Reader RESHUFFLE: tags with the identifier take a new one (R547). -/
  | fldReshuffle (id : Nat) (crcOk : Bool)
  /-- Reader SILENCE: the named tag enters QUIET (R547). -/
  | fldSilence (id : Nat) (crcOk : Bool)
  /-- Reader AUTH: the tag answers with rt and mt, or with NO_KEY or LOCKED (R552). -/
  | fldAuth (keyId : Nat) (rr : List Byte) (crcOk : Bool)
  /-- Reader PROVE: the tag checks mr and enters OPEN or QUIET (R552). -/
  | fldProve (mr : List Byte) (crcOk : Bool)
  /-- Reader READ: the tag returns an encrypted and MACed page block (R554). -/
  | fldRead (block : Nat) (crcOk : Bool)
  /-- Reader END: the tag enters QUIET and the session ends (R547). -/
  | fldEnd (crcOk : Bool)
  /-- Reader PAIR: a VTZ tag answers NOT_SUPPORTED (R547). -/
  | fldPair (crcOk : Bool)
  /-- 50 ms without a valid command ends the field session and the tag goes QUIET (R548). -/
  | sessionInactivityExpiry
  /-- 20 ms pass with no PROVE after the auth reply, so the tag goes QUIET (R552). -/
  | authWindowExpiry
  /-- The 10 s field authentication lockout ends (R553). -/
  | fieldLockoutExpiry
  /-- No reply pilot has begun by T1 + 40 µs, and the reader treats it as silence (R541). -/
  | readerReplyWindowExpiry (replies : List (List Bool × Bool))
  /-- FLD_WR_CTRL GO with TARGET page writes the inactive bank and then commits it (R557). -/
  | fldWrPage
  /-- FLD_WR_CTRL GO with TARGET pool rewrites the identifier pool (R545). -/
  | fldWrPool
  /-- A waiting page commit is made once the session ends, and the new bank becomes active (R558). -/
  | fieldPageCommit (ok : Bool)
  /-- FLD_KEY_CTRL.GO derives a field key entry from a slot, or sets KEY_DENIED (R551). -/
  | fldKeyLoad (slot keyId entry : Nat)
  /-- FLD_KEY_CTRL.CLEAR clears a field key entry (R551). -/
  | fldKeyClear (slot keyId entry : Nat)
  /-- A write of FLD_CTRL.READER_EN starts reader mode if R561 holds (R561). -/
  | fldReaderEnable (on : Bool)
  /-- A write of MPU_CTRL.EN removes or restores the MPU rules, with non-M accesses stalling meanwhile (R510). -/
  | mpuCtrlEnWrite (core : Nat) (value : BitVec 32)
  /-- Four cycles after EN is set the new rules are in force and stalled accesses proceed (R510). -/
  | mpuUpdateSettle (core : Nat)
  /-- At an instruction boundary, the lowest pending unmasked interrupt or asynchronous event is taken (R490). -/
  | asyncEventTaken (core : Nat)
  /-- A write to a register that has no row of its own stores the value under its access code and range rules (R3). -/
  | registerWrite (who bar addr width : Nat) (machine : Bool) (value : BitVec 32)
  /-- Adds two data registers modulo 2^48 (R468). -/
  | cpuAdd (u : Issue) (f : FormR)
  /-- Subtracts two data registers modulo 2^48 (R468). -/
  | cpuSub (u : Issue) (f : FormR)
  /-- Adds with an ARITHMETIC OVERFLOW on signed overflow (R468). -/
  | cpuAddv (u : Issue) (f : FormR)
  /-- Subtracts with an ARITHMETIC OVERFLOW on signed overflow (R468). -/
  | cpuSubv (u : Issue) (f : FormR)
  /-- Bitwise AND of two data registers (R468). -/
  | cpuAnd (u : Issue) (f : FormR)
  /-- Bitwise OR of two data registers (R468). -/
  | cpuOr (u : Issue) (f : FormR)
  /-- Bitwise XOR of two data registers (R468). -/
  | cpuXor (u : Issue) (f : FormR)
  /-- D[RS1] and not D[RS2] (R468). -/
  | cpuAndn (u : Issue) (f : FormR)
  /-- Shifts left by D[RS2] (R468). -/
  | cpuShl (u : Issue) (f : FormR)
  /-- Shifts right logically by D[RS2] (R468). -/
  | cpuShr (u : Issue) (f : FormR)
  /-- Shifts right arithmetically by D[RS2] (R468). -/
  | cpuSar (u : Issue) (f : FormR)
  /-- Rotates left by D[RS2] mod 48 (R468). -/
  | cpuRol (u : Issue) (f : FormR)
  /-- Signed set-less-than (R468). -/
  | cpuSlt (u : Issue) (f : FormR)
  /-- Unsigned set-less-than (R468). -/
  | cpuSltu (u : Issue) (f : FormR)
  /-- Signed minimum (R468). -/
  | cpuMin (u : Issue) (f : FormR)
  /-- Signed maximum (R468). -/
  | cpuMax (u : Issue) (f : FormR)
  /-- Unsigned minimum (R468). -/
  | cpuMinu (u : Issue) (f : FormR)
  /-- Unsigned maximum (R468). -/
  | cpuMaxu (u : Issue) (f : FormR)
  /-- Low 48 bits of the product (R468). -/
  | cpuMul (u : Issue) (f : FormR)
  /-- High 48 bits of the signed product (R468). -/
  | cpuMulh (u : Issue) (f : FormR)
  /-- High 48 bits of the unsigned product (R468). -/
  | cpuMulhu (u : Issue) (f : FormR)
  /-- Signed division, raising DIV_ZERO on a zero divisor (R468). -/
  | cpuDiv (u : Issue) (f : FormR)
  /-- Unsigned division, raising DIV_ZERO on a zero divisor (R468). -/
  | cpuDivu (u : Issue) (f : FormR)
  /-- Signed remainder, raising DIV_ZERO on a zero divisor (R468). -/
  | cpuRem (u : Issue) (f : FormR)
  /-- Unsigned remainder, raising DIV_ZERO on a zero divisor (R468). -/
  | cpuRemu (u : Issue) (f : FormR)
  /-- Counts the leading zeros of D[RS1] (R468). -/
  | cpuClz (u : Issue) (f : FormR)
  /-- Counts the ones of D[RS1] (R468). -/
  | cpuPopc (u : Issue) (f : FormR)
  /-- Absolute value of D[RS1] (R468). -/
  | cpuAbs (u : Issue) (f : FormR)
  /-- Extracts a byte of D[RS1] (R468). -/
  | cpuExtb (u : Issue) (f : FormR)
  /-- Inserts a byte into D[RD] (R468). -/
  | cpuInsb (u : Issue) (f : FormR)
  /-- Adds a sign-extended IMM30 (R468). -/
  | cpuAddi (u : Issue) (f : FormI)
  /-- AND with a zero-extended IMM30 (R468). -/
  | cpuAndi (u : Issue) (f : FormI)
  /-- OR with a zero-extended IMM30 (R468). -/
  | cpuOri (u : Issue) (f : FormI)
  /-- XOR with a zero-extended IMM30 (R468). -/
  | cpuXori (u : Issue) (f : FormI)
  /-- Signed set-less-than against an immediate (R468). -/
  | cpuSlti (u : Issue) (f : FormI)
  /-- Unsigned set-less-than against an immediate (R468). -/
  | cpuSltiu (u : Issue) (f : FormI)
  /-- Shifts left by an immediate (R468). -/
  | cpuShli (u : Issue) (f : FormI)
  /-- Shifts right logically by an immediate (R468). -/
  | cpuShri (u : Issue) (f : FormI)
  /-- Shifts right arithmetically by an immediate (R468). -/
  | cpuSari (u : Issue) (f : FormI)
  /-- Loads a sign-extended IMM32 (R468). -/
  | cpuLi (u : Issue) (f : FormL)
  /-- Loads bits 47:32 of a data register (R468). -/
  | cpuLih (u : Issue) (f : FormL)
  /-- Loads a zero-extended IMM32 into an address register (R468). -/
  | cpuLia (u : Issue) (f : FormL)
  /-- Moves a data register to an address register (R468). -/
  | cpuMova (u : Issue) (f : FormR)
  /-- Moves an address register to a data register (R468). -/
  | cpuMovd (u : Issue) (f : FormR)
  /-- Adds a data register to an address register (R468). -/
  | cpuAdda (u : Issue) (f : FormR)
  /-- Subtracts a data register from an address register (R468). -/
  | cpuSuba (u : Issue) (f : FormR)
  /-- Adds IMM30 to an address register (R468). -/
  | cpuAddai (u : Issue) (f : FormI)
  /-- Adds a signed product to an accumulator (R468). -/
  | cpuMac (u : Issue) (f : FormR)
  /-- Subtracts a signed product from an accumulator (R468). -/
  | cpuMsu (u : Issue) (f : FormR)
  /-- Adds an unsigned product to an accumulator (R468). -/
  | cpuMacu (u : Issue) (f : FormR)
  /-- Sets an accumulator to a signed product (R468). -/
  | cpuMpy (u : Issue) (f : FormR)
  /-- Clears an accumulator (R468). -/
  | cpuClrac (u : Issue) (f : FormR)
  /-- Shifts an accumulator (R468). -/
  | cpuShac (u : Issue) (f : FormR)
  /-- Extracts a saturated, shifted accumulator value (R468). -/
  | cpuExtac (u : Issue) (f : FormR)
  /-- Extracts an accumulator value, raising AC_RANGE on saturation (R468). -/
  | cpuExtacv (u : Issue) (f : FormR)
  /-- Loads accumulator bits 47:0 (R468). -/
  | cpuLdacl (u : Issue) (f : FormR)
  /-- Loads accumulator bits 95:48 (R468). -/
  | cpuLdacm (u : Issue) (f : FormR)
  /-- Loads accumulator bits 111:96 (R468). -/
  | cpuLdach (u : Issue) (f : FormR)
  /-- Reads accumulator bits 47:0 (R468). -/
  | cpuMfacl (u : Issue) (f : FormR)
  /-- Reads accumulator bits 95:48 (R468). -/
  | cpuMfacm (u : Issue) (f : FormR)
  /-- Reads accumulator bits 111:96, sign-extended (R468). -/
  | cpuMfach (u : Issue) (f : FormR)
  /-- Loads a data register from D-space in the selected addressing mode (R462). -/
  | cpuLd (u : Issue) (f : FormM)
  /-- Stores a data register to D-space (R462). -/
  | cpuSt (u : Issue) (f : FormM)
  /-- Loads an address register from D-space (R462). -/
  | cpuLda (u : Issue) (f : FormM)
  /-- Stores an address register to D-space (R462). -/
  | cpuSta (u : Issue) (f : FormM)
  /-- Reads an IO-space register under the block's access rule (R482). -/
  | cpuIn (u : Issue) (f : FormM)
  /-- Writes an IO-space register after earlier stores are visible (R482). -/
  | cpuOut (u : Issue) (f : FormM)
  /-- Reads an I-space word (R468). -/
  | cpuIld (u : Issue) (f : FormM)
  /-- Writes an I-space word at S; a write to code flash gives a bus error (R465). -/
  | cpuIst (u : Issue) (f : FormM)
  /-- Compare-and-branch with one delay slot (R470). -/
  | cpuBcc (u : Issue) (f : FormB)
  /-- Delayed jump to TGT24 (R471). -/
  | cpuJ (u : Issue) (f : FormJ)
  /-- Delayed call that links in A[RA] (R471). -/
  | cpuCall (u : Issue) (f : FormJ)
  /-- Delayed jump to an address register (R471). -/
  | cpuJr (u : Issue) (f : FormR)
  /-- Delayed call through an address register (R471). -/
  | cpuCallr (u : Issue) (f : FormR)
  /-- Starts hardware loop level LVL, after the checks of R474 (R473). -/
  | cpuLoop (u : Issue) (f : FormP)
  /-- Does nothing (R468). -/
  | cpuNop (u : Issue) (f : FormS)
  /-- Raises TRAP with code IMM16 (R489). -/
  | cpuTrap (u : Issue) (f : FormS)
  /-- Debug breakpoint, or BREAKPOINT with no debug halt in reach (R489). -/
  | cpuBrk (u : Issue) (f : FormS)
  /-- Stops issue until an event is pending (R468). -/
  | cpuWait (u : Issue) (f : FormS)
  /-- Completes when every earlier access is complete (R482). -/
  | cpuFence (u : Issue) (f : FormS)
  /-- Discards fetched and prefetched words (R465). -/
  | cpuSynci (u : Issue) (f : FormS)
  /-- Reads a system register (R478). -/
  | cpuMfs (u : Issue) (f : FormS)
  /-- Writes a system register; a write to PSW is a mode change with a shadow (R479). -/
  | cpuMts (u : Issue) (f : FormS)
  /-- Exception return, after the frame checks of R504 (R506). -/
  | cpuRete (u : Issue) (f : FormS)
  /-- The Ethernet link of P2 or P3 goes down, ending every session of that port with its role returned to NONE (R252). -/
  | ethLinkDown (port : Nat)
  /-- An incoming ARP, NDP or ICMP echo frame is answered, and an incoming IP fragment is dropped (R265). -/
  | arpNdpIcmpEcho (port kind : Nat) (body : List Byte)
  /-- A running slew removes the last of its offset, so SLEWING clears and the slew stops counting against LOCKED and the error bound (R155). -/
  | slewComplete
  /-- Each second in HOLDOVER, FREE or ACQUIRE, TIME_ERRBOUND grows, and UNCERTAIN is set when it passes TIME_UNC_THR (R166). -/
  | errorBoundGrowth
  /-- Power returns to the always-on domain from VBAT or VDD_IO, and the always-on counter restarts from zero (R158). -/
  | aonPowerReturn (cell : Bool)
  /-- The engine finishes a unit's encryption and forms its GCM tag, clearing the previous-key register if the unit used it (R72). -/
  | gcmTagFormed (lane : Nat)
  /-- Slot 66 is cleared at the later of the first lane epoch boundary after a key epoch boundary and 1 s after that boundary (R375). -/
  | previousKekClear
  /-- A flash die gives no response, and the store controller enters FAULT (R215). -/
  | dieNoResponse (die : Nat)
  /-- An instruction word with an undefined opcode, FN, SEL, COND or MODE, including an all-zero or all-ones word, raises ILLEGAL_INSTRUCTION cause UNDEFINED (R467). -/
  | cpuUndefinedEncoding (u : Issue) (w : W48)
  deriving DecidableEq, Repr

end Sys2Proof
end

