-- ==== Sys2Proof/Config.lean ====
section
/-! DEFINITION. What an implementation fixes and the model leaves open: free values, the cryptographic
primitives that the spec takes from other standards, and values of the part set at final test. None has a body
that a proof could see. -/
namespace Sys2Proof.Config

/-- The `n`-th free value. -/
opaque freeNat (n : Nat) : Nat

/-- The `n`-th draw of random bytes. -/
opaque freeBytes (n : Nat) : List Byte

/-- SHAKE256 of a string, `n` bytes of output. -/
opaque shake256 (m : List Byte) (n : Nat) : List Byte

/-- AES-256-GCM: key, nonce, additional data, plaintext; ciphertext and tag. -/
opaque gcmSeal (key nonce aad text : List Byte) : List Byte × List Byte

/-- AES-256-GCM decryption: key, nonce, additional data, ciphertext, tag; nothing when the tag fails. -/
opaque gcmOpen (key nonce aad text tag : List Byte) : Option (List Byte)

/-- The GHASH accumulator of AES-256-GCM after the additional data and a part of the ciphertext: key, both strings. -/
opaque ghash (key aad text : List Byte) : List Byte

/-- AES-256 key wrap of RFC 3394 and its inverse. -/
opaque kwWrap (kek key : List Byte) : List Byte
opaque kwUnwrap (kek wrapped : List Byte) : Option (List Byte)

/-- AES-256 key wrap with padding of RFC 5649 and its inverse. -/
opaque kwpWrap (kek key : List Byte) : List Byte
opaque kwpUnwrap (kek wrapped : List Byte) : Option (List Byte)

/-- AES-CMAC and AES-CTR under a key of the field link. -/
opaque cmac (key m : List Byte) : List Byte
opaque aesCtr (key iv text : List Byte) : List Byte

/-- AES-256-XTS of one data unit, and KMAC256 of 32 bytes with a customisation string. -/
opaque xtsSeal (keys tweak text : List Byte) : List Byte
opaque kmac256 (key m custom : List Byte) : List Byte

/-- Falcon-1024: signing takes the attempt's draw. -/
opaque falconSign (key m draw : List Byte) : List Byte
opaque falconVerify (pub m sig : List Byte) : Bool
/-- A key pair from a seed: secret and public part. -/
opaque falconKeygen (seed : List Byte) : List Byte × List Byte

/-- ML-KEM-1024: encapsulation gives the ciphertext and the shared secret. -/
opaque kemEncaps (pub draw : List Byte) : List Byte × List Byte
opaque kemDecaps (sec ct : List Byte) : List Byte
opaque kemKeygen (seed : List Byte) : List Byte × List Byte

/-- ECDSA and key agreement on P-384. -/
opaque ecdsaSign (key m draw : List Byte) : List Byte
opaque ecdsaVerify (pub m sig : List Byte) : Bool
opaque p384Keygen (seed : List Byte) : List Byte × List Byte
opaque ecdhP384 (key pub : List Byte) : Option (List Byte)

/-- X25519: the agreement, and the public key of a private one. -/
opaque x25519 (key pub : List Byte) : List Byte
opaque x25519Pub (key : List Byte) : List Byte

/-- The public part of a Falcon-1024 private key and of a P-384 scalar. -/
opaque falconPub (key : List Byte) : List Byte
opaque p384Pub (key : List Byte) : List Byte

/-- RSA verification. -/
opaque rsaVerify (pub m sig : List Byte) : Bool

/-- Valid encodings of a Falcon-1024 public key, of a P-384 point and of an ML-KEM-1024 encapsulation key. -/
opaque falconPubValid (pub : List Byte) : Bool
opaque p384PubValid (pub : List Byte) : Bool
opaque kemPubValid (pub : List Byte) : Bool

/-- Values of the part in OTP since final test: the hardware unique key, the keys made then and the temperature curve. -/
opaque huk : List Byte
opaque factoryKey (slot : Nat) : List Byte
opaque factoryPub (slot : Nat) : List Byte
opaque factorySignature (slot : Nat) : List Byte
opaque factoryCreated (slot : Nat) : Nat
opaque factoryMeasure : List Byte
opaque curve (i : Nat) : Int

/-- Key digests of OTP whose revocation bits are clear: firmware signers and debug keys (R367, R448). -/
opaque fwSigners : List (List Byte)
opaque debugKeys : List (List Byte)

/-- The seed of the per-boot word-code salt (R410). -/
opaque saltSeed : List Byte

/-- SHAKE256 of the boot ROM, and the boot block and manifest of the factory image (R368). -/
opaque romDigest : List Byte
opaque factoryBoot : List Byte
opaque factoryManifest : List Byte

/-- The servo's rate correction, in 0.1 ppb, after a measured offset in units of 2^-32 s: bandwidth code, rate in
force, offset. The spec fixes the bandwidth and leaves the loop's arithmetic open. -/
opaque servoRate (bw : Nat) (rate offset : Int) : Int

/-- The build number of the firmware, of which GET_INFO reports the low 16 bits (R290). -/
opaque buildNumber : Nat

/-- The strap MGT_SEL, sampled when PGOOD rises: false selects SPI, true I²C (R274). -/
opaque mgtSel : Bool

end Sys2Proof.Config
end

