-- ==== Sys2Proof/Machine/Bits.lean ====
section
/-! DEFINITION. Bit fields of registers, little-endian byte strings (R5), and updates of a row of like
units. -/
namespace Sys2Proof.Machine

/-- Bits `[lo + w - 1 : lo]` of a register. -/
def fld (v : Word) (lo w : Nat) : Nat := (v.toNat >>> lo) % 2 ^ w

/-- Bit `n` of a register. -/
def flag (v : Word) (n : Nat) : Bool := v.toNat.testBit n

/-- A register laid out from (lowest bit, value) pairs; reserved fields read zero (R6). -/
def pack (fs : List (Nat × Nat)) : Word :=
  BitVec.ofNat 32 (fs.foldl (fun a f => a + f.2 <<< f.1) 0)

/-- The low 32 bits of a number. -/
def lo32 (n : Nat) : Word := BitVec.ofNat 32 n

/-- The bits 63:32 of a number. -/
def hi32 (n : Nat) : Word := BitVec.ofNat 32 (n >>> 32)

/-- The number with the given high and low halves. -/
def hiLo (hi lo : Nat) : Nat := (hi % 2 ^ 32) <<< 32 + lo % 2 ^ 32

/-- A register with bit `n` set (ST: sticky until cleared). -/
def setBit (v : Word) (n : Nat) : Word := v ||| BitVec.ofNat 32 (1 <<< n)

/-- A register with bit `n` clear. -/
def clrBit (v : Word) (n : Nat) : Word := v &&& ~~~BitVec.ofNat 32 (1 <<< n)

/-- W1C: the bits written with 1 are cleared. -/
def w1c (v wr : Word) : Word := v &&& ~~~wr

/-- `n` bytes of a number, the least significant first (R5). -/
def le : Nat → Nat → List Byte
  | 0, _ => []
  | n + 1, v => BitVec.ofNat 8 v :: le n (v >>> 8)

/-- The number that little-endian bytes spell (R5). -/
def unle : List Byte → Nat
  | [] => 0
  | b :: bs => b.toNat + unle bs <<< 8

/-- `n` zero bytes. -/
def zeros (n : Nat) : List Byte := List.replicate n 0#8

/-- `n` bytes of a format from offset `o`; bytes past its end are zero. -/
def bytesAt (bs : List Byte) (o n : Nat) : List Byte :=
  let b := (bs.drop o).take n
  b ++ zeros (n - b.length)

/-- The integer of `n` bytes at offset `o` of a format. -/
def numAt (bs : List Byte) (o n : Nat) : Nat := unle (bytesAt bs o n)

/-- The bytes, filled with zeros or cut to `n`. -/
def fitBytes (n : Nat) (bs : List Byte) : List Byte := bytesAt bs 0 n

/-- Zeros up to a whole number of `n` bytes. -/
def padTo (n : Nat) (bs : List Byte) : List Byte := bs ++ zeros ((n - bs.length % n) % n)

/-- A row of like units with unit `i` replaced by `f` of it; out of range nothing changes. -/
@[irreducible] def vupd {α : Type} {n : Nat} (v : Vector α n) (i : Nat) (f : α → α) : Vector α n :=
  Vector.ofFn fun j => if j.val = i then f v[j] else v[j]

/-- Unit `i` of a row of like units, or the given one out of range. -/
@[irreducible] def vget {α : Type} {n : Nat} (v : Vector α n) (i : Nat) (d : α) : α :=
  if h : i < n then v[i] else d

/-- Saturating count of `w` bits. -/
def satInc (w n : Nat) : Nat := if n + 1 < 2 ^ w then n + 1 else 2 ^ w - 1

/-- Sorting by an order, stable, by insertion. -/
def insertBy {α : Type} (r : α → α → Bool) (x : α) : List α → List α
  | [] => [x]
  | y :: ys => if r x y then x :: y :: ys else y :: insertBy r x ys
def sortBy {α : Type} (r : α → α → Bool) (l : List α) : List α := l.foldr (insertBy r) []

/-- Bits of a written value. -/
def bitsAt (v lo w : Nat) : Nat := (v >>> lo) % 2 ^ w

end Sys2Proof.Machine
end

