-- ==== Sys2Proof/Machine/Crypto.lean ====
section
/-! DEFINITION. Cyclic redundancy checks, and the primitives of Config brought to the lengths that their
standards give them. -/
namespace Sys2Proof.Machine

/-- One bit step of a reflected CRC. -/
def crcBit (poly : Nat) (c : Nat) : Nat :=
  if c % 2 = 1 then (c >>> 1) ^^^ poly else c >>> 1

/-- Eight bit steps. -/
def crcByte (poly c : Nat) (b : Byte) : Nat :=
  let c := c ^^^ b.toNat
  crcBit poly (crcBit poly (crcBit poly (crcBit poly (crcBit poly (crcBit poly (crcBit poly (crcBit poly c)))))))

/-- CRC-32 with the IEEE 802.3 polynomial (R146). -/
def crc32 (bs : List Byte) : Nat := (bs.foldl (crcByte 0xEDB88320) 0xFFFFFFFF) ^^^ 0xFFFFFFFF

/-- CRC-12 of R407, bits least significant first. -/
def crc12 (bs : List Byte) : Nat := bs.foldl (crcByte 0xF01) 0xFFF

/-- The word code of a 48-bit word at an address of a space under a salt (R407). -/
def wordCode (data addr space salt : Nat) : Nat :=
  crc12 (le 6 (data ^^^ salt) ++ le 4 addr ++ [BitVec.ofNat 8 space])

/-- ASCII text as bytes. -/
def ascii (s : String) : List Byte := s.toList.map fun c => BitVec.ofNat 8 c.toNat

/-- SHAKE256 with `n` bytes of output. -/
def shake (m : List Byte) (n : Nat) : List Byte := fitBytes n (Config.shake256 m n)

/-- AES-256-GCM: as many bytes of ciphertext as of text, and a 16-byte tag. -/
def gcm (key nonce aad text : List Byte) : List Byte × List Byte :=
  let r := Config.gcmSeal key nonce aad text
  (fitBytes text.length r.1, fitBytes 16 r.2)

/-- The text that a ciphertext decrypts to before its tag is judged: counter mode applies the same key stream (R77). -/
def gcmText (key nonce aad text : List Byte) : List Byte := (gcm key nonce aad text).1

/-- GCM decryption of a ciphertext with its tag. -/
def gcmOpen (key nonce aad text tag : List Byte) : Option (List Byte) :=
  (Config.gcmOpen key nonce aad text tag).map (fitBytes text.length)

/-- AES-256-XTS under the first 64 bytes of the staging keys, and the 32-byte MAC of a staged page under the rest (R210, R212). -/
def xts (keys tweak text : List Byte) : List Byte := fitBytes text.length (Config.xtsSeal (fitBytes 64 keys) tweak text)
def stagingMac (keys m : List Byte) : List Byte := fitBytes 32 (Config.kmac256 (keys.drop 64) m (ascii "QSTG"))

/-- A Falcon-1024 signature, 1,280 bytes (R249). -/
def falconSig (key m draw : List Byte) : List Byte := fitBytes 1280 (Config.falconSign key m draw)

end Sys2Proof.Machine
end

