-- ==== Sys2Proof/Machine/StateLog.lean ====
section
/-! DEFINITION. The event recorder's state (R424 to R437). -/
namespace Sys2Proof.Machine

/-- An event record (R424) with its index (R425). -/
structure LogRec where
  index       : Nat := 0
  typ         : Nat := 0      -- type_sev[9:0]
  carried     : Bool := false -- bit 10
  uncertain   : Bool := false -- bit 11
  sev         : Nat := 0      -- bits 13:12, 0 INFO to 3 CRITICAL
  injected    : Bool := false -- bit 14
  aon         : Bool := false -- bit 15
  rep         : Nat := 0
  opTime      : Nat := 0
  powerCycle  : Nat := 0
  custodyTime : Nat := 0
  data        : List Byte := []  -- 12 bytes
  /-- The record stands in the always-on buffer alone: no page of the log will hold it (R415, R432). -/
  only        : Bool := false
  deriving DecidableEq, Repr

/-- The LOG_ block (R437) and the log itself. -/
structure Log where
  /-- Programmed records by block, the newest block and in it the newest record first; the first block is the
  open one (R431). -/
  blocks     : List (List LogRec) := [[]]
  /-- Pages programmed in the open block, and the erased blocks left of the eight (R431). -/
  openPages  : Nat := 0
  erased     : Nat := 7
  /-- The store blocks of the log, the open one first and the others in the order of their rotation (R177, R205). -/
  phys       : List Nat := [256, 257, 258, 259, 260, 261, 262, 263]
  /-- The page buffer, oldest first (R428). -/
  buffer     : List LogRec := []
  /-- The newest record is held for folding (R427). -/
  held       : Bool := false
  /-- The next index, kept in the always-on domain (R425). -/
  next       : Nat := 0
  oldest     : Nat := 0
  frozen     : Bool := false
  /-- The session that holds a freeze: its port and slot (R433). -/
  holder     : Option (Nat × Nat) := none
  /-- Pages to program, oldest first: the first is in programming (R428). -/
  pages      : List (List LogRec) := []
  /-- Records to carry forward, in their original order, and whether the page programmed last was a carried
  one (R431). -/
  carry      : List LogRec := []
  lastCarry  : Bool := false
  /-- The index of a LOG_CLEARED record whose page does not yet count as programmed (R434). -/
  clearIdx   : Option Nat := none
  /-- Blocks still to erase after a clear; an erase of the oldest block of a full log is under way. -/
  clearErase : Nat := 0
  erasing    : Bool := false
  /-- The store hands records to the log: true from the hand-off at READY (R430). -/
  open_      : Bool := false
  /-- From the stop edge of a close until the close record counts as programmed (R429). -/
  closing    : Bool := false
  /-- When LOG_FLUSH runs out (R428). -/
  flushAt    : Option Nat := none
  droppedInfo     : Nat := 0
  droppedNotice   : Nat := 0
  droppedWarning  : Nat := 0
  droppedCritical : Nat := 0
  frozenLost : Nat := 0
  flushMs    : Nat := 1000
  err        : Word := 0#32
  swData0    : Word := 0#32
  swData1    : Word := 0#32
  swData2    : Word := 0#32
  deriving DecidableEq, Repr

end Sys2Proof.Machine
end

