-- ==== Sys2Proof/Machine/Sparse.lean ====
section
/-! DEFINITION. Sparse memories: a list of (address, value) pairs in one canonical form, addresses strictly
rising and no entry equal to what an unlisted address reads as (`d`). -/
namespace Sys2Proof.Machine

/-- A sparse memory of values of one kind. -/
abbrev Sparse (α : Type) := List (Nat × α)

/-- What address `k` reads as; `d` says what unlisted addresses read as. -/
def spGet {α : Type} (d : Nat → α) : Sparse α → Nat → α
  | [], k => d k
  | (a, v) :: m, k => if a = k then v else spGet d m k

/-- The memory without address `k`. -/
def spDel {α : Type} : Sparse α → Nat → Sparse α
  | [], _ => []
  | (a, v) :: m, k => if a = k then spDel m k else (a, v) :: spDel m k

/-- The memory with `v` put at `k`, in order. -/
def spIns {α : Type} : Sparse α → Nat → α → Sparse α
  | [], k, v => [(k, v)]
  | (a, w) :: m, k, v =>
    if k < a then (k, v) :: (a, w) :: m
    else if a = k then (k, v) :: m
    else (a, w) :: spIns m k v

/-- A write of `v` at `k`: writing what an unlisted address reads as removes the entry. -/
def spSet {α : Type} [DecidableEq α] (d : Nat → α) (m : Sparse α) (k : Nat) (v : α) : Sparse α :=
  if v = d k then spDel m k else spIns m k v

/-- Writes of a run of values from `k` upwards. -/
def spSetAll {α : Type} [DecidableEq α] (d : Nat → α) : Sparse α → Nat → List α → Sparse α
  | m, _, [] => m
  | m, k, v :: vs => spSetAll d (spSet d m k v) (k + 1) vs

/-- A run of `n` values from `k` upwards. -/
def spGetAll {α : Type} (d : Nat → α) (m : Sparse α) (k : Nat) : Nat → List α
  | 0 => []
  | n + 1 => spGet d m k :: spGetAll d m (k + 1) n

/-- The memory without the addresses from `lo` up to, not including, `hi`. -/
def spClear {α : Type} (lo hi : Nat) (m : Sparse α) : Sparse α :=
  m.filter fun e => decide (e.1 < lo) || decide (hi ≤ e.1)

/-- The canonical form from address `lo` upwards. -/
def spWfFrom {α : Type} [DecidableEq α] (d : Nat → α) : Nat → Sparse α → Bool
  | _, [] => true
  | lo, (a, v) :: m => decide (lo ≤ a) && decide (v ≠ d a) && spWfFrom d (a + 1) m

/-- The canonical form: addresses strictly rising, no entry that an unlisted address would read as. -/
def spWf {α : Type} [DecidableEq α] (d : Nat → α) (m : Sparse α) : Bool := spWfFrom d 0 m

end Sys2Proof.Machine
end

