-- ==== Sys2Proof/Machine/StatePort.lean ====
section
/-! DEFINITION. The host ports' state: sessions, mailboxes, notice channels, PCIe, Ethernet and the
management port (R247 to R278). -/
namespace Sys2Proof.Machine

/-- Roles (R247), in the order of their codes. -/
inductive Role where
  | none | inspector | operator | evidence | fleet | service
  deriving DecidableEq, Repr

/-- Role codes (R247). -/
def Role.code : Role → Nat
  | .none => 0 | .inspector => 1 | .operator => 2 | .evidence => 3 | .fleet => 4 | .service => 5

/-- MBX_SESSION.STATE (R277), in the order of its codes. -/
inductive SessSt where
  | none | challenged | active | locked
  deriving DecidableEq, Repr

/-- STATE codes (R277). -/
def SessSt.code : SessSt → Nat
  | .none => 0 | .challenged => 1 | .active => 2 | .locked => 3

/-- A message being assembled from fragments (R271). -/
structure Reasm where
  seq    : Nat := 0
  typ    : Nat := 0
  count  : Nat := 0
  msgLen : Nat := 0
  frags  : List (Nat × List Byte) := []
  until_ : Nat := 0
  deriving DecidableEq, Repr

/-- An unacknowledged NOTICE or EXPORT datagram (R272). -/
structure Unacked where
  typ   : Nat := 0
  seq   : Nat := 0
  body  : List Byte := []
  at_   : Nat := 0
  tries : Nat := 0
  deriving DecidableEq, Repr

/-- A port session (R247 to R253, R267 to R272). -/
structure Session where
  st      : SessSt := .none
  role    : Role := .none
  id      : Nat := 0
  /-- HELLO and CHALLENGE bodies, and the transcript digest t (R249). -/
  hello   : List Byte := []
  chal    : List Byte := []
  expires : Nat := 0
  ephPriv : List Byte := []
  t       : List Byte := []
  kC2d    : List Byte := []
  kD2c    : List Byte := []
  /-- When MBX_IDLE runs out, ns. -/
  idleAt  : Option Nat := none
  /-- Highest REQUEST seq accepted, whether it still runs, and its cached RESPONSE (R270). -/
  rxSeq   : Nat := 0
  req     : List Byte := []
  running : Bool := false
  cached  : List Byte := []
  txSeq   : Nat := 1
  /-- Messages of which fragments are still missing (R271). -/
  reasm   : List Reasm := []
  unacked : List Unacked := []
  /-- The session buffer; on P0 and P1 the bulk window (R261, R284). -/
  buf     : Sparse W48 := []
  /-- The order in which slots became CHALLENGED (R273). -/
  age     : Nat := 0
  /-- Notice classes and lowest event severity subscribed (R293). -/
  classes : Nat := 0
  minSev  : Nat := 0
  deriving DecidableEq, Repr

/-- Mailbox slot states (R277), in the order of their codes. -/
inductive SlotSt where
  | idle | busy | done
  deriving DecidableEq, Repr

/-- STATE codes (R277). -/
def SlotSt.code : SlotSt → Nat
  | .idle => 0 | .busy => 1 | .done => 2

/-- A mailbox slot (R255, R277). -/
structure Slot where
  st      : SlotSt := .idle
  tag     : Nat := 0
  status  : Nat := 0
  respLen : Nat := 0
  /-- A response that waits because the port is in D3hot (R262). -/
  resp    : Option (List Byte) := none
  /-- The request frame as copied at the doorbell. -/
  req     : List Byte := []
  deriving DecidableEq, Repr

/-- The notice channel of a port (R259, R260). -/
structure Notices where
  base    : Nat := 0
  size    : Nat := 4
  en      : Bool := false
  tail    : Nat := 0
  head    : Nat := 0
  lost    : Nat := 0
  /-- Classes and lowest event severity of the port's subscription on P0, P1 and P4 (R293). -/
  classes : Nat := 0
  minSev  : Nat := 0
  /-- NOTICE_LOST has been logged in this hive period. -/
  logged  : Bool := false
  deriving DecidableEq, Repr

/-- The MBX_ block of a port with its windows (R254, R277). -/
structure Mailbox where
  err     : Word := 0#32
  vecSlot : Nat := 0
  vecNotice : Nat := 1
  slots   : Vector Slot 4 := Vector.replicate 4 {}
  notices : Notices := {}
  /-- Mailbox windows, by byte offset from the first window. -/
  win     : Sparse Byte := []
  deriving DecidableEq, Repr

/-- PCIe state of a port (R261 to R264, R278). -/
structure Pcie where
  rate     : Nat := 0
  width    : Nat := 0
  d3hot    : Bool := false
  linkDown : Nat := 0
  /-- The MSI-X table by dword, and the pending bit array by dword (R261). -/
  msix     : Sparse Word := []
  pba      : Sparse Word := []
  /-- The maximum read request size, bytes, and the completion timeout, ns (R261, R276). -/
  maxRead  : Nat := 512
  cplLimit : Nat := 50000000
  deriving DecidableEq, Repr

/-- Ethernet state of a port (R265 to R273, R278). -/
structure Eth where
  rate    : Nat := 0
  iface   : Nat := 0
  latTx   : Nat := 0
  latRx   : Nat := 0
  drop    : Nat := 0
  reasm   : Nat := 100
  retx    : Nat := 200
  /-- The last PTP event timestamps, corrected (R266). -/
  stampRx : Nat := 0
  stampTx : Nat := 0
  /-- ETH_IF as it was loaded at power-up: rate and interface (R336). -/
  cfg     : Nat := 0
  /-- A HELLO of which fragments are still missing (R271). -/
  hello   : List Reasm := []
  deriving DecidableEq, Repr

/-- A host port (R247). -/
structure Port where
  fails   : Nat := 0
  /-- End of the lockout, ns (R251). -/
  lockAt  : Option Nat := none
  /-- One session on P0, P1, P4; eight on P2, P3. -/
  sess    : Vector Session 8 := Vector.replicate 8 {}
  mbx     : Mailbox := {}
  pcie    : Pcie := {}
  eth     : Eth := {}
  /-- Challenges so far: the age of a slot's challenge (R273). -/
  chals   : Nat := 0
  deriving DecidableEq, Repr

/-- Output pins that the device drives. -/
inductive Pin where
  | mgtAttnN | pwrMainEn
  deriving DecidableEq, Repr

/-- What the device sends to its partners: bytes written to host memory through a port, MSI-X messages,
datagrams, mailbox responses, lines, and field replies. -/
inductive Output where
  | hostWrite (port addr : Nat) (data : List Byte)
  /-- A memory read request of a payload fetch (R86). -/
  | hostRead (port addr len : Nat)
  | msix (port vector : Nat)
  | datagram (port slot typ seq : Nat) (body : List Byte)
  | exported (dest : List Byte) (port slot seq : Nat) (body : List Byte)
  | frame (port : Nat) (what : Nat) (body : List Byte)
  | reads (port : Nat) (data : List Byte)
  | tap (data : Nat)
  /-- A DBG_ACCESS transfer that completes with a bus error, and what it reads (R447, R453). -/
  | tapErr (data : Nat)
  | fieldReply (bits : List Bool)
  | readerSend (bits : List Bool)
  | pin (name : Pin) (level : Bool)
  deriving DecidableEq, Repr

/-- Device-wide MBX_ registers and the management port's own state (R274 to R277). -/
structure PortsCfg where
  chalTime : Nat := 10
  lockout  : Nat := 60
  idle     : Nat := 900
  /-- When the present I²C transaction's SCL-low limit runs out, ns (R276). -/
  sclAt    : Option Nat := none
  /-- Requests not yet started: (port, slot), in the order in which they reached the supervisor's mailbox
  arbiter (R229, R257). -/
  arrivals : List (Nat × Nat) := []
  /-- The edge of the latest of them, ns, and those that arrived on it (R257). -/
  edge     : Nat := 0
  edgeReqs : List (Nat × Nat) := []
  deriving DecidableEq, Repr

end Sys2Proof.Machine
end

