-- ==== Sys2Proof/Machine/Formats.lean ====
section
/-! DEFINITION. Formats that several blocks share: record frames (R146), event records (R424), transport headers
and datagrams (R267, R268). -/
namespace Sys2Proof.Machine

/-- One byte. -/
def u8 (n : Nat) : Byte := BitVec.ofNat 8 n

/-- A record frame with its body, padded to 16 bytes (R146); byte 2 is zero but for the PHASE of a notice. -/
def frameOf (kind lane phase : Nat) (body : List Byte) : List Byte :=
  [u8 kind, u8 lane, u8 phase, 0#8] ++ le 4 body.length ++ le 4 (crc32 body) ++ zeros 4 ++ padTo 16 body

/-- The 32 bytes of an event record (R424). -/
def LogRec.bytes (r : LogRec) : List Byte :=
  le 2 (r.typ % 1024 + b2n r.carried <<< 10 + b2n r.uncertain <<< 11 + (r.sev % 4) <<< 12
    + b2n r.injected <<< 14 + b2n r.aon <<< 15)
  ++ le 2 r.rep ++ le 4 r.opTime ++ le 4 r.powerCycle ++ le 8 r.custodyTime ++ fitBytes 12 r.data

/-- A list cut into pieces of at most `n`; the fuel bounds their number. -/
def piecesAux {α : Type} (n : Nat) : Nat → List α → List (List α)
  | 0, _ => []
  | f + 1, l => if l.isEmpty then [] else l.take n :: piecesAux n f (l.drop n)

/-- A list cut into pieces of at most `n`. -/
def pieces {α : Type} (n : Nat) (l : List α) : List (List α) := piecesAux n l.length l

/-- The 32-byte transport header (R267). -/
def udpHeader (typ sid seq frag count len : Nat) : List Byte :=
  ascii "QMBX" ++ [1#8, u8 typ, 0#8, 0#8] ++ le 8 sid ++ le 8 seq ++ [u8 frag, u8 count, 0#8, 0#8] ++ le 4 len

/-- A datagram nonce: direction, fragment, two zero bytes, sequence number (R268). -/
def udpNonce (dir frag seq : Nat) : List Byte := [u8 dir, u8 frag, 0#8, 0#8] ++ le 8 seq

/-- Plaintext bytes of a fragment that the device sends. -/
def fragBytes : Nat := 1408

/-- The datagrams of an encrypted message from the device (R267, R268). -/
def udpSealed (key : List Byte) (typ sid seq : Nat) (body : List Byte) : List (List Byte) :=
  let ps := if body.isEmpty then [[]] else pieces fragBytes body
  (List.range ps.length).map fun i =>
    let h := udpHeader typ sid seq i ps.length body.length
    let c := gcm key (udpNonce 1 i seq) h (ps.getD i [])
    h ++ c.1 ++ c.2

end Sys2Proof.Machine
end

