-- ==== Sys2Proof/Machine/StateCmd.lean ====
section
/-! DEFINITION. Commands that have taken effect and whose response waits, and store exports
(R257, R285, R294, R309 to R312). -/
namespace Sys2Proof.Machine

/-- What the response of a command waits for. -/
inductive WaitFor where
  | mode                    -- a mode transition completes (R294)
  | hold (id revision : Nat) -- the HOLD record is persistent (R309)
  | release (id : Nat)      -- the RELEASE record is persistent (R310)
  | logRec (index : Nat)    -- the log page with this record counts as programmed (R323)
  | verifyEnd (lane ctx : Nat) -- the descriptor in progress ends (R301)
  | redeliver (lane ctx : Nat) -- the last redelivered SEALED entry (R303)
  | opened (lane : Nat)     -- the second ELEMENT entry of a STREAM_OPEN (R297)
  | closed (lane : Nat)     -- the ELEMENT entry of the CLOSE element (R298)
  | flash (tag : Nat)       -- code flash programming (R330, R331, R335)
  | transition              -- the life-cycle entry and the log record (R442)
  deriving DecidableEq, Repr

/-- A command whose response waits. -/
structure CmdWait where
  port : Nat := 0
  slot : Nat := 0
  for_ : WaitFor := .mode
  /-- The response body, as far as it is already known. -/
  body : List Byte := []
  deriving DecidableEq, Repr

/-- A store export (R312): containers still to send, and the counts of its response. -/
structure Export where
  port     : Nat := 0
  slot     : Nat := 0
  left     : List Nat := []
  /-- Bytes of the present container still to send, and its block, pinned until the last of them is sent. -/
  cur      : List Byte := []
  block    : Option Nat := none
  sent     : Nat := 0
  skipped  : Nat := 0
  bytes    : Nat := 0
  firstSkipped : Nat := 0
  /-- Where the next container goes in host memory, on P0 and P1. -/
  addr     : Option Nat := none
  deriving DecidableEq, Repr

end Sys2Proof.Machine
end

