-- ==== Sys2Proof/Machine/StateCpu.lean ====
section
/-! DEFINITION. A Kwaxon-48 core's state: its registers, status, pending delay slot and shadow, exception
registers, memory protection unit and memories (R458 to R511). -/
namespace Sys2Proof.Machine

/-- Privilege levels (R485). -/
inductive Priv where
  | user | supervisor | machine
  deriving DecidableEq, Repr

/-- PRIV codes (R485); 0b10 is reserved. -/
def Priv.code : Priv → Nat
  | .user => 0 | .supervisor => 1 | .machine => 3

/-- The privilege that a code names, if any. -/
def Priv.ofCode : Nat → Option Priv
  | 0 => some .user | 1 => some .supervisor | 3 => some .machine | _ => none

/-- The processor status (R485). -/
structure Psw where
  priv  : Priv := .machine
  exm   : Bool := true
  prec  : Bool := false
  lact0 : Bool := false
  lact1 : Bool := false
  esc   : Bool := false
  deriving DecidableEq, Repr

/-- A branch that has completed and whose delay slot comes next (R471). -/
structure SlotCtx where
  branch : Nat := 0
  target : Nat := 0
  taken  : Bool := false
  /-- The slot was entered by a return with DS, so the branch is not evaluated again (R506). -/
  resumed : Bool := false
  deriving DecidableEq, Repr

/-- The registers of a hardware loop level (R473). -/
structure LoopRegs where
  start : Nat := 0
  stop  : Nat := 0
  count : Nat := 0
  deriving DecidableEq, Repr

/-- MODk (R478). -/
structure ModReg where
  len   : Nat := 0
  nbits : Nat := 0
  deriving DecidableEq, Repr

/-- An MPU region (R507, R511). SPACE uses the codes of MPU_ATTR: 0 D-space, 1 I-space, 2 IO-space. -/
structure MpuRegion where
  base   : Nat := 0
  limit  : Nat := 0x1FF
  ren    : Bool := false
  space  : Nat := 0
  uperm  : Nat := 0
  sperm  : Nat := 0
  suboff : Nat := 0
  deriving DecidableEq, Repr

/-- The MPU_ block (R511). -/
structure Mpu where
  en      : Bool := false
  /-- The rules are in force: EN has been 1 for four cycles (R510). -/
  inForce : Bool := false
  /-- CYCLES at the write that set EN (R510). -/
  enAt    : Nat := 0
  sdef    : Bool := true
  valid   : Bool := false
  kind    : Nat := 0
  space   : Nat := 0
  priv    : Nat := 0
  region  : Nat := 0
  multi   : Bool := false
  faddr   : Nat := 0
  err     : Word := 0#32
  regions : Vector MpuRegion 16 := Vector.replicate 16 {}
  deriving DecidableEq, Repr

/-- A core: 0 is the supervisor, 1 + c comb controller c (R478). -/
structure Core where
  a       : Vector W48 16 := Vector.replicate 16 0#48
  d       : Vector W48 32 := Vector.replicate 32 0#48
  ac      : Vector Acc 4 := Vector.replicate 4 0#112
  pc      : Nat := 0
  psw     : Psw := {}
  slot    : Option SlotCtx := none
  /-- The PSW of a pending mode change: the next instruction is its shadow (R479). -/
  shadow  : Option Psw := none
  /-- The instruction before this boundary was a shadow, so no event is taken here (R492). -/
  afterShadow : Bool := false
  /-- The next fetch is of the target of a taken delayed branch (R515). -/
  landed  : Bool := false
  vbr     : Nat := 0
  esp     : W48 := 0#48
  pceil   : Nat := 3
  loop0   : LoopRegs := {}
  loop1   : LoopRegs := {}
  mods    : Vector ModReg 4 := Vector.replicate 4 {}
  cycles  : Nat := 0
  retired : Nat := 0
  lockup  : Bool := false
  waiting : Bool := false
  /-- EXT_STOP has halted the comb's U-level code (R330). -/
  extHalt : Bool := false
  /-- The address of the instruction whose imprecise arithmetic exception is pending, with its cause (R500). -/
  arith   : Option (Nat × Nat) := none
  err     : Word := 0#32
  secEvt  : Nat := 0
  irqEn   : Word := 0#32
  evEn    : Nat := 0
  eha     : Nat := 0
  escCnt  : Nat := 0
  lastVec : Nat := 0
  lastCause : Nat := 0
  mpu     : Mpu := {}
  /-- D-space, and the part of I-space that code flash does not back. -/
  dmem    : Sparse W48 := []
  imem    : Sparse W48 := []
  deriving DecidableEq, Repr

end Sys2Proof.Machine
end

