-- ==== Sys2Proof/Machine/StateHive.lean ====
section
/-! DEFINITION. The waggle tree, the hive sequencer and their registers (R98 to R124). -/
namespace Sys2Proof.Machine

/-- Hive sequencer states (R124), in the order of their codes. -/
inductive HiveSt where
  | idle | armed | capture | hash | sign | issue | stopped
  deriving DecidableEq, Repr

/-- STATE codes (R124). -/
def HiveSt.code : HiveSt → Nat
  | .idle => 0 | .armed => 1 | .capture => 2 | .hash => 3 | .sign => 4 | .issue => 5 | .stopped => 6

/-- Receipt kinds (R136). -/
inductive ReceiptKind where
  | periodic | final | demand | at_
  deriving DecidableEq, Repr

/-- Receipt kind codes (R136). -/
def ReceiptKind.code : ReceiptKind → Nat
  | .periodic => 1 | .final => 2 | .demand => 3 | .at_ => 4

/-- Operations of the waggle tree (R123), in the order in which pending ones issue (R101). -/
inductive WagOp where
  | snapshot | reset | barrier | broadcast
  deriving DecidableEq, Repr

/-- OP codes (R123). -/
def WagOp.code : WagOp → Nat
  | .barrier => 1 | .broadcast => 2 | .snapshot => 3 | .reset => 4

/-- The receipt being made: captured, then hashed, then signed (R110, R136). -/
structure Making where
  kind      : ReceiptKind := .periodic
  boundary  : Nat := 0
  snapSeq   : Nat := 0
  uncertain : Bool := false
  prev      : List Byte := zeros 64
  /-- The leaf records as captured, in lane order, and the root once it is computed. -/
  leaves    : List (List Byte) := []
  root      : List Byte := []
  attempts  : Nat := 0
  /-- Tiles tried, and the job in flight (R111). -/
  tried     : List Nat := []
  /-- HIVE_DEMAND commands that complete with this receipt: (port, slot). -/
  waiters   : List (Nat × Nat) := []
  deriving DecidableEq, Repr

/-- A comb controller's endpoint registers (R123). -/
structure WagEp where
  waiting  : Bool := false
  released : Bool := false
  timedOut : Bool := false
  bcast    : Bool := false
  barId    : Nat := 0
  word     : W48 := 0#48
  snapSeq  : Nat := 0
  deriving DecidableEq, Repr

/-- What a snapshot is taken for: software, or a receipt of a kind (R101, R102). -/
inductive SnapFor where
  | software | periodic | demand | at_
  deriving DecidableEq, Repr

/-- An operation in flight (R99). -/
structure Flight where
  op      : WagOp
  /-- When it reaches the endpoints and when its acknowledgement is due at the root, ns. -/
  edgeAt  : Nat
  dueAt   : Nat
  why     : SnapFor := .software
  /-- The endpoints that take part, and the word of a broadcast. -/
  eps     : List Nat := []
  word    : W48 := 0#48
  /-- The armed time of a scheduled snapshot (R120). -/
  at_     : Nat := 0
  /-- It has acted at the endpoints; the sequence number of a snapshot that has. -/
  acted   : Bool := false
  seq     : Nat := 0
  deriving DecidableEq, Repr

/-- The WAG_ block (R123) and the tree's state. -/
structure Wag where
  /-- Operations in flight, the oldest first: an operation lasts longer than the spacing of two issues. -/
  flights  : List Flight := []
  /-- When the last operation issued, ns (R101). -/
  lastIssue : Option Nat := none
  pending  : List WagOp := []
  /-- The pending snapshot is one that software asked for (R101). -/
  soft     : Bool := false
  /-- A capture edge has come: the lanes' latches hold what stood before it (R106). -/
  latched  : Bool := false
  /-- Identifier of the barrier that is pending. -/
  barNext  : Nat := 0
  lastOp   : Nat := 0
  done     : Bool := false
  barTimeoutF : Bool := false
  noAck    : Bool := false
  resetPartial : Bool := false
  busyRefused  : Bool := false
  privRefused  : Bool := false
  opInvalid    : Bool := false
  mask0    : Word := 0xFFFFFFFF#32
  mask1    : Word := 0xFFFFFFFF#32
  mask2    : Word := 0xFFFF#32
  bcast    : W48 := 0#48
  barTimeout : Nat := 10000
  noAckEp  : Nat := 0
  noAckValid : Bool := false
  refused0 : Word := 0#32
  refused1 : Word := 0#32
  refused2 : Word := 0#32
  /-- The barrier under way: identifier and mask of comb controllers still awaited. -/
  barrier  : Option (Nat × List Nat) := none
  /-- When the release reaches the combs, and when WAG_BAR_TIMEOUT runs out. -/
  releaseAt : Option Nat := none
  barAt    : Option Nat := none
  /-- Arrivals held for a later barrier: (identifier, comb) (R103). -/
  heldArrivals : List (Nat × Nat) := []
  deriving DecidableEq, Repr

/-- The HIVE_ block (R123) and the sequencer's state. -/
structure Hive where
  st         : HiveSt := .idle
  en         : Bool := false
  compare    : Bool := true
  attempts   : Nat := 3
  atArmed    : Bool := false
  atTime     : Nat := 0
  unsigned   : Bool := false
  /-- MODE and POWER wait for the next periodic receipt; DROP since the last signed one (R112). -/
  gapMode    : Bool := false
  gapPower   : Bool := false
  gapDrop    : Bool := false
  period     : Nat := 100
  periodNext : Nat := 100
  periodAt   : Option Nat := none
  epoch      : Nat := 1000
  epochNext  : Nat := 1000
  epochAt    : Option Nat := none
  /-- The last boundaries taken, B_k of each series. -/
  lastBoundary : Nat := 0
  lastEpoch    : Nat := 0
  snapSeq    : Nat := 0
  /-- Until when the shadows of the last snapshot are unread, ns (R107). -/
  readAt     : Nat := 0
  drops      : Nat := 0
  lastSigned : Nat := 0
  linkMax    : Nat := 200
  err        : Word := 0#32
  linkLate0  : Word := 0#32
  linkLate1  : Word := 0#32
  root       : List Byte := zeros 64
  rootBound  : Nat := 0
  deriving DecidableEq, Repr

/-- Receipts in making and the last ones issued (R112, R136, R308). -/
structure Receipts where
  /-- An on-demand snapshot waits for its slot, with the commands that wait for it (R102, R115). -/
  demand    : Bool := false
  demandFor : List (Nat × Nat) := []
  /-- When that request came, ns: a reserved slot serves what was pending as it arrived (R102). -/
  demandAt  : Nat := 0
  /-- The commands whose on-demand snapshot has issued and is not captured yet. -/
  taken     : List (Nat × Nat) := []
  making    : Option Making := none
  /-- A receipt whose deadline is this edge while a tile signs it, and such epoch signatures: lane, boundary and what is signed. They are
  dropped once the edge is over (R111, R119). -/
  lapsed     : Option Making := none
  lapsedSigs : List (Nat × Nat × List Byte) := []
  /-- Captured while another receipt is in making, the oldest first. -/
  queued    : List Making := []
  lastPeriodic : List Byte := []
  lastPeriodicProofs : List (List Byte) := []
  lastAny   : List Byte := []
  lastAnyProofs : List (List Byte) := []
  /-- record_digest of the last receipt issued, of any kind (R136). -/
  lastDigest : List Byte := zeros 64
  deriving DecidableEq, Repr

end Sys2Proof.Machine
end

