-- ==== Sys2Proof/Machine/StateKeys.lean ====
section
/-! DEFINITION. The key store's and the public-key tiles' state (R338 to R385). -/
namespace Sys2Proof.Machine

/-- A key slot (R358, R359). -/
structure KeySlot where
  /-- The attribute word; ALG 0 is an empty slot. -/
  attr      : Nat := 0
  key       : List Byte := []
  /-- The binding tag of R369. -/
  tag       : List Byte := []
  /-- The public part of a key pair. -/
  pub       : List Byte := []
  statement : List Byte := []
  /-- Custody time, power cycle and M_S at generation (R380). -/
  created   : Nat := 0
  pcyc      : Nat := 0
  meas      : List Byte := []
  /-- OPEN_DST has marked the empty slot for the next tile result with these attributes (R381). -/
  openFor   : Option Nat := none
  deriving DecidableEq, Repr

/-- The key digest of a slot (R380). -/
def KeySlot.digest (k : KeySlot) : List Byte :=
  if k.pub.isEmpty then shake (ascii "QKID" ++ k.key) 64 else shake k.pub 64

/-- Bytes of a key statement whose public part has `n` bytes, and the statement without its signature and the bytes that lead it in
(R380). -/
def statementSize (n : Nat) : Nat := ceilDiv (0xF8 + n) 8 * 8 + 8 + 1280
def KeySlot.statementBody (k : KeySlot) (n : Nat) (idDigest : List Byte) : List Byte :=
  padTo 8 (ascii "QKST" ++ [1#8, 0#8] ++ le 2 3 ++ le 4 (statementSize k.pub.length) ++ le 2 n ++ zeros 2 ++ le 8 k.attr ++ le 8 k.created
    ++ le 4 k.pcyc ++ zeros 4 ++ fitBytes 64 idDigest ++ k.digest ++ fitBytes 64 k.meas ++ zeros 8
    ++ le 2 k.pub.length ++ zeros 6 ++ k.pub)

/-- A key statement with its signature (R380). -/
def signedStatement (body sig : List Byte) : List Byte := body ++ le 2 1280 ++ zeros 6 ++ fitBytes 1280 sig

/-- A trust entry (R376, R377). -/
structure Trust where
  purpose : Nat := 0
  role    : Nat := 0
  alg     : Nat := 0
  key     : List Byte := []
  deriving DecidableEq, Repr

/-- A key log record (R363): the slot or trust entry it puts or clears, or the certificate. -/
structure KeyRec where
  seq     : Nat := 0
  kind    : Nat := 7
  sel     : Nat := 0
  index   : Nat := 0
  counter : Nat := 0
  g       : Nat := 0
  slot    : KeySlot := {}
  trust   : Trust := {}
  body    : List Byte := []
  /-- The mark of a life-cycle transition carried by a kind-7 record: the state entered (R442). -/
  mark    : Option Nat := none
  deriving DecidableEq, Repr

/-- What completes when a pending key log record counts as written (R379). -/
inductive KeyDone where
  | op (who : Nat)
  | deliver (port slot : Nat)
  | transition
  | internal
  deriving DecidableEq, Repr

/-- A key log record being programmed (R364). -/
structure KeyPending where
  rec_ : KeyRec := {}
  done : KeyDone := .internal
  fails : Nat := 0
  /-- The response of a KEY_DELIVER, and what it writes to the session buffer: offset and bytes (R319). -/
  resp  : List Byte := []
  outOff : Nat := 0
  outData : List Byte := []
  /-- The change of a slot with PERSIST = 0, which takes effect with the record (R379). -/
  ram : Option (Nat × KeySlot) := none
  deriving DecidableEq, Repr

/-- One set of key store operation registers: the supervisor's or a comb controller's (R381, R385). -/
structure KeyOpRegs where
  dst    : Nat := 0x7FF
  src    : Nat := 0x7FF
  attrLo : Word := 0#32
  attrHi : Word := 0#32
  addr   : Nat := 0
  len    : Nat := 0
  laneReg : Nat := 0
  busy   : Bool := false
  done   : Bool := false
  status : Nat := 0
  deriving DecidableEq, Repr

/-- The running firmware and extensions (R366 to R368). -/
structure Measure where
  mS       : List Byte := zeros 64
  fwSigner : List Byte := zeros 64
  fwRun    : Nat := 0
  fwMin    : Nat := 0
  /-- Per comb: extension manifest (empty: none loaded), state (R330) and stored security minimum. -/
  ext      : Vector (List Byte) 8 := Vector.replicate 8 []
  extState : Vector Nat 8 := Vector.replicate 8 0
  extMin   : Vector Nat 8 := Vector.replicate 8 0
  deriving DecidableEq, Repr

/-- An encapsulation for a KEK (R132, R375): its key epoch, kek_id, the authority's key digest and the ciphertext. Its shared secret
stands in slot 67 until the KEK is derived. -/
structure Kek where
  epoch : Nat := 0
  id    : List Byte := []
  auth  : List Byte := []
  encap : List Byte := []
  deriving DecidableEq, Repr

/-- The key store (R358 to R385). -/
structure Keys where
  slots    : Sparse KeySlot := []
  trust    : Vector Trust 16 := Vector.replicate 16 {}
  cert     : List Byte := []
  counter  : Nat := 0
  /-- The HUK drawn at entry to PROVISION; none is that of final test (R361). -/
  huk      : Option (List Byte) := none
  hukDead  : Bool := false
  /-- Image generation g, and its pending increments in the always-on domain (R362, R416). -/
  g        : Nat := 0
  gPending : Nat := 0
  identityPub : List Byte := []
  idDigest : List Byte := zeros 64
  /-- The key log, newest record first (R363), and the records being programmed. -/
  log      : List KeyRec := []
  nextRec  : Nat := 0
  /-- The active half of parameter sectors 0 to 15 of code flash bank 1 (R363, R364). -/
  half     : Nat := 0
  pending  : List KeyPending := []
  ready    : Bool := false
  err      : Word := 0#32
  stale    : Nat := 0
  fresh    : Nat := 600
  /-- Supervisor, then comb controllers 0 to 7. -/
  ops      : Vector KeyOpRegs 9 := Vector.replicate 9 {}
  meas     : Measure := {}
  /-- KEY_EPOCH, seconds; the key epoch in force; KEK epochs of slots 65 and 66 with their kek_id. -/
  epochS   : Nat := 3600
  epoch    : Nat := 0
  kekEpoch : Nat := 0
  kekId    : List Byte := []
  prevEpoch : Nat := 0
  prevId   : List Byte := []
  encap    : List Byte := []
  prevEncap : List Byte := []
  /-- The authority's key digests that go with the KEKs of slots 65 and 66. -/
  kekAuth  : List Byte := []
  prevAuth : List Byte := []
  /-- The KEK of the next epoch, prepared ahead (R375). -/
  nextKek  : Option Kek := none
  /-- When slot 66 is cleared at the earliest, custody time (R375). -/
  clear66  : Option Nat := none
  deriving DecidableEq, Repr

/-- Tile states (R357), in the order of their codes. -/
inductive TileSt where
  | off | idle | run | park | clear | fault
  deriving DecidableEq, Repr

/-- STATE codes (R357). -/
def TileSt.code : TileSt → Nat
  | .off => 0 | .idle => 1 | .run => 2 | .park => 3 | .clear => 4 | .fault => 5

/-- What a tile job is for (R340, R353): software's own, a hive receipt, a close record, or a job that
Sharnolos submits for the device's own use. -/
inductive JobFor where
  | software
  | receipt
  | closeRec (which : Nat)
  | epochSig (lane : Nat)
  deriving DecidableEq, Repr

/-- A tile job (R341): submitter 0 is supervisor software, 1 to 8 the comb controllers, 9 the hive sequencer,
10 the close sequencer. -/
structure Job where
  sub     : Nat := 0
  op      : Nat := 0
  compare : Bool := false
  irq     : Bool := false
  cls     : Nat := 2
  param   : Nat := 0
  tag     : Nat := 0
  key     : Nat := 0x7FF
  dst     : Nat := 0x7FF
  inAddr  : Nat := 0
  inLen   : Nat := 0
  auxAddr : Nat := 0
  auxLen  : Nat := 0
  outAddr : Nat := 0
  outLen  : Nat := 0
  what    : JobFor := .software
  /-- The input of a job the sequencers submit, and the operands as fetched. -/
  input   : List Byte := []
  aux     : List Byte := []
  secret  : List Byte := []
  /-- Tiles that have run an attempt for the same record (R346). -/
  tried   : List Nat := []
  /-- Start on the tile and time run before parks, ns. -/
  start   : Nat := 0
  ran     : Nat := 0
  /-- Fixed as it started: compare mode, the bytes drawn for it, its scratch key, and the slot of its key (R351 to R353, R374). -/
  cmp     : Bool := false
  drawn   : List Byte := []
  scratch : List Byte := []
  slot    : KeySlot := {}
  /-- Abandonment is pending: its cause (R345, R348); and when it came, ns, where a completion on that edge stands. -/
  abandon : Option Nat := none
  abandonAt : Option Nat := none
  deriving DecidableEq, Repr

/-- A tile (R345 to R357). -/
structure Tile where
  st      : TileSt := .idle
  running : Option Job := none
  /-- Parked jobs, the most recently parked first. -/
  parked  : List Job := []
  /-- When the clear of an ended job's scratch is over, ns. -/
  clearAt : Nat := 0
  deriving DecidableEq, Repr

/-- A submitter's queue registers (R344, R356). -/
structure TileQueue where
  en     : Bool := false
  size   : Nat := 4
  sqBase : Nat := 0
  cqBase : Nat := 0
  sqTail : Nat := 0
  sqHead : Nat := 0
  cqHead : Nat := 0
  cqTail : Nat := 0
  irq    : Bool := false
  /-- Indices of descriptors not taken yet whose jobs are abandoned (R348). -/
  aborted : List Nat := []
  deriving DecidableEq, Repr

/-- The PK_ block and the dispatcher (R340 to R357). -/
structure Tiles where
  tiles      : Vector Tile 8 := Vector.replicate 8 {}
  queues     : Vector TileQueue 9 := Vector.replicate 9 {}
  /-- Waiting jobs, oldest first. -/
  waiting    : List Job := []
  /-- The submitter served last in each of classes 0 to 3 (R346). -/
  served     : Vector Nat 4 := Vector.replicate 4 10
  compareDef : Bool := true
  tileEn     : Nat := 0xFF
  err        : Word := 0#32
  mismatch   : Nat := 0
  jobs       : Nat := 0
  deriving DecidableEq, Repr

end Sys2Proof.Machine
end

