-- ==== Sys2Proof/Machine/StateLife.lean ====
section
/-! DEFINITION. Life cycle, debug port, code flash, settings and field link state (R332 to R336, R438 to R457,
R512 to R565). -/
namespace Sys2Proof.Machine

/-- Life-cycle states (R438), in the order of their codes. -/
inductive LcSt where
  | blank | provision | fleet | service | tampered | retired
  deriving DecidableEq, Repr

/-- State codes (R324). -/
def LcSt.code : LcSt → Nat
  | .blank => 0 | .provision => 1 | .fleet => 2 | .service => 3 | .tampered => 4 | .retired => 5

/-- Debug levels (R445), in the order of their codes. -/
inductive DbgLevel where
  | closed | limited | full
  deriving DecidableEq, Repr

/-- LEVEL codes (R457). -/
def DbgLevel.code : DbgLevel → Nat
  | .closed => 0 | .limited => 1 | .full => 2

/-- A transition under way (R442): its target, source, who asked, and whether the mark is written. -/
structure LcGoing where
  target : LcSt
  source : Nat
  slot   : Nat := 0
  marked : Bool := false
  deriving DecidableEq, Repr

/-- The LC_ block (R457). -/
structure Life where
  st       : LcSt := .provision
  /-- OTP entries programmed so far, entry 0 first (R438). -/
  entries  : List Nat := [0x1E]
  /-- A DESTROY's entry is still to be programmed (R444). -/
  pendingTampered : Bool := false
  going    : Option LcGoing := none
  lastFrom : Nat := 0
  lastTo   : Nat := 0
  lastSource : Nat := 0
  lastTime : Nat := 0
  /-- Receipts issued up to here are from before the last entry to FLEET, by power cycle and snapshot number (R308). -/
  fleetFrom : Nat := 0
  err      : Word := 0#32
  /-- Blocks still to erase in RETIRED, counted down (R455). -/
  eraseLeft : Nat := 0
  deriving DecidableEq, Repr

/-- The DBG_ block and the TAP (R445 to R457, R591). -/
structure Debug where
  level     : DbgLevel := .closed
  /-- The outstanding challenge: level, bytes, expiry in custody time. -/
  chal      : Option (Nat × List Byte × Nat) := none
  lockedHit : Bool := false
  hitSpace  : Nat := 0
  hitValid  : Bool := false
  hitAddr   : Nat := 0
  /-- End of the unlock window, custody time of the running clock (R450). -/
  until_    : Option Nat := none
  chalTime  : Nat := 60
  /-- Cores the debug port holds halted: bit 0 the supervisor, bit 1 + c comb c. -/
  halted    : Nat := 0
  /-- Halted cores that DBG_CORE.STEP lets execute one instruction. -/
  step      : Nat := 0
  /-- The TAP instruction in force, and what PRELOAD put into the boundary cells, as a number (R591). -/
  tapIr     : Nat := 0x02
  boundary  : Nat := 0
  deriving DecidableEq, Repr

/-- Code flash bank states (R537), in the order of their codes. -/
inductive BankSt where
  | idle | program | erase | suspended | eraseFinal
  deriving DecidableEq, Repr

/-- Bank state codes (R537). -/
def BankSt.code : BankSt → Nat
  | .idle => 0 | .program => 1 | .erase => 2 | .suspended => 3 | .eraseFinal => 4

/-- Work of a bank: a program or an erase of a descriptor, first word offset, rows (R524). A tag of 65,536 and above is
Sharnolos's own; `done` counts rows, and marks an erase that has stalled a read (R526). -/
structure CflJob where
  op     : Nat := 0
  tag    : Nat := 0
  irq    : Bool := false
  bank   : Nat := 0
  offset : Nat := 0
  count  : Nat := 0
  data   : List W48 := []
  done   : Nat := 0
  level  : Nat := 0
  deriving DecidableEq, Repr

/-- A code flash bank (R524 to R528, R537). -/
structure Bank where
  st     : BankSt := .idle
  susp   : Nat := 0
  /-- When the 2 µs quiet time ends, ns (R526). -/
  quietAt : Option Nat := none
  job    : Option CflJob := none
  queue  : List CflJob := []
  /-- ACT_SEQ of a valid activation row (R517). -/
  act    : Option Nat := none
  /-- Production put an image there, and the first words of sectors erased since. -/
  factory : Bool := false
  erased  : List Nat := []
  /-- First words of rows that failed or were aborted, and of sectors whose erase was aborted: they read as neither
  erased nor valid (R523, R528). -/
  bad    : List Nat := []
  torn   : List Nat := []
  deriving DecidableEq, Repr

/-- The CFL_ block (R536). -/
structure CodeFlash where
  en       : Bool := false
  runBank  : Nat := 0
  fallback : Bool := false
  romOff   : Bool := false
  pfEn     : Bool := true
  bcEn     : Bool := true
  sqBase   : Nat := 0
  sizeLog2 : Nat := 4
  sqTail   : Nat := 0
  sqHead   : Nat := 0
  cqBase   : Nat := 0
  cqHead   : Nat := 0
  cqTail   : Nat := 0
  err      : Word := 0#32
  stalls   : Nat := 0
  /-- Read-out protection in OTP (R529). -/
  locked   : Bool := false
  seals    : Nat := 0
  wipes    : Nat := 0
  irq      : Bool := false
  bank0    : Bank := { act := some 1, factory := true }
  bank1    : Bank := {}
  /-- Words of both banks by bank × 2^21 + offset; erased words read all ones. -/
  mem      : Sparse W48 := []
  /-- Lines in the prefetch buffer and targets in the branch cache (R515, R516). -/
  prefetch : List Nat := []
  branches : List Nat := []
  deriving DecidableEq, Repr

/-- The settings shadow (R332). -/
structure SetShadow where
  port : Nat := 0
  slot : Nat := 0
  vals : Sparse (List Byte) := []
  deriving DecidableEq, Repr

/-- The persistent settings (R332 to R336, R532 to R534). -/
structure Settings where
  /-- Values by id, where they differ from the defaults. -/
  vals       : Sparse (List Byte) := []
  generation : Nat := 0
  defaulted  : Bool := true
  shadow     : Option SetShadow := none
  /-- The values that a SET_COMMIT under way is programming (R335). -/
  committing : Option (Sparse (List Byte)) := none
  deriving DecidableEq, Repr

/-- Tag states (R548), in the order of their codes. -/
inductive TagSt where
  | off | ready | arbitrate | quiet | selected | auth | open_
  deriving DecidableEq, Repr

/-- TSTATE codes (R548). -/
def TagSt.code : TagSt → Nat
  | .off => 0 | .ready => 1 | .arbitrate => 2 | .quiet => 3 | .selected => 4 | .auth => 5 | .open_ => 6

/-- A bank of the inspection page with its commit word (R557). -/
structure PageBank where
  page  : List Byte := []
  /-- commit_seq of a valid commit word. -/
  seq   : Option Nat := none
  deriving DecidableEq, Repr

/-- A field key entry (R551). -/
structure FieldKey where
  key   : List Byte := []
  keyId : Nat := 0xFF
  valid : Bool := false
  deriving DecidableEq, Repr

/-- Field-page memory (R556). -/
structure FieldMem where
  bank0   : PageBank := {}
  bank1   : PageBank := {}
  pool    : List (List Byte) := []
  /-- Consumed entries of the pool, bit i for entry i, as a count: entries are taken in order. -/
  used    : Nat := 64
  poolGen : Nat := 0
  key0    : FieldKey := {}
  key1    : FieldKey := {}
  lcCopy  : Nat := 1
  pendingTampered : Bool := false
  authCtr : Nat := 0
  sessions : Nat := 0
  failed  : Nat := 0
  fallbacks : Nat := 0
  deriving DecidableEq, Repr

/-- The session of the tag (R548 to R554). -/
structure FieldSession where
  selectAt : Nat := 0
  blocks   : Nat := 0
  keyId    : Nat := 0
  bank     : Nat := 0
  mr       : List Byte := []
  kEnc     : List Byte := []
  kMac     : List Byte := []
  commitSeq : Nat := 0
  /-- Inactivity and authentication windows, ns (R548, R552). -/
  idleAt   : Nat := 0
  authAt   : Option Nat := none
  deriving DecidableEq, Repr

/-- What a waiting field-page write or commit is for (R328, R557, R558). -/
inductive FieldWork where
  | regPage | regPool | command (port slot : Nat) | close | standbyPool
  deriving DecidableEq, Repr

/-- A page write or commit that waits for a session to end (R558). -/
structure FieldWait where
  work   : FieldWork
  page   : List Byte := []
  until_ : Option Nat := none
  /-- The pool entries of a pool write. -/
  pool   : List (List Byte) := []
  deriving DecidableEq, Repr

/-- A reader-mode operation (R329, R550, R561). -/
structure ReaderOp where
  port  : Nat := 0
  slot  : Nat := 0
  maxTags : Nat := 0
  until_ : Nat := 0
  /-- Prefixes still to walk, the next first, as bits in the order sent; the first one is being walked. -/
  stack : List (List Bool) := []
  found : List Nat := []
  /-- The command switched reader mode on, and it ends with it. -/
  own : Bool := false
  reshuffled : List (Nat × Nat) := []
  /-- End of the reply window of the command just sent (R541). -/
  replyAt : Option Nat := none
  deriving DecidableEq, Repr

/-- The FLD_ block (R565) and the tag. -/
structure FieldLink where
  tagEn    : Bool := true
  readerEn : Bool := false
  tag      : TagSt := .off
  /-- The identifier held, and whether it is a fallback one (R544, R546). -/
  ident    : List Byte := []
  fallback : Bool := false
  fromPool : Bool := false
  err      : Word := 0#32
  wrAddr   : Nat := 0
  wrDone   : Bool := false
  wrStatus : Nat := 0
  waits    : List FieldWait := []
  keySlot  : Nat := 0x7FF
  keyId    : Nat := 0
  keyEntry : Nat := 0
  sessions : Nat := 0
  authFails : Nat := 0
  fallbackCount : Nat := 0
  reshuffles : Nat := 0
  ch       : Nat := 212
  rssi     : Nat := 0
  /-- Consecutive failed proofs in this activation, and the end of the 10 s lockout (R553). -/
  fails    : Nat := 0
  lockAt   : Option Nat := none
  sess     : Option FieldSession := none
  lastEnd  : Nat := 0
  lastCommit : Nat := 0
  reader   : Option ReaderOp := none
  mem      : FieldMem := {}
  deriving DecidableEq, Repr

end Sys2Proof.Machine
end

