-- ==== Sys2Proof/Machine/StatePower.lean ====
section
/-! DEFINITION. The power controller's state: the modes, the start-up sequence, the custody close and its
records, the supplies and GPIO lines, and the PWR_ block (R217 to R246, R574 to R590). -/
namespace Sys2Proof.Machine

/-- The part (R1, R2): lanes, combs, store size and waggle tree differ. -/
inductive Variant where
  | vtz8064 | vtz8032
  deriving DecidableEq, Repr

/-- Modes (R217), in the order of their codes. -/
inductive Mode where
  | vault | field | standby | idle | record | ingest | close | test
  deriving DecidableEq, Repr

/-- Mode codes (R217). -/
def Mode.code : Mode → Nat
  | .vault => 0 | .field => 1 | .standby => 2 | .idle => 3
  | .record => 4 | .ingest => 5 | .close => 6 | .test => 7

/-- START_STEP (R227), in the order of its codes. -/
inductive StartStep where
  | reset | clocks | rom | firmware | scan | reconcile | done | recovery
  deriving DecidableEq, Repr

/-- START_STEP codes (R246). -/
def StartStep.code : StartStep → Nat
  | .reset => 0 | .clocks => 1 | .rom => 2 | .firmware => 3
  | .scan => 4 | .reconcile => 5 | .done => 6 | .recovery => 7

/-- PWR_CLOSE.STEP (R246), in the order of its codes. -/
inductive CloseStep where
  | none | stop | opening | seal | reserve | records | field | done
  deriving DecidableEq, Repr

/-- STEP codes (R246). -/
def CloseStep.code : CloseStep → Nat
  | .none => 0 | .stop => 1 | .opening => 2 | .seal => 3
  | .reserve => 4 | .records => 5 | .field => 6 | .done => 7

/-- CLOSE_CAUSE (R246), in the order of its codes. -/
inductive CloseCause where
  | none | pfail | tamper | shutdown | supervisor
  deriving DecidableEq, Repr

/-- CLOSE_CAUSE codes (R246). -/
def CloseCause.code : CloseCause → Nat
  | .none => 0 | .pfail => 1 | .tamper => 2 | .shutdown => 3 | .supervisor => 4

/-- What the device does after the close record (R238); the later constructors keep it stopped. -/
inductive AfterClose where
  | restartNow | onPfail | onWake | stopped
  deriving DecidableEq, Repr

/-- Supplies, the always-on domain's supply and the GPIO lines (R574 to R577, R590). -/
structure Supply where
  pgood     : Bool := false
  vbat      : Bool := true
  vddIo     : Bool := true
  field     : Bool := false
  /-- The fast clocks run (R217). -/
  clocks    : Bool := false
  mainEn    : Bool := true
  /-- GPIO levels as last recognised, bit n for line n (R590). -/
  gpio      : Word := 0#32
  /-- The strap that makes P4 an I²C port. -/
  i2c       : Bool := false
  deriving DecidableEq, Repr

/-- The PWR_ block and the sequencers' own state (R217 to R246). -/
structure Power where
  mode       : Mode := .vault
  startStep  : StartStep := .reset
  /-- End of the 100 µs reset hold, ns (R245). -/
  holdAt     : Option Nat := none
  /-- The mode a started transition goes to (R221); BUSY while present. -/
  target     : Option Mode := none
  req        : Nat := 3
  pfail      : Bool := false
  closeDone  : Bool := false
  safeOff    : Bool := false
  closeCause : CloseCause := .none
  lastStatus : Nat := 0
  wakeEn     : Word := 0x37#32
  wakeGpio   : Word := 0#32
  wakePol    : Word := 0#32
  wakeSrc    : Word := 0#32
  asserts    : Nat := 0
  quiet      : Nat := 0
  pfailTime  : Nat := 0
  closeStep  : CloseStep := .none
  lastDuration : Nat := 0
  lastCause  : CloseCause := .none
  lastValid  : Bool := false
  /-- Stop edge, lost units and record digest of the last close whose record is at hand (R555). -/
  lastStop   : Nat := 0
  lastLost   : Nat := 0
  lastDigest : List Byte := []
  err        : Word := 0#32
  /-- PFAIL_AT_START has been logged at this start-up (R227). -/
  pfailLogged : Bool := false
  bootDone   : Bool := false
  /-- The always-on latch of a fall in RECORD or INGEST without PFAIL_N (R239). -/
  noPfail    : Bool := false
  /-- The always-on latch of a fall in CLOSE before its close record (R49). -/
  closeCut   : Bool := false
  /-- Streams opened since the last main power-up (R12). -/
  opens      : Nat := 0
  /-- A wake has asked for main power (R226, R246); the STANDBY being entered is an orderly shutdown's (R222). -/
  wakeAsked  : Bool := false
  shutdown   : Bool := false
  /-- The wake edge, ns (R224); the end of the CLOCKS step (R227). -/
  wakeAt     : Option Nat := none
  clocksAt   : Nat := 0
  deriving DecidableEq, Repr

/-- A trigger edge during CLOSE, recorded in the close record (R33, R142). -/
structure CloseTrigger where
  line : Nat
  time : Nat
  deriving DecidableEq, Repr

/-- The custody close in progress (R231 to R238): what has been formed, signed and programmed. -/
structure CloseSeq where
  /-- The stop edge, ns of the fast clock and in custody time; PFAIL_N assertion, where that is the cause. -/
  stopAt      : Nat := 0
  pfailAt     : Option Nat := none
  stopTime    : Nat := 0
  after       : AfterClose := .onPfail
  /-- Flush pages that were not programmed in time are cut (R213). -/
  flushLate   : Bool := false
  openingForm : Bool := false
  openingDone : Bool := false
  cutoff      : Bool := false
  /-- The record being signed: 1 FINAL receipt, 2 loss report, 3 close record; 4 once all are formed. -/
  stage       : Nat := 0
  attempts    : Nat := 0
  recordDone  : Bool := false
  late        : Bool := false
  /-- The 64-byte digests of the opening record, the FINAL receipt and the loss report, and of the last receipt issued
  before the close (R143). -/
  openingDigest : List Byte := []
  finalDigest   : List Byte := []
  lossDigest    : List Byte := []
  priorDigest   : List Byte := zeros 64
  /-- Boundary, snapshot number, root and leaves of the FINAL receipt. -/
  finalAt     : Nat := 0
  finalSeq    : Nat := 0
  finalRoot   : List Byte := []
  finalUncertain : Bool := false
  leaves      : List (List Byte) := []
  /-- DESTROY has made the rest of the close unsigned and chained (R43). -/
  unsigned    : Bool := false
  triggers    : List CloseTrigger := []
  overflow    : Nat := 0
  /-- Verify jobs abandoned (R40), and token entries of units whose ACCEPT was not posted (R18, R142). -/
  nVerify     : Nat := 0
  tokens      : List (List Byte) := []
  nLost       : Nat := 0
  /-- End of the 10 ms restart wait, ns (R238). -/
  restartAt   : Option Nat := none
  deriving DecidableEq, Repr

end Sys2Proof.Machine
end

