-- ==== Sys2Proof/Machine/StateRng.lean ====
section
/-! DEFINITION. The random bit generator's and the tamper monitors' state (R386 to R423). -/
namespace Sys2Proof.Machine

/-- Noise source states (R387), in the order of their codes. -/
inductive SrcSt where
  | off | start | ok | failed
  deriving DecidableEq, Repr

/-- Source state codes (R387). -/
def SrcSt.code : SrcSt → Nat
  | .off => 0 | .start => 1 | .ok => 2 | .failed => 3

/-- Instance states (R400), in the order of their codes. -/
inductive InstSt where
  | uninst | ready | wait | failed
  deriving DecidableEq, Repr

/-- Instance state codes (R400). -/
def InstSt.code : InstSt → Nat
  | .uninst => 0 | .ready => 1 | .wait => 2 | .failed => 3

/-- What an instance waits for the pool to do. -/
inductive PoolNeed where
  | instantiate | reseed
  deriving DecidableEq, Repr

/-- A DRBG instance and its registers (R391, R400). -/
structure Instance where
  st      : InstSt := .uninst
  /-- The working state is present; its value stands behind the draws and is not modelled. -/
  seeded  : Bool := false
  reqs    : Nat := 0
  reseeds : Nat := 0
  persLen : Nat := 0
  pers    : Vector Word 8 := Vector.replicate 8 0#32
  /-- It reseeds on its first draw after a wake (R397). -/
  stale   : Bool := false
  need    : Option PoolNeed := none
  deriving DecidableEq, Repr

/-- A host RNG_READ that waits for its steps (R395): port, slot, count asked and bytes filled so far, window end. -/
structure HostFill where
  port   : Nat := 0
  slot   : Nat := 0
  count  : Nat := 0
  data   : List Byte := []
  until_ : Nat := 0
  deriving DecidableEq, Repr

/-- The RNG_ block (R400). -/
structure Rng where
  preferB  : Bool := false
  ready    : Bool := false
  activeB  : Bool := false
  stA      : SrcSt := .off
  stB      : SrcSt := .off
  failsA   : Nat := 0
  failsB   : Nat := 0
  stopped  : Bool := false
  /-- The conditioner's known-answer test has failed and not yet passed again (R393). -/
  condFail : Bool := false
  pool     : Nat := 0
  cpool    : Nat := 0
  err      : Word := 0#32
  rctCut   : Nat := 41
  aptCut   : Nat := 795
  blocks   : Nat := 0
  /-- Bytes gathered since a source passed its start-up test (R397). -/
  gathered : Nat := 0
  reseedInt : Nat := 1024
  partialCount : Nat := 0
  insts    : Vector Instance 9 := Vector.replicate 9 {}
  fills    : List HostFill := []
  deriving DecidableEq, Repr

/-- Configuration of an alarm class (R404, R423). -/
structure ClassCfg where
  resp  : Nat := 0
  n     : Nat := 1
  wVal  : Nat := 1
  wUnit : Nat := 1
  deriving DecidableEq, Repr

/-- Defaults of the classes, in the order of their codes (R404). -/
def classDefaults : Vector ClassCfg 11 :=
  #v[{ resp := 1, n := 4 }, { resp := 3 }, { resp := 3, n := 2, wUnit := 2 }, { resp := 4, n := 2 }, { resp := 5 },
    { resp := 3, wVal := 10 }, { resp := 5 }, { resp := 1, wUnit := 2 }, { resp := 3, n := 2, wUnit := 2 },
    { resp := 3, wUnit := 2 }, { resp := 3, n := 8, wVal := 10, wUnit := 2 }]

/-- The configuration record of the tamper monitors: classes, enclosure and temperature limits (R420). -/
structure TmpCfg where
  cls   : Vector ClassCfg 11 := classDefaults
  inEn  : Nat := 0
  inPol : Nat := 0
  loopEn : Nat := 0
  encDeb : Nat := 10
  tLo   : Nat := 0xCE
  tHi   : Nat := 0x7D
  deriving DecidableEq, Repr

/-- A detector firing that waits for its partner (R402): class, detector (1 A, 2 B), site, when the window ends, and
whether it was injected. -/
structure Corrob where
  cls  : Nat
  det  : Nat
  site : Nat
  until_ : Nat
  inj  : Bool := false
  deriving DecidableEq, Repr

/-- The tamper monitors (R401 to R423). -/
structure Tamper where
  cfg      : TmpCfg := {}
  slots    : List TmpCfg := []
  cfgDefault : Bool := true
  committed : Bool := false
  fleetRaised : Bool := false
  /-- Times of the events in each class's window, ns, newest first (R403). -/
  events   : Vector (List Nat) 11 := Vector.replicate 11 []
  total    : Vector Nat 11 := Vector.replicate 11 0
  corrob   : List Corrob := []
  lastResp : Nat := 0
  anyAlarm : Bool := false
  err      : Word := 0#32
  irq      : Bool := false
  /-- ENC_IN levels accepted, and debounces running: (input, level, until). -/
  encLevel : Nat := 0
  encDebounce : List (Nat × Bool × Nat) := []
  /-- OTP: the count of programmed bits of each copy of the evidence counter (R419). -/
  tec1     : Nat := 0
  tec2     : Nat := 0
  /-- The per-boot word-code salt (R410). -/
  salt     : Nat := 0
  deriving DecidableEq, Repr

/-- What the tamper monitors and the recorder keep in the always-on domain (R414 to R421). -/
structure AonTamper where
  latch      : Word := 0#32
  detFault   : Word := 0#32
  meshFail   : Word := 0#32
  lightLo    : Word := 0#32
  lightHi    : Word := 0#32
  /-- Pending evidence increments, and their mirror in the field-page memory (R416). -/
  pending    : Nat := 0
  mirror     : Nat := 0
  gMirror    : Nat := 0
  /-- The always-on event buffer: slots in order (R415). -/
  buffer     : List LogRec := []
  lost       : Nat := 0
  vaultAlarm : Bool := false
  /-- aon_salt of R410, the key RAM canary and the two newest marker rows (R417). -/
  salt       : List Byte := zeros 32
  canary     : List Byte := zeros 32
  marker1    : List Byte := []
  marker2    : List Byte := []
  /-- A canary failure found at this power-up has still to be mended (R417). -/
  canaryDue  : Bool := false
  /-- The canary failed at this power-up, and key RAM has still to be restored from the key log (R365). -/
  canaryLost : Bool := false
  deriving DecidableEq, Repr

end Sys2Proof.Machine
end

