-- ==== Sys2Proof/Machine/StateLane.lean ====
section
/-! DEFINITION. A sealing lane's state: its contexts, ring pairs, custody table, keys and registers
(R50 to R97), and its comb's and the arbiter's registers. -/
namespace Sys2Proof.Machine

/-- Directions of a context, in the order of the DIR0 codes (R96). -/
inductive Dir where
  | closed | seal | verifyChain | verifyOpen
  deriving DecidableEq, Repr

/-- DIR codes (R96). -/
def Dir.code : Dir → Nat
  | .closed => 0 | .seal => 1 | .verifyChain => 2 | .verifyOpen => 3

/-- Retention policies, in the order of their codes (R130). -/
inductive Policy where
  | host | store | storeOnly
  deriving DecidableEq, Repr

/-- Policy codes (R130). -/
def Policy.code : Policy → Nat
  | .host => 0 | .store => 1 | .storeOnly => 2

/-- Lane states (R90), in the order of their codes. -/
inductive LaneState where
  | off | idle | active | drain | frozen | schuss | fault
  deriving DecidableEq, Repr

/-- STATE codes (R90). -/
def LaneState.code : LaneState → Nat
  | .off => 0 | .idle => 1 | .active => 2 | .drain => 3 | .frozen => 4 | .schuss => 5 | .fault => 6

/-- States of a seal unit (R66); `checked` is a descriptor that has passed R56 and waits for pages. -/
inductive UnitState where
  | checked | fetching | resident | accepted | encrypting | suspended | appended
  deriving DecidableEq, Repr

/-- An ingest descriptor as read, with its ring index (R54). -/
structure Desc where
  typ        : Nat := 0
  flags      : Nat := 0
  reserved   : Nat := 0
  payloadLen : Nat := 0
  payloadAddr : Nat := 0
  outputAddr : Nat := 0
  outputLen  : Nat := 0
  cookie     : Nat := 0
  metadata   : List Byte := []
  index      : Nat := 0
  deriving DecidableEq, Repr

/-- A content key of one lane epoch with its nonce salt (R70). -/
structure ContentKey where
  key   : List Byte := []
  salt  : Nat := 0
  epoch : Nat := 0
  deriving DecidableEq, Repr

/-- A unit from its checked descriptor to its discharge (R66): an entry of the custody table once accepted. -/
structure MediaUnit where
  desc      : Desc := {}
  st        : UnitState := .checked
  /-- When the completion timeout of its fetch's requests runs out, ns (R86, R276). -/
  fetchUntil : Nat := 0
  /-- A read request of its fetch has failed (R86). -/
  failed    : Bool := false
  payload   : List Byte := []
  seq       : Nat := 0
  time      : Nat := 0
  uncertain : Bool := false
  /-- The key the unit's encryption began with (R28), and whether it is the previous-key register's. -/
  key       : ContentKey := {}
  prevKey   : Bool := false
  /-- Payload bytes processed at the last park (R81). -/
  done      : Nat := 0
  /-- The segment once its tag is formed (R73). -/
  segment   : List Byte := []
  truncated : Bool := false
  tokenPosted : Bool := false
  /-- Which destinations have taken the segment (R21). -/
  ringTook  : Bool := false
  storeTook : Bool := false
  /-- The segment has moved to staging memory and its pages are free (R208). -/
  staged    : Bool := false
  /-- The segment's bytes have gone to its output area (R209). -/
  written   : Bool := false
  /-- The segment has been programmed into the close reserve (R186). -/
  closeTook : Bool := false
  /-- The cause of its loss in a close (R41, R42, R38), 0 for none. -/
  lost      : Nat := 0
  deriving DecidableEq, Repr

/-- A completion entry that waits for a free slot (R63): its 64 bytes with PHASE clear, the continuation
entries of an ELEMENT, and whether an MSI-X message follows. -/
structure Post where
  entry : List Byte := []
  conts : List (List Byte) := []
  irq   : Bool := false
  /-- The sequence number of a SEALED or ACCEPT entry, for custody (R17, R21). -/
  seq   : Nat := 0
  /-- What a command waits for that this entry ends (R297, R298, R303). -/
  ends  : Option WaitFor := none
  deriving DecidableEq, Repr

/-- A ring pair (R96). -/
structure RingPair where
  inBase   : Nat := 0
  inSize   : Nat := 0
  cls      : Nat := 2
  port     : Nat := 0
  inTail   : Nat := 0
  inHead   : Nat := 0
  cmpBase  : Nat := 0
  cmpSize  : Nat := 0
  msix     : Nat := 0
  coalTime : Nat := 0
  cmpHead  : Nat := 0
  cmpTail  : Nat := 0
  err      : Word := 0#32
  valid    : Bool := false
  /-- The ring's DMA is paused while the port is in D3hot (R262). -/
  paused   : Bool := false
  /-- A segment or entry write failed (R87), a descriptor read failed (R96), or the port was reset (R263): the ring
  stands until RING_RETARGET (R302). -/
  faulted  : Bool := false
  dead     : Bool := false
  severed  : Bool := false
  /-- When the combined MSI-X message goes out (R94). -/
  coalAt   : Option Nat := none
  posts    : List Post := []
  deriving DecidableEq, Repr

/-- A stream context (R51). -/
structure Ctx where
  dir       : Dir := .closed
  stream    : Nat := 0
  head      : List Byte := zeros 64
  /-- Elements appended to the chain, counting OPEN (R106). -/
  elements  : Nat := 0
  /-- The next sequence number to assign, or to expect in the verify direction. -/
  nextSeq   : Nat := 0
  lastSeq   : Nat := 0
  policy    : Policy := .host
  /-- The read but unaccepted descriptor of a seal context (R67). -/
  cur       : Option MediaUnit := none
  /-- The verify descriptor in progress (R76). -/
  job       : Option Desc := none
  /-- The engine runs the job; a read request of it has failed. -/
  running   : Bool := false
  jobFailed : Bool := false
  /-- When the completion timeout of the job's requests runs out, ns (R276). -/
  jobUntil  : Nat := 0
  /-- Bytes of the element processed at the job's last park (R81). -/
  jobAt     : Nat := 0
  /-- Acceptance or consumption is stopped by a failed write (R87). -/
  stopped   : Bool := false
  /-- Consumption is stopped by BAD_ELEMENT or CHAIN_BREAK (R79). -/
  broken    : Bool := false
  /-- The decrypt-only key register of a verify-open context: the epoch and its key (R77, R300). -/
  key       : Option (Nat × List Byte) := none
  /-- The authority slot, the source device's digest and the KEK last unwrapped, with its kek_id (R299, R300). -/
  authSlot  : Nat := 0
  ident     : List Byte := []
  kek       : Option (List Byte × List Byte) := none
  /-- Elements verified since the context opened (R301). -/
  verified  : Nat := 0
  /-- VERIFY_CLOSE waits for the descriptor in progress (R301). -/
  closing   : Bool := false
  deriving DecidableEq, Repr

/-- A lane's entry of the epoch capture buffer (R117, R124), until the EPOCH_LINK is appended. -/
structure EpochCap where
  first    : Nat := 0
  last     : Nat := 0
  owed     : Nat := 0
  boundary : Nat := 0
  start    : Nat := 0
  /-- The key installed at the boundary, whose WRAPPED_KEY follows the link (R28, R75); none in CLOSE. -/
  key      : Option ContentKey := none
  /-- When HIVE_LINK_MAX runs out, ns (R118). -/
  lateAt   : Nat := 0
  late     : Bool := false
  deriving DecidableEq, Repr

/-- What a seal stream keeps beside its context (R27, R119, R130, R132). -/
structure Stream where
  options    : Nat := 0
  label      : List Byte := []
  epochStart : Nat := 0
  firstSeq   : Nat := 0
  lastSeq    : Nat := 0
  /-- kek_id of the last encapsulation in the chain (R132). -/
  kekId      : List Byte := []
  /-- Boundary value of the last appended epoch signature (R119). -/
  lastSig    : Nat := 0
  /-- The epoch signature being made: its boundary and the element up to the signature; and the same once signed. -/
  sig        : Option (Nat × List Byte) := none
  signed     : Option (Nat × List Byte) := none
  /-- When it was signed, ns: one that completes on a boundary edge stands (R119, R122). -/
  signedAt   : Nat := 0
  /-- STREAM_CLOSE has come: the drain ends with the CLOSE element (R134, R298). -/
  closing    : Bool := false
  /-- The CLOSE element has been appended. -/
  ended      : Bool := false
  /-- STORE_FULL_HELD has been logged in this hive period (R24). -/
  fullLogged : Bool := false
  deriving DecidableEq, Repr

/-- What the shadow of a lane holds after a snapshot (R106). -/
structure Shadow where
  head     : List Byte := zeros 64
  stream   : Nat := 0
  lastSeq  : Nat := 0
  elements : Nat := 0
  owed     : Nat := 0
  state    : LaneState := .off
  sealing  : Bool := false
  deriving DecidableEq, Repr

/-- A record that waits for the container writer: its kind, sequence number (0 for an element) and body, and the generation of
stored streams that it belongs to (R182). -/
structure StoreRec where
  kind : Nat
  lane : Nat
  seq  : Nat
  body : List Byte
  era  : Nat := 0
  deriving DecidableEq, Repr

/-- The parked unit of a lane: context, when it was parked, and the saved context (R80 to R82). -/
structure Parked where
  at_    : Nat := 0
  freeze : Bool := false
  /-- The parked job belongs to the verify direction. -/
  verify : Bool := false
  /-- SUSP_MAX has run out (R82, R94). -/
  late   : Bool := false
  /-- The tail of ingest ring 1 as a doorbell in the expiry cycle left it: what it covers runs first (R94). -/
  tie    : Option Nat := none
  /-- Bytes that a verify-open job had written at output_addr when it was parked (R89). -/
  written : Nat := 0
  saved  : List Byte := []
  deriving DecidableEq, Repr

/-- A lane's request that waits at the slalom arbiter (R84, R85): what it is for, in the numbering of Lane.wants, its class, and when
it is promoted, ns, until it has been. -/
structure Request where
  kind : Nat
  cls  : Nat := 2
  at_  : Option Nat := none
  deriving DecidableEq, Repr

/-- The lane's registers beside its contexts and rings (R96). -/
structure LaneRegs where
  en        : Bool := false
  suspEn    : Bool := true
  drain     : Bool := false
  irqStatus : Word := 0#32
  irqEn     : Word := 0#32
  maxUnit   : Nat := 0x80000
  ctx1Pages : Nat := 4
  suspMin   : Nat := 16
  suspMax   : Nat := 100
  err       : Word := 0#32
  statUnits : Nat := 0
  statBytes : Nat := 0
  statLatch : Nat := 0
  deriving DecidableEq, Repr

/-- A lane (R50). -/
structure Lane where
  st     : LaneState := .off
  regs   : LaneRegs := {}
  ctx0   : Ctx := {}
  ctx1   : Ctx := {}
  ring0  : RingPair := {}
  ring1  : RingPair := { cls := 1 }
  stream : Stream := {}
  /-- Custody table: accepted units, oldest first. -/
  units  : List MediaUnit := []
  key    : Option ContentKey := none
  prev   : Option ContentKey := none
  parked : Option Parked := none
  /-- Captured epochs whose links are not appended yet, the oldest first. -/
  caps   : List EpochCap := []
  /-- The registers of the last epoch capture (R124). -/
  ecapA  : Word := 0#32
  ecapB  : Word := 0#32
  shadow : Shadow := {}
  /-- What the shadow takes, as it stood before a capture edge that has come (R106). -/
  latch  : Shadow := {}
  storeQ : List StoreRec := []
  /-- The earliest clock at which context 0 may accept again, ns (R67). -/
  acceptAt : Nat := 0
  /-- It holds one of the engine slots of a close (R233). -/
  slot   : Bool := false
  /-- Its requests that wait at the arbiter. -/
  waits  : List Request := []
  /-- The sequence number whose SEALED entry ends a RING_RETARGET (R303). -/
  redeliverTo : Option Nat := none
  deriving DecidableEq, Repr

/-- A comb's clock and its registers (R96, R218). -/
structure Comb where
  clkEn      : Bool := false
  modeLimit  : Bool := false
  clkRefused : Bool := false
  deriving DecidableEq, Repr

/-- The slalom arbiter's registers (R85, R96). -/
structure Arbiter where
  wUrgent    : Nat := 8
  wNormal    : Nat := 4
  wBulk      : Nat := 1
  age        : Nat := 4096
  promotions : Nat := 0
  deriving DecidableEq, Repr

end Sys2Proof.Machine
end

