-- ==== Sys2Proof/Machine/StateStore.lean ====
section
/-! DEFINITION. The sealed store, its writer, journal and holds, and staging memory (R176 to R216). -/
namespace Sys2Proof.Machine

/-- Regions of the store, in the order of the REGION codes (R214). -/
inductive Region where
  | container | closeReserve | journal | eventLog | spare | retired
  deriving DecidableEq, Repr

/-- REGION codes (R214). -/
def Region.code : Region → Nat
  | .container => 0 | .closeReserve => 1 | .journal => 2 | .eventLog => 3 | .spare => 4 | .retired => 5

/-- Store states (R215), in the order of their codes. -/
inductive StoreSt where
  | off | scan | ready | close | fault
  deriving DecidableEq, Repr

/-- STATE codes (R215). -/
def StoreSt.code : StoreSt → Nat
  | .off => 0 | .scan => 1 | .ready => 2 | .close => 3 | .fault => 4

/-- Staging states (R216), in the order of their codes. -/
inductive StgSt where
  | off | train | ready | drain | fault
  deriving DecidableEq, Repr

/-- STATE codes (R216). -/
def StgSt.code : StgSt → Nat
  | .off => 0 | .train => 1 | .ready => 2 | .drain => 3 | .fault => 4

/-- A store block (R176, R214). -/
structure Block where
  region   : Region := .container
  ecnt     : Nat := 0
  fast     : Bool := false
  erased   : Bool := true
  holds    : Nat := 0
  readPins : Nat := 0
  inClose  : Bool := false
  open_    : Bool := false
  /-- An erase of the block is under way. -/
  erasing  : Bool := false
  /-- Its erase waits for a READ that pins it (R202). -/
  eraseDue : Bool := false
  /-- The block retires when it leaves the ring (R183). -/
  bad      : Bool := false
  /-- The next page to program, and the pages that count as programmed (R179). -/
  next     : Nat := 0
  readable : Nat := 0
  /-- The container in the block, 0 none, and the custody times of its first and last programmed records. -/
  seq      : Nat := 0
  first    : Nat := 0
  last     : Nat := 0
  /-- The pages programmed, first page first. -/
  pages    : List (List Byte) := []
  deriving DecidableEq, Repr

/-- Where a page in programming came from (R202). -/
inductive PageOwner where
  | writer | journal | closeReserve | log | queue (tag : Nat)
  deriving DecidableEq, Repr

/-- A page in programming (R179). -/
structure PageJob where
  owner : PageOwner
  block : Nat
  page  : Nat
  data  : List Byte
  /-- Its die is programming it (R202). -/
  started : Bool := false
  /-- It completed without error, and waits for an earlier page of its block. -/
  done  : Bool := false
  deriving DecidableEq, Repr

/-- A record that the writer has taken, until the page with its last byte counts as programmed (R183): its
container, block, first byte and the byte after its last, and the custody time it stands for (R194). -/
structure Taken where
  cseq  : Nat
  block : Nat
  start : Nat
  stop  : Nat
  time  : Nat
  rec_  : StoreRec
  deriving DecidableEq, Repr

/-- The container being filled (R181). -/
structure OpenContainer where
  seq     : Nat := 0
  block   : Nat := 0
  created : Nat := 0
  /-- All bytes of the container so far, and how many of them have gone into pages. -/
  bytes   : List Byte := []
  paged   : Nat := 0
  records : Nat := 0
  /-- The record being copied, where its frame starts and how many of its bytes are in (R180). -/
  cur     : Option (StoreRec × Nat × Nat) := none
  /-- It was opened for a reconciliation (R242). -/
  forRecon : Bool := false
  /-- The generation of stored streams whose records it takes (R182), and the key statement that stands in it (R148). -/
  era      : Nat := 0
  stmt     : List Byte := []
  deriving DecidableEq, Repr

/-- A hold in its latest revision (R191). -/
structure Hold where
  id        : Nat := 0
  start     : Nat := 0
  stop      : Nat := 0
  heldFrom  : Nat := 0
  firstSeq  : Nat := 0
  lastSeq   : Nat := 0
  origin    : Nat := 1
  source    : Nat := 0
  truncated : Bool := false
  postOpen  : Bool := false
  revision  : Nat := 1
  preRoll   : Nat := 0
  /-- The blocks the hold pins. -/
  blocks    : List Nat := []
  deriving DecidableEq, Repr

/-- A journal record (R189). -/
structure JRec where
  kind : Nat
  body : List Byte
  deriving DecidableEq, Repr

/-- The journal (R189, R190): persistent records with their blocks, newest first, the open page's records and the
pages in programming, oldest first. `taking` is the block whose live records have been appended again, which is erased once
they are programmed. -/
structure Journal where
  records  : List (Nat × JRec) := []
  page     : List JRec := []
  inFlight : List (List JRec) := []
  /-- The open journal block. -/
  block    : Nat := 264
  taking   : Option Nat := none
  deriving DecidableEq, Repr

/-- A store descriptor being executed (R197 to R201). -/
structure StoreOp where
  op    : Nat := 0
  tag   : Nat := 0
  irq   : Bool := false
  host  : Bool := false
  port  : Nat := 0
  block : Nat := 0
  page  : Nat := 0
  count : Nat := 0
  addr  : Nat := 0
  bytes : Nat := 0
  seqFirst : Nat := 0
  seqLast  : Nat := 0
  /-- The outcome so far: DONE count and status. -/
  done   : Nat := 0
  status : Nat := 0
  deriving DecidableEq, Repr

/-- The descriptor queue registers (R197, R214). -/
structure StoreQueue where
  en       : Bool := false
  sizeLog2 : Nat := 4
  sqBase   : Nat := 0
  cqBase   : Nat := 0
  sqTail   : Nat := 0
  sqHead   : Nat := 0
  cqHead   : Nat := 0
  cqTail   : Nat := 0
  running  : List StoreOp := []
  irq      : Bool := false
  deriving DecidableEq, Repr

/-- Trigger inputs (R195, R213, R214). -/
structure Triggers where
  en       : Word := 0#32
  pol      : Word := 0#32
  deb      : Nat := 50
  /-- (line, custody time), oldest first. -/
  fifo     : List (Nat × Nat) := []
  overflow : Nat := 0
  popTime  : Nat := 0
  /-- Lines not yet rearmed: (line, when, ns). -/
  rearm    : List (Nat × Nat) := []
  /-- Triggers whose hold is not yet placed: (line, custody time). -/
  toPlace  : List (Nat × Nat) := []
  deriving DecidableEq, Repr

/-- A record on its way into the close reserve (R186, R187). -/
structure ReserveRec where
  kind  : Nat
  lane  : Nat
  seq   : Nat := 0
  body  : List Byte
  /-- Its page is programmed before it is full (R186). -/
  flush : Bool := false
  tries : Nat := 0
  /-- The pages in which its bytes stand, by block and page, once it is placed. -/
  pages : List (Nat × Nat) := []
  deriving DecidableEq, Repr

/-- The close reserve's own state (R186 to R188). -/
structure Reserve where
  /-- The block after the one the previous close ended in. -/
  nextBlock : Nat := 0
  /-- Blocks of the close, first first. -/
  blocks    : List Nat := []
  /-- Pages of the present block that have been formed, and bytes not yet in a page. -/
  page      : Nat := 0
  buf       : List Byte := []
  queue     : List ReserveRec := []
  /-- Programmed records of a close that is not reconciled, in stored order (R45, R46). -/
  stored    : List StoreRec := []
  /-- Segments abandoned for want of a block or after three failures: (lane, sequence) (R187). -/
  abandoned : List (Nat × Nat) := []
  deriving DecidableEq, Repr

/-- Steps of reconciliation (R46, R188). -/
inductive ReconStep where
  | none | starting | appending | recording | ended
  deriving DecidableEq, Repr

/-- The STOR_ block and what stands behind it (R214). -/
structure Store where
  st        : StoreSt := .off
  writerEn  : Bool := false
  preerase  : Nat := 4
  queue     : StoreQueue := {}
  trig      : Triggers := {}
  blocks    : Sparse Block := []
  container : Option OpenContainer := none
  /-- Next container_seq, and the digest that the next container's header names (R145). -/
  nextSeq   : Nat := 1
  prevDigest : List Byte := zeros 64
  /-- Which source the writer serves next: lane number, or lanes for the supervisor (R180). -/
  turn      : Nat := 0
  /-- Records of the supervisor that wait for the writer: receipts, proofs, appended records. -/
  supQ      : List StoreRec := []
  /-- Records of a cut container that are written again, before any other (R183). -/
  rewrite   : List StoreRec := []
  pages     : List PageJob := []
  /-- The writer's final page of a custody close, by block and page (R185, R202). -/
  flush     : Option (Nat × Nat) := none
  taken     : List Taken := []
  journal   : Journal := {}
  holds     : List Hold := []
  holdCount : Nat := 0
  reserve   : Reserve := {}
  err       : Word := 0#32
  /-- Blocks of the initial ring used so far in order, and later erased ones, oldest erased first (R184). -/
  fresh     : Nat := 0
  erasedRing : List Nat := []
  /-- Containers that a failed page has ended, by number and block: their readable length stands once the earlier pages in
  programming have counted (R183). -/
  cuts      : List (Nat × Nat) := []
  /-- The highest container number that has existed (R181). -/
  lastSeq   : Nat := 0
  /-- Lanes with a unit that the store cannot take because the ring has no block (R24). -/
  fullLanes : List Nat := []
  /-- How often the last stream of a stored policy has closed: a container ends after the records of its generation (R182). -/
  era       : Nat := 0
  recon     : ReconStep := .none
  /-- RECONCILE has logged STORE_FULL_HELD for its own wait (R188). -/
  reconFull : Bool := false
  deriving DecidableEq, Repr

/-- A staged page (R210): its lane and segment, its index in staging, the lane's position, ciphertext and MAC. -/
structure StagedPage where
  lane     : Nat
  seq      : Nat
  index    : Nat
  position : Nat
  text     : List Byte
  mac      : List Byte
  deriving DecidableEq, Repr

/-- The STG_ block (R215, R216). -/
structure Staging where
  en        : Bool := false
  st        : StgSt := .off
  chPresent : Nat := 0
  /-- The XTS key pair and k_mac, drawn at each start (R212). -/
  keys      : Option (List Byte) := none
  channels  : Nat := 0
  ranks     : Nat := 0
  density   : Nat := 0
  speed     : Nat := 0
  laneMax   : Nat := 0x40000
  eccCe     : Nat := 0
  err       : Word := 0#32
  /-- Each lane's 64-bit count of staged pages (R210). -/
  position  : Vector Nat 64 := Vector.replicate 64 0
  pages     : List StagedPage := []
  deriving DecidableEq, Repr

end Sys2Proof.Machine
end

