-- ==== Sys2Proof/Machine/StateTime.lean ====
section
/-! DEFINITION. The custody timebase's state: the main accumulator, the always-on counter, the servo,
the counters and their log, the alarms, and the TIME_ block (R153 to R175). -/
namespace Sys2Proof.Machine

/-- Who reads or writes a register (R95, R174): the supervisor, a comb controller, a port, the debug port. -/
inductive Requester where
  | supervisor
  | comb (c : Nat)
  | port (p : Nat)
  | dbg
  deriving DecidableEq, Repr

/-- Discipline states (R164), in the order of their codes. -/
inductive DState where
  | stopped | startWait | free | acquire | locked | holdover
  deriving DecidableEq, Repr

/-- DSTATE codes (R164). -/
def DState.code : DState → Nat
  | .stopped => 0 | .startWait => 1 | .free => 2 | .acquire => 3 | .locked => 4 | .holdover => 5

/-- A time alarm (R171). -/
structure Alarm where
  en    : Bool := false
  wake  : Bool := false
  fired : Bool := false
  value : Nat := 0
  per   : Nat := 0
  deriving DecidableEq, Repr

/-- A row of the counter log (R170): valid where its CRC-32 matches. DESIGN CHOICE (log entry 92): its validity stands for the CRC. -/
structure CounterRow where
  pcyc : Nat := 0
  oph  : Nat := 0
  ckpt : Nat := 0
  seq  : Nat := 1
  good : Bool := true
  deriving DecidableEq, Repr

/-- The counter log in parameter sectors 14 and 15 of code flash bank 0: the rows programmed since each sector's last erase, the
newest first, and whether rows go into sector 15 now (R170). Final test has programmed the first row. -/
structure CounterLog where
  s14 : List CounterRow := [{}]
  s15 : List CounterRow := []
  hi  : Bool := false
  deriving DecidableEq, Repr

/-- A LO latch of one requester: which register pair and the value latched (R174). -/
structure Latch where
  who   : Requester
  reg   : Nat
  value : Nat
  deriving DecidableEq, Repr

/-- The main timebase and its servo (R154 to R167). -/
structure Servo where
  /-- The 96-bit accumulator; its top 64 bits are custody time (R154). -/
  acc        : Nat := 0
  run        : Bool := false
  dstate     : DState := .stopped
  uncertain  : Bool := false
  aonLost    : Bool := false
  ckptUsed   : Bool := false
  srcActive  : Nat := 0
  onSrcB     : Bool := false
  /-- The slew still to make, signed, units of 2^-64 s; SLEWING while not zero (R155). -/
  slew       : Int := 0
  /-- The last part of an ended slew, which the next edges remove. -/
  rest       : Int := 0
  /-- TIME_OFFSET, ns, saturating. -/
  offset     : Int := 0
  /-- TIME_RATE, 0.1 ppb. -/
  rate       : Int := 0
  /-- When the rate took each of its values in the present ACQUIRE or LOCKED state, ns, the newest first: what HOLDOVER averages
  (R164). -/
  rates      : List (Nat × Int) := []
  /-- The 64 s window of LOCKED under way: when it began, ns, and how far the main timebase then stood ahead of the always-on
  counter, units of 2^-32 s (R159). -/
  window     : Option (Nat × Int) := none
  errBound   : Nat := 0xFFFFFFFF
  /-- The bound set at the load or the last step, and when (R166). -/
  base       : Nat := 0xFFFFFFFF
  baseAt     : Nat := 0
  /-- The bound at entry to HOLDOVER, and when (R166). -/
  hold       : Nat := 0xFFFFFFFF
  holdAt     : Nat := 0
  /-- The magnitude of the offset still uncorrected, units of 2^-64 s (R166). -/
  uncorrected : Nat := 0
  /-- Consecutive measurements of magnitude at most 20 ns (R164). -/
  good       : Nat := 0
  /-- Consecutive measurements of magnitude above 100 ns while LOCKED (R164). -/
  bad        : Nat := 0
  /-- Consecutive valid measurements of SRC_A (R161). -/
  goodA      : Nat := 0
  /-- When each source (PPS, P2, P3) last delivered a valid measurement, ns of the fast clock. -/
  lastPps    : Option Nat := none
  lastP2     : Option Nat := none
  lastP3     : Option Nat := none
  /-- When the previous valid PPS edge was captured, ns of the fast clock (R162). -/
  ppsEdgeAt  : Option Nat := none
  /-- When TIME_REF_TO and TIME_START_WAIT run out. -/
  refAt      : Option Nat := none
  waitAt     : Option Nat := none
  deriving DecidableEq, Repr

/-- TIME_ configuration registers (R173). -/
structure TimeCfg where
  discEn    : Bool := true
  labelArm  : Bool := false
  forceHold : Bool := false
  stepEn    : Bool := true
  srcA      : Nat := 1
  srcB      : Nat := 0
  ppsFall   : Bool := false
  bw        : Nat := 1
  ppsCap    : Nat := 0
  label     : Nat := 0
  measLo    : Nat := 0
  stepThr   : Nat := 1000
  uncThr    : Nat := 50000
  slewMax   : Nat := 500
  refTo     : Nat := 2500
  hoStab    : Nat := 10
  startWait : Nat := 0
  err       : Word := 0#32
  deriving DecidableEq, Repr

/-- The always-on counter and what else of the timebase the always-on domain keeps (R158 to R171). -/
structure AonTime where
  /-- 64-bit timestamp with 16 further fraction bits (R158). -/
  acc     : Nat := 0
  inc     : Nat := 0x200000000
  /-- Where the present crystal period stands, units of 10^-9 of a period. -/
  phase   : Nat := 0
  /-- The counter runs from the RC oscillator, by an increment for each of its periods (R160). -/
  onRc    : Bool := false
  rcInc   : Nat := 0x4000000
  /-- TIME_STATUS.XTAL_FAIL, sticky. -/
  xtalFail : Bool := false
  /-- TEMP, signed, 0.125 °C, and CORR, signed, 0.01 ppm. -/
  temp    : Int := 0
  corr    : Int := 0
  trim    : Int := 0
  /-- The bound the always-on counter carries, ns (R166). -/
  bound   : Nat := 0xFFFFFFFF
  pcyc    : Nat := 0
  oph     : Nat := 0
  /-- Nanoseconds of operation since the last increment of `oph`. -/
  ophNs   : Nat := 0
  /-- The domain lost power since the last main power-up. -/
  lost    : Bool := true
  alarms  : Vector Alarm 4 := Vector.replicate 4 {}
  deriving DecidableEq, Repr

/-- The timebase as a whole. -/
structure Time where
  servo   : Servo := {}
  cfg     : TimeCfg := {}
  aon     : AonTime := {}
  log     : CounterLog := {}
  /-- Failures of row programs in a row (R170). -/
  logFails : Nat := 0
  latches : List Latch := []
  deriving DecidableEq, Repr

end Sys2Proof.Machine
end

