-- ==== Sys2Proof/Machine/Dev.lean ====
section
/-! DEFINITION. The device as a whole: every block's state, in the order of the spec's chapters. -/
namespace Sys2Proof.Machine

/-- Everything the spec gives the machine. -/
structure Dev where
  variant  : Variant := .vtz8064
  /-- Elapsed time in nanoseconds, to which every deadline of the model refers. -/
  clk      : Nat := 0
  /-- The model's own counter behind free values: each draw reads and advances it. -/
  ctr      : Nat := 0
  supply   : Supply := {}
  lanes    : Vector Lane 64 := Vector.replicate 64 {}
  combs    : Vector Comb 8 := Vector.replicate 8 {}
  arb      : Arbiter := {}
  hive     : Hive := {}
  receipts : Receipts := {}
  wag      : Wag := {}
  wagEps   : Vector WagEp 8 := Vector.replicate 8 {}
  time     : Time := {}
  store    : Store := {}
  staging  : Staging := {}
  power    : Power := {}
  close    : CloseSeq := {}
  ports    : Vector Port 5 := Vector.replicate 5 {}
  portsCfg : PortsCfg := {}
  waits    : List CmdWait := []
  exports  : List Export := []
  tiles    : Tiles := {}
  keys     : Keys := {}
  rng      : Rng := {}
  tamper   : Tamper := {}
  aon      : AonTamper := {}
  log      : Log := {}
  life     : Life := {}
  dbg    : Debug := {}
  cores    : Vector Core 9 := Vector.replicate 9 {}
  flash    : CodeFlash := {}
  settings : Settings := {}
  field    : FieldLink := {}
  /-- What the device has sent to its partners, the newest first. -/
  out      : List Output := []
  deriving DecidableEq, Repr

end Sys2Proof.Machine
end

