-- ==== Sys2Proof/Machine/State.lean ====
section
/-! DEFINITION. The machine's state: the device and the queue of waiting commands, its stops, and the state
after reset. -/
namespace Sys2Proof.Machine

/-- The device and the commands that wait, first in, first out. -/
structure State where
  dev     : Dev := {}
  pending : List Instr := []
  deriving DecidableEq, Repr

/-- Why the machine stops with a fault. No command of this device ends in one: it answers errors in its
registers, status fields and exceptions. -/
inductive Fault where
  /-- Raised by no command; it stands here so that the type has a value. Safe. -/
  | none
  deriving DecidableEq, Repr

/-- Why a command has no meaning. -/
inductive Refusal where
  /-- Answered by the arm of a command that is not modelled. Safe: nothing is proved of it. -/
  | notModelled (mnemonic : String)
  deriving DecidableEq, Repr

/-- The identity digest of the part (R372). -/
def factoryDigest : List Byte := shake (fitBytes 1793 (Config.factoryPub 1024)) 64

/-- A key pair that the key store made at final test, with its statement: its record in the key log (R363, R372, R380, R438). -/
def factorySlot (n attr len pubLen : Nat) : KeySlot :=
  let k : KeySlot :=
    { attr := attr, key := fitBytes len (Config.factoryKey n), tag := zeros 16, pub := fitBytes pubLen (Config.factoryPub n),
      created := Config.factoryCreated n, meas := fitBytes 64 Config.factoryMeasure }
  { k with statement := signedStatement (k.statementBody n factoryDigest) (Config.factorySignature n) }

/-- The key store as production leaves it: the mark of PROVISION, the identity key and the transport key in the key log, and key
RAM empty, since the always-on domain has had no power (R365, R372, R438, R442). -/
def Keys.factory : Keys :=
  { log := [{ seq := 2, kind := 1, index := 64, slot := factorySlot 64 (4 + 2 * 2 ^ 4 + 2 ^ 15 + 6 * 2 ^ 24) 64 1568 },
            { seq := 1, kind := 1, index := 1024, slot := factorySlot 1024 (7 + 5 * 2 ^ 4 + 2 ^ 15 + 5 * 2 ^ 24) 2305 1793 },
            { seq := 0, kind := 7, mark := some 1 }]
    nextRec := 3
    identityPub := fitBytes 1793 (Config.factoryPub 1024)
    idDigest := factoryDigest }

/-- The machine before its first main power-up: every register at its reset value, no main supply, the
always-on domain just powered. -/
def State.reset : State := { dev := { keys := Keys.factory } }

end Sys2Proof.Machine
end

