-- ==== Sys2Proof/Machine/Ops.lean ====
section
/-! DEFINITION. The named operations on the device that every family shares: the clock, random draws, outputs,
and access to a lane, a port, a core or a key by its number. -/
namespace Sys2Proof.Machine

/-- A command that changes the device and nothing else: the queue keeps the rest. -/
def State.on (s : State) (f : Dev → Dev) : Host.Outcome State Fault Refusal := .next { s with dev := f s.dev }

/-- Lanes of the part (R1). -/
def Dev.nLanes (d : Dev) : Nat := match d.variant with | .vtz8064 => 64 | .vtz8032 => 32

/-- Combs of the part (R1). -/
def Dev.nCombs (d : Dev) : Nat := match d.variant with | .vtz8064 => 8 | .vtz8032 => 4

/-- Nanoseconds of a number of milliseconds and of seconds. -/
def ms (n : Nat) : Nat := n * 1000000
def secs (n : Nat) : Nat := n * 1000000000

/-- The always-on counter as a custody timestamp (R158). -/
def Dev.aonTime (d : Dev) : Nat := d.time.aon.acc / 2 ^ 16

/-- Custody time: the main timebase while it runs, the always-on counter otherwise (R154, R424). -/
def Dev.now (d : Dev) : Nat := if d.time.servo.run then d.time.servo.acc / 2 ^ 32 else d.aonTime

/-- A timer whose rule is that arrival wins has run out (R10). -/
def Dev.past (d : Dev) (t : Nat) : Bool := decide (t < d.clk)

/-- A timer whose rule is that expiry wins has run out (R10). -/
def Dev.due (d : Dev) (t : Nat) : Bool := decide (t ≤ d.clk)

/-- A free value, and the device with its counter advanced. -/
def Dev.free (d : Dev) : Nat × Dev := (Config.freeNat d.ctr, { d with ctr := d.ctr + 1 })

/-- `n` random bytes, and the device with its counter advanced (R391). -/
def Dev.draw (d : Dev) (n : Nat) : List Byte × Dev :=
  (fitBytes n (Config.freeBytes d.ctr), { d with ctr := d.ctr + 1 })

/-- The device with one more output. -/
def Dev.send (d : Dev) (o : Output) : Dev := { d with out := o :: d.out }

/-- Lane, comb, port, tile, core and key slot by number; out of range, one in its reset state. -/
def Dev.lane (d : Dev) (n : Nat) : Lane := vget d.lanes n {}
def Dev.comb (d : Dev) (n : Nat) : Comb := vget d.combs n {}
def Dev.port (d : Dev) (n : Nat) : Port := vget d.ports n {}
def Dev.core (d : Dev) (n : Nat) : Core := vget d.cores n {}
def Dev.tile (d : Dev) (n : Nat) : Tile := vget d.tiles.tiles n {}
def Dev.keySlot (d : Dev) (n : Nat) : KeySlot := spGet (fun _ => {}) d.keys.slots n

/-- The device with one of them changed; out of range nothing changes. -/
def Dev.onLane (d : Dev) (n : Nat) (f : Lane → Lane) : Dev := { d with lanes := vupd d.lanes n f }
def Dev.onComb (d : Dev) (n : Nat) (f : Comb → Comb) : Dev := { d with combs := vupd d.combs n f }
def Dev.onPort (d : Dev) (n : Nat) (f : Port → Port) : Dev := { d with ports := vupd d.ports n f }
def Dev.onCore (d : Dev) (n : Nat) (f : Core → Core) : Dev := { d with cores := vupd d.cores n f }
def Dev.onTile (d : Dev) (n : Nat) (f : Tile → Tile) : Dev :=
  { d with tiles := { d.tiles with tiles := vupd d.tiles.tiles n f } }
def Dev.setKey (d : Dev) (n : Nat) (k : KeySlot) : Dev :=
  { d with keys := { d.keys with slots := spSet (fun _ => {}) d.keys.slots n k } }

/-- The effect holds only while the fast clocks run (R217). -/
def Dev.clocked (d : Dev) (f : Dev → Dev) : Dev := if d.supply.clocks then f d else d

/-- A core's write takes effect while the clocks run and no close has halted the cores (R231). -/
def Dev.byCore (d : Dev) (f : Dev → Dev) : Dev := if d.supply.clocks && decide (d.power.mode ≠ .close) then f d else d

/-- Session slot `i` of a port. -/
def Dev.sess (d : Dev) (p i : Nat) : Session := vget (d.port p).sess i {}
def Dev.onSess (d : Dev) (p i : Nat) (f : Session → Session) : Dev :=
  d.onPort p fun q => { q with sess := vupd q.sess i f }

/-- The mailbox block of a port, and slot `i` of it. -/
def Dev.onMbx (d : Dev) (p : Nat) (f : Mailbox → Mailbox) : Dev :=
  d.onPort p fun q => { q with mbx := f q.mbx }
def Dev.slot (d : Dev) (p i : Nat) : Slot := vget (d.port p).mbx.slots i {}
def Dev.onSlot (d : Dev) (p i : Nat) (f : Slot → Slot) : Dev :=
  d.onMbx p fun m => { m with slots := vupd m.slots i f }

/-- Ports with windows and slots, and ports of the datagram transport (R254). -/
def isUdp (p : Nat) : Bool := p == 2 || p == 3
def isPcie (p : Nat) : Bool := p == 0 || p == 1

/-- The number of session slots of a port (R254). -/
def nSess (p : Nat) : Nat := if isUdp p then 8 else 1

/-- An MSI-X message of a port: with its vector's mask bit set, the pending bit is set in its place (R261). -/
def Dev.msix (d : Dev) (p v : Nat) : Dev :=
  let q := (d.port p).pcie
  if flag (spGet (fun _ => 0#32) q.msix (4 * v + 3)) 0 then
    d.onPort p fun r =>
      { r with pcie := { r.pcie with pba := spSet (fun _ => 0#32) r.pcie.pba (v / 32) (setBit (spGet (fun _ => 0#32) r.pcie.pba (v / 32)) (v % 32)) } }
  else d.send (.msix p v)

/-- Fold an operation over a list of units. -/
def Dev.each (d : Dev) {α : Type} (xs : List α) (f : Dev → α → Dev) : Dev := xs.foldl f d

end Sys2Proof.Machine
end

