-- ==== Sys2Proof/Machine/SettingOps.lean ====
section
/-! DEFINITION. The persistent settings: identifiers, sizes, classes, defaults and ranges (R336), and the values in
force (R533). -/
namespace Sys2Proof.Machine

/-- TIME_REF_CFG as one value: SRC_A, SRC_B, PPS_EDGE and BW (R173). -/
def refCfg (a b : Nat) (fall : Bool) (bw : Nat) : Nat := a + b * 8 + b2n fall * 64 + bw * 256

/-- Class, size and default of a setting: class 0 O, 1 E, 2 F (R336). -/
def settingInfo (id : Nat) : Option (Nat × Nat × List Byte) :=
  match id with
  | 0x01 => some (2, 8, [0x3F#8, 0x3F#8, 0x1F#8, 0x1F#8, 0x37#8, 0#8, 0#8, 0#8])
  | 0x02 => some (2, 4, le 4 10)
  | 0x03 => some (2, 4, le 4 60)
  | 0x04 => some (2, 4, le 4 900)
  | 0x10 => some (0, 4, le 4 (refCfg 1 0 false 1))
  | 0x11 => some (0, 4, le 4 0)
  | 0x12 => some (0, 4, le 4 1000)
  | 0x13 => some (2, 4, le 4 50000)
  | 0x14 => some (0, 4, le 4 500)
  | 0x15 => some (0, 4, le 4 2500)
  | 0x16 => some (0, 4, le 4 10)
  | 0x20 => some (2, 4, le 4 100)
  | 0x21 => some (2, 4, le 4 1000)
  | 0x22 => some (2, 4, le 4 3600)
  | 0x23 => some (2, 4, le 4 600)
  | 0x30 => some (0, 4, le 4 0x37)
  | 0x31 => some (0, 4, le 4 0)
  | 0x32 => some (0, 4, le 4 0)
  | 0x40 => some (0, 4, le 4 0)
  | 0x41 => some (0, 4, le 4 0)
  | 0x42 => some (0, 4, le 4 50)
  | 0x50 => some (0, 4, le 4 0)
  | 0x51 => some (0, 4, le 4 0)
  | 0x52 => some (0, 48, zeros 48)
  | 0x53 => some (0, 48, zeros 48)
  | 0x54 => some (0, 4, le 4 0)
  | 0x55 => some (0, 4, le 4 0)
  | 0x56 => some (0, 4, le 4 47301)
  | 0x57 => some (0, 4, le 4 100)
  | 0x58 => some (0, 4, le 4 200)
  | 0x59 => some (0, 4, le 4 0)
  | 0x5A => some (1, 24, zeros 24)
  | 0x60 => some (0, 4, le 4 0)
  | 0x61 => some (0, 4, le 4 0x40000)
  | 0x70 => some (0, 4, le 4 0)
  | n => if 0x100 ≤ n && n ≤ 0x11F then some (0, 4, le 4 0) else none

/-- Every setting identifier, ascending. -/
def settingIds : List Nat :=
  [0x01, 0x02, 0x03, 0x04, 0x10, 0x11, 0x12, 0x13, 0x14, 0x15, 0x16, 0x20, 0x21, 0x22, 0x23, 0x30, 0x31, 0x32,
   0x40, 0x41, 0x42, 0x50, 0x51, 0x52, 0x53, 0x54, 0x55, 0x56, 0x57, 0x58, 0x59, 0x5A, 0x60, 0x61, 0x70]
  ++ (List.range 32).map fun n => 0x100 + n

/-- The default of a setting. -/
def settingDefault (id : Nat) : List Byte :=
  match settingInfo id with
  | some i => i.2.2
  | none => []

/-- A range of a number. -/
def inRange (lo hi v : Nat) : Bool := decide (lo ≤ v) && decide (v ≤ hi)

/-- TIME_REF_CFG obeys its register rule: source codes 0 to 3, SRC_B not equal to a non-zero SRC_A (R173). -/
def refCfgOk (v : Nat) : Bool :=
  let a := v % 8
  let b := v >>> 3 % 8
  decide (a ≤ 3) && decide (b ≤ 3) && (a != b || a == 0)

/-- STG_CFG obeys its register rule (R216). -/
def stgCfgOk (v : Nat) : Bool :=
  v % 4 != 3 && !(v.testBit 2 && (v >>> 5 % 4 == 2 || v >>> 3 % 4 != 0)) && v >>> 3 % 4 != 3 && v >>> 5 % 4 != 3
    && decide (v < 128)

/-- The rate code of an Ethernet interface code is legal (R265): SGMII 1, USXGMII 1, 2.5, 5 and 10, 10GBASE-R 10,
25GBASE-R 25 Gb/s; 0 leaves the port down. -/
def ethRateOk (v : Nat) : Bool :=
  let r := v % 8
  let i := v >>> 3 % 4
  r == 0 || (i == 0 && r == 1) || (i == 1 && decide (r ≤ 4)) || (i == 2 && r == 4) || (i == 3 && r == 5)

/-- The rate and interface of ETH_STATUS (R278). -/
def Eth.ifReg (e : Eth) : Nat := e.rate + e.iface * 2 ^ 3

/-- A value is within its setting's range (R336). -/
def settingOk (id : Nat) (bs : List Byte) : Bool :=
  let v := unle bs
  match id with
  | 0x01 => numAt bs 5 3 == 0 && numAt bs 0 1 < 64 && numAt bs 1 1 < 64 && numAt bs 2 1 < 32 && numAt bs 3 1 < 32
      && numAt bs 4 1 < 64 && !(numAt bs 4 1).testBit 3
  | 0x02 => inRange 1 60 v
  | 0x03 => inRange 10 3600 v
  | 0x04 => v == 0 || inRange 10 86400 v
  | 0x10 => decide (v < 1024) && !v.testBit 7
  | 0x11 => inRange 0 10000 v
  | 0x12 => inRange 1 1000000 v
  | 0x13 => inRange 1 10000000 v
  | 0x14 => inRange 1 1000 v
  | 0x15 => inRange 500 60000 v
  | 0x16 => inRange 0 65535 v
  | 0x20 => inRange 10 10000 v
  | 0x21 => inRange 10 60000 v
  | 0x22 => inRange 600 86400 v
  | 0x23 => inRange 10 86400 v
  | 0x30 => decide (v < 64)
  | 0x42 => inRange 0 10000 v
  | 0x50 => decide (v < 32) && decide (v % 8 ≤ 5)
  | 0x51 => decide (v < 32) && decide (v % 8 ≤ 5)
  | 0x52 => numAt bs 5 1 == 0 && numAt bs 29 3 == 0 && decide (numAt bs 4 1 ≤ 32) && decide (numAt bs 28 1 ≤ 128)
  | 0x53 => numAt bs 5 1 == 0 && numAt bs 29 3 == 0 && decide (numAt bs 4 1 ≤ 32) && decide (numAt bs 28 1 ≤ 128)
  | 0x56 => inRange 1024 65535 v
  | 0x57 => inRange 10 1000 v
  | 0x58 => inRange 10 10000 v
  | 0x59 => inRange 0 127 v
  | 0x5A => (numAt bs 0 1 == 4 || numAt bs 0 1 == 6) && numAt bs 1 1 == 0 && numAt bs 20 4 == 0
  | 0x60 => decide (v < 128)
  | 0x61 => inRange 1 16777215 v
  | 0x70 => decide (v < 2)
  | n => if 0x100 ≤ n then decide (v % 65536 ≤ 3600) && decide (v >>> 16 ≤ 3600) else true

/-- The persistent value of a setting. -/
def Settings.get (s : Settings) (id : Nat) : List Byte := spGet settingDefault s.vals id

/-- The persistent value of a setting as a number. -/
def Dev.setting (d : Dev) (id : Nat) : Nat := unle (d.settings.get id)

/-- Pre-roll and post-roll of a trigger line, seconds (R336). -/
def Dev.preRoll (d : Dev) (line : Nat) : Nat := d.setting (0x100 + line) % 65536
def Dev.postRoll (d : Dev) (line : Nat) : Nat := d.setting (0x100 + line) >>> 16

end Sys2Proof.Machine
end

