-- ==== Sys2Proof/Machine/Status.lean ====
section
/-! DEFINITION. The status codes of R289. -/
namespace Sys2Proof.Machine

/-- Status codes (R289), in the order of their codes. -/
inductive Status where
  | ok | notReady | closePending | counterExhausted | modeInvalid | modeBusy
  | modePrecond | dmaFault | internalFault | resourceHeld | stale | notFound
  | receiptDropped | badFrame | badOpcode | badLength | lenTooLarge | badField
  | badAddr | portDenied | roleDenied | roleInsufficient | authFail | authLocked
  | sessionBusy | sessionLimit | lcDenied | badLane | laneBusy | combLimit
  | badStream | seqExhausted | badDescType | wrongDirection | badDesc | outTooSmall
  | badElement | chainBreak | tagFail | noKey | holdLimit | holdNotFound
  | regionDenied | blockRetired | pageOrder | blockBusy | programFail | eraseFail
  | readUncorrectable | notProgrammed | badRecord | exportTimeout | timeRange | noSource
  | badSignature | wrongDevice | counterStale | deliveryExpired | slotOccupied | slotEmpty
  | attrDenied | lcPrecond | challengeExpired | debugDenied | readerAbsent | noTag
  | badBundle | rollback | extRunning | extNotLoaded | badSetting | settingRange
  | settingsConflict | nothingPending | flashFail
  deriving DecidableEq, Repr

/-- The 12-bit code (R289). -/
def Status.code : Status → Nat
  | .ok => 0x000 | .notReady => 0x010 | .closePending => 0x011 | .counterExhausted => 0x012
  | .modeInvalid => 0x013 | .modeBusy => 0x014 | .modePrecond => 0x015 | .dmaFault => 0x016
  | .internalFault => 0x017 | .resourceHeld => 0x018 | .stale => 0x019 | .notFound => 0x01A
  | .receiptDropped => 0x01B | .badFrame => 0x100 | .badOpcode => 0x101 | .badLength => 0x102
  | .lenTooLarge => 0x103 | .badField => 0x104 | .badAddr => 0x105 | .portDenied => 0x106
  | .roleDenied => 0x200 | .roleInsufficient => 0x201 | .authFail => 0x202 | .authLocked => 0x203
  | .sessionBusy => 0x204 | .sessionLimit => 0x205 | .lcDenied => 0x206 | .badLane => 0x300
  | .laneBusy => 0x301 | .combLimit => 0x302 | .badStream => 0x303 | .seqExhausted => 0x304
  | .badDescType => 0x305 | .wrongDirection => 0x306 | .badDesc => 0x307 | .outTooSmall => 0x308
  | .badElement => 0x309 | .chainBreak => 0x30A | .tagFail => 0x30B | .noKey => 0x30C
  | .holdLimit => 0x400 | .holdNotFound => 0x401 | .regionDenied => 0x402 | .blockRetired => 0x403
  | .pageOrder => 0x404 | .blockBusy => 0x405 | .programFail => 0x406 | .eraseFail => 0x407
  | .readUncorrectable => 0x408 | .notProgrammed => 0x409 | .badRecord => 0x40A | .exportTimeout => 0x40B
  | .timeRange => 0x500 | .noSource => 0x501 | .badSignature => 0x600 | .wrongDevice => 0x601
  | .counterStale => 0x602 | .deliveryExpired => 0x603 | .slotOccupied => 0x604 | .slotEmpty => 0x605
  | .attrDenied => 0x606 | .lcPrecond => 0x700 | .challengeExpired => 0x701 | .debugDenied => 0x702
  | .readerAbsent => 0x800 | .noTag => 0x801 | .badBundle => 0x900 | .rollback => 0x901
  | .extRunning => 0x902 | .extNotLoaded => 0x903 | .badSetting => 0xA00 | .settingRange => 0xA01
  | .settingsConflict => 0xA02 | .nothingPending => 0xA03 | .flashFail => 0xA04

end Sys2Proof.Machine
end

