-- ==== Sys2Proof/Machine/PortOps.lean ====
section
/-! DEFINITION. What the host ports do for every other block: notices, datagrams, and the delivery of responses
(R253, R255, R259, R260, R268, R272). -/
namespace Sys2Proof.Machine

/-- Where a window begins in the window memory: byte offsets from BAR0 + 0x0010_0000 on P0 and P1, addresses of
the P4 window on P4 (R261, R274). -/
def reqWindow (p s : Nat) : Nat := if p = 4 then 0x1000 else s * 0x8000
def respWindow (p s : Nat) : Nat := if p = 4 then 0x2000 else s * 0x8000 + 0x4000
def noticeWindow : Nat := 0x3000

/-- Bytes of a request or response window (R254). -/
def windowSize (p : Nat) : Nat := if p = 4 then 4096 else 16384

/-- What window memory that nothing has written reads as. -/
def zeroByte (_ : Nat) : Byte := 0#8

/-- Bytes written into a port's window memory. -/
def Dev.putWindow (d : Dev) (p off : Nat) (bs : List Byte) : Dev :=
  d.onMbx p fun m => { m with win := spSetAll zeroByte m.win off bs }

/-- The distance between two free-running 32-bit indices (R62). -/
def idxDiff (a b : Nat) : Nat := (a + 2 ^ 32 - b % 2 ^ 32) % 2 ^ 32

/-- The next free-running 32-bit index. -/
def idxAdd (a n : Nat) : Nat := (a + n) % 2 ^ 32

/-- PHASE of an entry: 1 minus bit `size` of its free-running index (R62). -/
def phaseOf (idx size : Nat) : Nat := 1 - (idx >>> size) % 2

/-- Ports send in every mode but CLOSE, in which transmission and mailbox service have stopped (R231). -/
def Dev.portsSend (d : Dev) : Bool := decide (d.power.mode ≠ .close)

/-- Send an encrypted message on a session of P2 or P3 (R268); export chunks go to EXPORT_DEST while that names a
destination (R272). -/
def Dev.sendUdp (d : Dev) (p i typ seq : Nat) (body : List Byte) : Dev :=
  let s := d.sess p i
  if !d.portsSend then d else
  let dest := d.settings.get 0x5A
  d.each (udpSealed s.kD2c typ s.id seq body) fun d b =>
    if typ = 0x20 && numAt dest 0 1 != 0 then d.send (.exported (fitBytes 24 dest) p i seq b)
    else d.send (.datagram p i typ seq b)

/-- Send a NOTICE or EXPORT on a session, and keep it until it is acknowledged (R270, R272). -/
def Dev.sendNumbered (d : Dev) (p i typ : Nat) (body : List Byte) : Dev :=
  let s := d.sess p i
  let d := d.sendUdp p i typ s.txSeq body
  d.onSess p i fun s =>
    { s with txSeq := s.txSeq + 1, unacked := s.unacked ++ [{ typ := typ, seq := s.txSeq, body := body, at_ := d.clk }] }

/-- A plain datagram of the handshake (R267). -/
def Dev.sendPlain (d : Dev) (p i typ sid : Nat) (body : List Byte) : Dev :=
  if d.portsSend then d.send (.datagram p i typ 0 (udpHeader typ sid 0 0 1 body.length ++ body)) else d

/-- Put a notice into the channel of P0, P1 or P4. The Bool says that it was dropped for want of a free entry
(R259, R260). -/
def Dev.ringNotice (d : Dev) (p kind lane : Nat) (body : List Byte) : Bool × Dev :=
  let m := (d.port p).mbx
  let n := m.notices
  let size := if p = 4 then 0 else n.size
  if 2 ^ size ≤ idxDiff n.tail n.head then
    (true, d.onMbx p fun m => { m with notices := { m.notices with lost := satInc 32 m.notices.lost } })
  else
    let rec_ := frameOf kind lane (phaseOf n.tail size) body
    let d := if p = 4 then (d.putWindow 4 noticeWindow (fitBytes 4096 rec_)).send (.pin .mgtAttnN false)
      else (d.send (.hostWrite p (n.base + n.tail % 2 ^ size * 4096) rec_)).msix p m.vecNotice
    (false, d.onMbx p fun m => { m with notices := { m.notices with tail := idxAdd m.notices.tail 1 } })

/-- A port's channel takes notices at all (R231, R293). -/
def Dev.noticeOpen (d : Dev) (p : Nat) : Bool := d.portsSend && (p == 4 || (d.port p).mbx.notices.en)

/-- A subscription takes a notice of class bit `cls`; for events, of severity `sev` or above (R259, R293). -/
def wants (classes minSev cls sev : Nat) : Bool :=
  classes.testBit cls && (cls != 2 || decide (minSev ≤ sev))

/-- Send a notice to every port and session that subscribed to its class; the list names the ports that
dropped it. -/
def Dev.noticeTo (d : Dev) (cls sev kind lane : Nat) (body : List Byte) : List Nat × Dev :=
  let ring := [0, 1, 4].foldl (fun (acc : List Nat × Dev) p =>
    let n := (acc.2.port p).mbx.notices
    if wants n.classes n.minSev cls sev && acc.2.noticeOpen p then
      let r := acc.2.ringNotice p kind lane body
      (if r.1 then acc.1 ++ [p] else acc.1, r.2)
    else acc) ([], d)
  let udp := [2, 3].foldl (fun d p =>
    (List.range 8).foldl (fun (d : Dev) i =>
      let s := d.sess p i
      if s.st = .active && wants s.classes s.minSev cls sev then d.sendNumbered p i 0x12 (frameOf kind lane 0 body)
      else d) d) ring.2
  (ring.1, udp)

/-- Write a response frame into the window of a slot and signal it (R255); a port in D3hot keeps it (R262). In a close no response is
written, and the slot stays BUSY (R231, R285). -/
def Dev.fillSlot (d : Dev) (p s : Nat) (frame : List Byte) : Dev :=
  if d.power.mode = .close then d
  else if (d.port p).pcie.d3hot then d.onSlot p s fun q => { q with resp := some frame }
  else
    let d := d.putWindow p (respWindow p s) frame
    let d := d.onSlot p s fun q => { q with st := .done, status := 0, respLen := frame.length, resp := none }
    if isPcie p then d.msix p (d.port p).mbx.vecSlot else d.send (.pin .mgtAttnN false)

/-- Deliver a response to the slot or session that made the request, if it still waits for one (R253, R258). -/
def Dev.deliver (d : Dev) (p s : Nat) (frame : List Byte) : Dev :=
  if isUdp p then
    let q := d.sess p s
    if q.st = .active && q.running && decide (d.power.mode ≠ .close) then
      let d := d.onSess p s fun q => { q with running := false, cached := frame }
      d.sendUdp p s 0x11 q.rxSeq frame
    else d
  else if (d.slot p s).st = .busy then d.fillSlot p s frame
  else d

/-- The request frame that a slot or session is serving. -/
def Dev.request (d : Dev) (p s : Nat) : List Byte :=
  if isUdp p then (d.sess p s).req else (d.slot p s).req

/-- A response frame (R280). -/
def responseFrame (opcode reqId status : Nat) (body : List Byte) : List Byte :=
  ascii "QRSP" ++ [1#8, 0#8] ++ le 2 opcode ++ le 4 body.length ++ le 4 reqId ++ le 2 (status % 4096) ++ zeros 6 ++ body

/-- Answer the request of a slot or session: opcode and req_id are echoed (R280). -/
def Dev.answer (d : Dev) (p s status : Nat) (body : List Byte) : Dev :=
  let r := d.request p s
  d.deliver p s (responseFrame (numAt r 6 2) (numAt r 12 4) status body)

/-- Answer with a status of R289; a status that is not OK has an empty body (R280). -/
def Dev.reply (d : Dev) (p s : Nat) (st : Status) (body : List Byte) : Dev := d.answer p s st.code body
def Dev.refuse (d : Dev) (p s : Nat) (st : Status) : Dev := d.answer p s st.code []

/-- Bytes as 48-bit words, six to a word, the first in bits 7:0 (R198, R284). -/
def packWords (bs : List Byte) : List W48 := (pieces 6 bs).map fun p => BitVec.ofNat 48 (unle p)

/-- The first `n` bytes of 48-bit words. -/
def unpackWords (n : Nat) (ws : List W48) : List Byte := (ws.flatMap fun w => le 6 w.toNat).take n

/-- What a word that nothing has written reads as. -/
def zeroWord (_ : Nat) : W48 := 0#48

/-- Words of a session buffer (R284). -/
def bufWords (p : Nat) : Nat := if isPcie p then 16384 else if p = 4 then 4096 else 2048

/-- The session whose buffer a request uses: its own on P2 and P3, the port's elsewhere. -/
def sessOf (p s : Nat) : Nat := if isUdp p then s else 0

/-- Bytes read from and written to the session buffer at a word offset (R284). -/
def Dev.bufGet (d : Dev) (p s off n : Nat) : List Byte :=
  unpackWords n (spGetAll zeroWord (d.sess p (sessOf p s)).buf off (ceilDiv n 6))
def Dev.bufPut (d : Dev) (p s off : Nat) (bs : List Byte) : Dev :=
  let old := d.bufGet p s off (6 * ceilDiv bs.length 6)
  d.onSess p (sessOf p s) fun q => { q with buf := spSetAll zeroWord q.buf off (packWords (bs ++ old.drop bs.length)) }

/-- Bytes read from and written to a core's data SRAM at a word address; the last word's other bytes stay (R198). -/
def Dev.memGet (d : Dev) (core addr n : Nat) : List Byte :=
  unpackWords n (spGetAll zeroWord (d.core core).dmem addr (ceilDiv n 6))
def Dev.memPut (d : Dev) (core addr : Nat) (bs : List Byte) : Dev :=
  let old := d.memGet core addr (6 * ceilDiv bs.length 6)
  d.onCore core fun c => { c with dmem := spSetAll zeroWord c.dmem addr (packWords (bs ++ old.drop bs.length)) }

/-- Words of a core's data SRAM (R342). -/
def sramWords (core : Nat) : Nat := if core = 0 then 262144 else 131072

/-- A range of bytes at a word address lies within the core's data SRAM. -/
def inSram (core addr n : Nat) : Bool := decide (addr + ceilDiv n 6 ≤ sramWords core)

/-- The waits of a kind end: each command is answered OK with the body it has ready (R257). -/
def Dev.finish (d : Dev) (w : WaitFor) (body : List Byte → List Byte) : Dev :=
  let ready := d.waits.filter fun c => c.for_ == w
  let d := { d with waits := d.waits.filter fun c => !(c.for_ == w) }
  d.each ready fun d c => d.answer c.port c.slot 0 (body c.body)

/-- The waits of a kind end with a status that is not OK. -/
def Dev.finishBad (d : Dev) (w : WaitFor) (status : Nat) : Dev :=
  let ready := d.waits.filter fun c => c.for_ == w
  let d := { d with waits := d.waits.filter fun c => !(c.for_ == w) }
  d.each ready fun d c => d.answer c.port c.slot status []

end Sys2Proof.Machine
end

