-- ==== Sys2Proof/Machine/LogOps.lean ====
section
/-! DEFINITION. The event recorder's operations: forming and folding records, the page buffer, programming, the
always-on buffer, carrying forward, freeze and clear (R424 to R435). -/
namespace Sys2Proof.Machine

/-- Records of a page and pages of a log block (R424, R431). -/
def logPage : Nat := 512
def logBlockPages : Nat := 256

/-- Put a record into the always-on buffer; when full, the new record overwrites slot 63 (R415). -/
def AonTamper.put (a : AonTamper) (r : LogRec) : AonTamper :=
  if a.buffer.length < 64 then { a with buffer := a.buffer ++ [r] }
  else { a with buffer := a.buffer.take 63 ++ [r], lost := satInc 16 a.lost }

/-- Release the always-on copies of programmed records (R428). -/
def AonTamper.release (a : AonTamper) (rs : List LogRec) : AonTamper :=
  { a with buffer := a.buffer.filter fun c => c.only || !rs.any fun r => r.index == c.index }

/-- The recorder may program pages now (R429, R430, R432 to R434). -/
def Log.appending (l : Log) : Bool :=
  l.open_ && !l.frozen && !l.closing && !l.erasing && l.clearIdx.isNone

/-- Hand the page buffer to programming, a held record with it (R428). -/
def Log.flush (l : Log) : Log :=
  if l.buffer.isEmpty then l
  else { l with pages := l.pages ++ [l.buffer], buffer := [], held := false, flushAt := none }

/-- LOG_FLUSH counts from the first record in the page buffer that is not held (R428). -/
def Log.arm (l : Log) (now : Nat) : Log :=
  if l.flushAt.isNone && decide (b2n l.held < l.buffer.length) then
    { l with flushAt := some (now + ms l.flushMs) }
  else l

/-- Program what must be programmed at once: a full page, or one with a CRITICAL record (R428). -/
def Log.settle (l : Log) (now : Nat) : Log :=
  if l.appending && (decide (logPage ≤ l.buffer.length) || l.buffer.any fun r => r.sev == 3) then l.flush
  else l.arm now

/-- An event equals the newest record, which is still held: it folds (R426). -/
def LogRec.folds (r e : LogRec) : Bool :=
  r.typ == e.typ && r.uncertain == e.uncertain && r.sev == e.sev && r.injected == e.injected && r.aon == e.aon
    && r.powerCycle == e.powerCycle && fitBytes 12 r.data == fitBytes 12 e.data && decide (r.rep < 0xFFFF)

/-- The record of an event (R424). -/
def Dev.logRecord (d : Dev) (typ sev : Nat) (data : List Byte) (injected : Bool) : LogRec :=
  { index := d.log.next, typ := typ, sev := sev, uncertain := d.time.servo.uncertain, injected := injected,
    opTime := d.time.aon.oph, powerCycle := d.time.aon.pcyc, custodyTime := d.now, data := data }

/-- A record that finds the page buffer full: WARNING and CRITICAL go to the always-on buffer, INFO and NOTICE are
dropped and counted (R432, R433). -/
def Dev.logFull (d : Dev) (r : LogRec) : Dev :=
  if 2 ≤ r.sev then { d with aon := d.aon.put { r with only := true } }
  else if d.log.frozen then { d with log := { d.log with frozenLost := satInc 32 d.log.frozenLost } }
  else if r.sev = 0 then { d with log := { d.log with droppedInfo := satInc 8 d.log.droppedInfo } }
  else { d with log := { d.log with droppedNotice := satInc 8 d.log.droppedNotice } }

/-- A new record: into the page buffer, with an always-on copy where R428 or R429 asks for one. With the fast
clocks stopped it goes to the always-on buffer alone (R415). -/
def Dev.logNew (d : Dev) (r : LogRec) : Dev :=
  if !d.supply.clocks then { d with aon := d.aon.put { r with only := true } }
  else if logPage ≤ d.log.buffer.length then d.logFull r
  else
    let l := { d.log with buffer := d.log.buffer ++ [r], held := true, next := d.log.next + 1 }
    let d := if 2 ≤ r.sev || d.log.closing then { d with aon := d.aon.put r } else d
    { d with log := l.settle d.clk }

/-- Form or fold the record of an event. The Bool says that a new record was formed. -/
def Dev.logPut (d : Dev) (r : LogRec) : Bool × Dev :=
  match d.log.held, d.log.buffer.getLast? with
  | true, some n =>
    if n.folds r && d.supply.clocks then
      let n' := { n with rep := n.rep + 1 }
      let l := { d.log with buffer := d.log.buffer.dropLast ++ [n'], held := decide (n'.rep < 0xFFFF) }
      (false, { d with log := l.arm d.clk })
    else (true, d.logNew r)
  | _, _ => (true, d.logNew r)

/-- The notice of a new record (R259, R427), and NOTICE_LOST, once per hive period, on a port that dropped one. -/
def Dev.logNotice (d : Dev) (r : LogRec) : Dev :=
  let n := d.noticeTo 2 r.sev 0x61 0xFF r.bytes
  n.2.each n.1 fun d p =>
    if (d.port p).mbx.notices.logged then d
    else
      let d := d.onMbx p fun m => { m with notices := { m.notices with logged := true } }
      let lost := d.logRecord 0x102 1 ([u8 p] ++ le 4 (d.port p).mbx.notices.lost) false
      let f := d.logPut lost
      if f.1 then (f.2.noticeTo 2 1 0x61 0xFF lost.bytes).2 else f.2

/-- Log an event: type, severity and data of R435. -/
def Dev.logWith (d : Dev) (typ sev : Nat) (data : List Byte) (injected : Bool) : Dev :=
  let r := d.logRecord typ sev data injected
  let f := d.logPut r
  if f.1 then f.2.logNotice r else f.2

/-- Log an event that is not injected. -/
def Dev.logEvent (d : Dev) (typ sev : Nat) (data : List Byte) : Dev := d.logWith typ sev data false

/-- Send a notice of another class, and log NOTICE_LOST where it is dropped (R259). -/
def Dev.notice (d : Dev) (cls kind lane : Nat) (body : List Byte) : Dev :=
  let n := d.noticeTo cls 0 kind lane body
  n.2.each n.1 fun d p =>
    if (d.port p).mbx.notices.logged then d
    else
      (d.onMbx p fun m => { m with notices := { m.notices with logged := true } }).logEvent 0x102 1
        ([u8 p] ++ le 4 (d.port p).mbx.notices.lost)

/-- What a block's records carry forward: CRITICAL records and then WARNING records, newest first within each
severity, up to 65,536, in their original order (R431). The block is given newest record first. -/
def retained (block : List LogRec) : List LogRec :=
  let crit := (block.filter fun r => r.sev == 3).take 65536
  let warn := (block.filter fun r => r.sev == 2).take (65536 - crit.length)
  (block.filter fun r => (crit.any fun c => c.index == r.index) || (warn.any fun c => c.index == r.index)).reverse

/-- Carried copies take new indices (R431). -/
def renumber (from_ : Nat) : List LogRec → List LogRec
  | [] => []
  | r :: rs => { r with index := from_, carried := true } :: renumber (from_ + 1) rs

/-- The page that is in programming: new and carried pages alternate while both are pending (R431). -/
def Log.current (l : Log) : Option (Bool × List LogRec) :=
  match l.pages, l.carry with
  | [], [] => none
  | p :: _, [] => some (false, p)
  | [], c => some (true, c.take logPage)
  | p :: _, c => if l.lastCarry then some (false, p) else some (true, c.take logPage)

/-- The oldest block's erase begins when the open block is full and none is erased; otherwise the next erased block
opens, and opening the last one begins the carry (R431). -/
def Log.advance (l : Log) : Log :=
  if l.openPages < logBlockPages then l
  else if l.erased = 0 then { l with erasing := true }
  else
    let old := (l.blocks.getLast?).getD []
    let l := { l with blocks := [] :: l.blocks, openPages := 0, erased := l.erased - 1, phys := l.phys.drop 1 ++ l.phys.take 1 }
    if l.erased = 0 then
      let c := retained old
      { l with carry := renumber l.next c, next := l.next + c.length }
    else l

/-- Records enter the open block, newest first. -/
def Log.store (l : Log) (rs : List LogRec) : Log :=
  let blocks := match l.blocks with
    | [] => [rs.reverse]
    | b :: bs => (rs.reverse ++ b) :: bs
  { l with blocks := blocks, openPages := l.openPages + 1 }

/-- The commit edge of LOG_CLEAR: the clear record is the oldest, every other block will be erased, records of an
index below it are gone, and the waiting records are appended (R434). -/
def Dev.logCleared (d : Dev) (idx : Nat) : Dev :=
  let l := d.log
  let l := { l with oldest := idx, clearIdx := none, clearErase := l.blocks.length - 1, erasing := false, frozen := false, holder := none,
                    carry := [], pages := l.pages.filter fun p => p.all fun r => decide (idx < r.index),
                    blocks := match l.blocks with
                      | [] => [[]]
                      | b :: bs => (b.filter fun r => decide (idx ≤ r.index)) :: bs.map fun _ => [],
                    buffer := l.buffer.filter fun r => decide (idx < r.index) }
  { d with log := l.settle d.clk,
           aon := { d.aon with buffer := d.aon.buffer.filter fun r => r.only || decide (idx < r.index) } }

/-- The store block of the `i`-th log block, the open one first. -/
def Log.physOf (l : Log) (i : Nat) : Nat := l.phys.getD ((l.phys.length - i) % l.phys.length) 256

/-- A log page counts as programmed, or failed and is rewritten in the next page (R428, R429, R437). -/
def Dev.logPageDone (d : Dev) (ok : Bool) : Dev :=
  match d.log.current with
  | none => d
  | some (carried, rs) =>
    if !ok then { d with log := { d.log with err := setBit d.log.err 1 } }
    else
      let l := d.log.store rs
      let l := if carried then { l with carry := l.carry.drop logPage, lastCarry := true }
        else { l with pages := l.pages.drop 1, lastCarry := false }
      let clears := match d.log.clearIdx with
        | some i => rs.any fun r => r.index == i
        | none => false
      let d := { d with log := l.advance, aon := d.aon.release rs }
      if clears then d.logCleared (d.log.clearIdx.getD 0) else d

/-- Count the records of a block that were not carried, by severity (R431). -/
def Log.countLost (l : Log) (block : List LogRec) : Log :=
  let keep := retained block
  let gone := block.filter fun r => !keep.any fun k => k.index == r.index
  let sat := fun (a : Nat) (s : Nat) => Nat.min 255 (a + (gone.filter fun r => r.sev == s).length)
  { l with droppedInfo := sat l.droppedInfo 0, droppedNotice := sat l.droppedNotice 1,
           droppedWarning := sat l.droppedWarning 2, droppedCritical := sat l.droppedCritical 3 }

/-- The index of the oldest record of the last block that holds one. -/
def Log.oldestOf (l : Log) : Nat :=
  match (l.blocks.filter fun b => !b.isEmpty).getLast? with
  | some b => (b.getLast?.map fun r => r.index).getD l.oldest
  | none => l.oldest

/-- A log block's erase ends: after a clear, one block fewer to erase; in a full log, the oldest block is gone and
becomes the open block (R431, R434). -/
def Dev.logBlockErased (d : Dev) : Dev :=
  let l := d.log
  if 0 < l.clearErase then
    { d with log := { l with clearErase := l.clearErase - 1, blocks := l.blocks.dropLast, erased := l.erased + 1 } }
  else if l.erasing then
    let old := (l.blocks.getLast?).getD []
    let l := (l.countLost old)
    let l := { l with blocks := [] :: l.blocks.dropLast, openPages := 0, erasing := false, phys := l.phys.drop 1 ++ l.phys.take 1 }
    let c := retained ((l.blocks.getLast?).getD [])
    let l := { l with oldest := l.oldestOf, carry := renumber l.next c, next := l.next + c.length }
    { d with log := l.settle d.clk }
  else d

/-- LOG_FLUSH runs out: the records before a held newest record are programmed, and the held record stays (R428). -/
def Dev.logFlushExpiry (d : Dev) : Dev :=
  match d.log.flushAt with
  | none => d
  | some t =>
    if d.past t && d.log.appending then
      let l := d.log
      if l.held then
        let keep := match l.buffer.getLast? with | some r => [r] | none => []
        let before := l.buffer.dropLast
        { d with log := { l with pages := if before.isEmpty then l.pages else l.pages ++ [before],
                                 buffer := keep, flushAt := none } }
      else { d with log := l.flush }
    else d

/-- Entry to STANDBY programs the page buffer (R428). -/
def Dev.logStandby (d : Dev) : Dev := if d.log.appending then { d with log := d.log.flush } else d

/-- Give records consecutive indices. -/
def reindex (from_ : Nat) : List LogRec → List LogRec
  | [] => []
  | r :: rs => { r with index := from_ } :: reindex (from_ + 1) rs

/-- Pages and full blocks of the log as the scan finds them need no change; the next index is the larger of the
always-on value and the one after the last programmed record, or that plus 512 after a loss of the always-on domain
(R425). -/
def Dev.logBase (d : Dev) : Nat :=
  let l := d.log
  let prog := match (l.blocks.filter fun b => !b.isEmpty).head? with
    | some b => (b.head?.map fun r => r.index + 1).getD 0
    | none => 0
  if d.time.servo.aonLost then prog + logPage else Nat.max (l.next - l.buffer.length) prog

/-- The hand-off at READY: the always-on buffer's records in slot order, each with AON set, then the records held
since power-up; the buffer is emptied (R430). A copy of a record that is itself held since power-up is not appended
twice. -/
def Dev.logHandOff (d : Dev) : Dev :=
  let l := d.log
  let base := d.logBase
  let kept := d.aon.buffer.filter fun c => c.only || !l.buffer.any fun r => r.index == c.index && r.powerCycle == c.powerCycle
  let aonRecs := kept.map fun r => { r with aon := true, only := false }
  let all := reindex base (aonRecs ++ l.buffer)
  let full := pieces logPage all
  let last := (full.getLast?).getD []
  let pages := full.dropLast
  let l := { l with open_ := true, pages := l.pages ++ pages, buffer := last, held := l.held,
                    next := base + all.length, oldest := l.oldestOf, frozen := false, holder := none }
  { d with log := l.settle d.clk, aon := { d.aon with buffer := [] } }

/-- A freeze, and its end: the held records are appended in order (R433). -/
def Dev.logFreeze (d : Dev) (p s : Nat) : Dev := { d with log := { d.log with frozen := true, holder := some (p, s) } }
def Dev.logUnfreeze (d : Dev) : Dev :=
  { d with log := { d.log with frozen := false, holder := none }.settle d.clk }

/-- The stop edge of a close holds programming, ends a freeze (R322) and the close record lets it go on (R429). -/
def Dev.logCloseBegin (d : Dev) : Dev :=
  { d with log := { d.log with closing := true, frozen := false, holder := none } }
def Dev.logCloseEnd (d : Dev) : Dev := { d with log := { d.log with closing := false }.flush }

/-- LOG_CLEAR at its check: the clear record goes alone into its page, and appending stops (R434). -/
def Dev.logClear (d : Dev) (port role : Nat) : Dev :=
  let newest := d.log.next - 1
  let r := d.logRecord 0x1C0 3 (le 8 newest ++ [u8 port, u8 role]) false
  let l := { d.log with clearIdx := some r.index, next := d.log.next + 1, pages := d.log.pages ++ [[r]], held := false }
  ({ d with log := l, aon := d.aon.put r }).logNotice r

/-- A main power-up finds what the log keeps: programmed records and the next index (R425). -/
def Log.powerUp (l : Log) : Log :=
  { blocks := l.blocks, openPages := l.openPages, erased := l.erased, phys := l.phys, next := l.next, oldest := l.oldestOf,
    clearErase := l.clearErase, erasing := l.erasing }

/-- The firmware-side types of R435. -/
def swTypes : List Nat := [0x017, 0x018, 0x041, 0x042, 0x0C2, 0x0C4, 0x100, 0x101, 0x103]

/-- The severity that R435 gives a firmware-side type. -/
def swSeverity (t : Nat) : Nat :=
  if t = 0x018 || t = 0x0C2 || t = 0x101 || t = 0x103 then 2 else 1

/-- LOG_SW_TYPE with GO: form the record, or set SW_REFUSED (R435). -/
def Dev.logSw (d : Dev) (typ : Nat) : Dev :=
  if swTypes.contains typ then
    d.logEvent typ (swSeverity typ) (le 4 d.log.swData0.toNat ++ le 4 d.log.swData1.toNat ++ le 4 d.log.swData2.toNat)
  else { d with log := { d.log with err := setBit d.log.err 2 } }

end Sys2Proof.Machine
end

