-- ==== Sys2Proof/Machine/RngOps.lean ====
section
/-! DEFINITION. The random bit generator's operations: sources, conditioner, pool, instances and draws
(R386 to R399). A draw's wait for pool bytes takes no time in the model: the blocks it needs are gathered
within the draw. -/
namespace Sys2Proof.Machine

/-- Change the RNG_ block. -/
def Dev.onRng (d : Dev) (f : Rng → Rng) : Dev := { d with rng := f d.rng }

/-- Instances of the part: the supervisor's and one per comb. -/
def Dev.nInst (d : Dev) : Nat := 1 + d.nCombs

/-- Instance `i`. -/
def Dev.inst (d : Dev) (i : Nat) : Instance := vget d.rng.insts i {}
def Dev.onInst (d : Dev) (i : Nat) (f : Instance → Instance) : Dev :=
  d.onRng fun r => { r with insts := vupd r.insts i f }

/-- Take pool bytes; short of them, the blocks that are gathered meanwhile enter the pool first (R390). -/
def Dev.takePool (d : Dev) (n : Nat) : Dev :=
  if n ≤ d.rng.pool then d.onRng fun r => { r with pool := r.pool - n }
  else
    let k := ceilDiv (n - d.rng.pool) 64
    d.onRng fun r => { r with pool := r.pool + 64 * k - n, blocks := Nat.min (r.blocks + k) 0xFFFFFFFF }

/-- An instance reseeds from the pool (R391). -/
def Dev.reseed (d : Dev) (i : Nat) : Dev :=
  (d.takePool 32).onInst i fun x =>
    { x with reqs := 0, reseeds := satInc 32 x.reseeds, stale := false, need := none, st := .ready }

/-- An instance is instantiated afresh (R391, R392). -/
def Dev.instantiate (d : Dev) (i : Nat) : Dev :=
  (d.takePool 48).onInst i fun x => { x with st := .ready, seeded := true, reqs := 0, stale := false, need := none }

/-- The instance can serve a draw now (R389, R393, R397). -/
def Dev.canDraw (d : Dev) (i : Nat) : Bool :=
  d.rng.ready && !d.rng.stopped && !d.rng.condFail && decide ((d.inst i).st = .ready)

/-- A draw of `n` bytes; `fresh` asks for a reseed first, as every key generation does (R391, R394). -/
def Dev.randDraw (d : Dev) (i n : Nat) (fresh : Bool) : List Byte × Dev :=
  let x := d.inst i
  let d := if fresh || x.stale || decide (d.rng.reseedInt ≤ x.reqs) then d.reseed i else d
  let d := d.onInst i fun x => { x with reqs := x.reqs + 1 }
  d.draw n

/-- The close pool is refilled from the supervisor's instance (R396). -/
def Dev.fillClosePool (d : Dev) : Dev :=
  if d.rng.cpool < 10240 && d.canDraw 0 then
    ((d.randDraw 0 (10240 - d.rng.cpool) false).2).onRng fun r => { r with cpool := 10240 }
  else d

/-- A draw on the close pool: its bytes are used once (R396). -/
def Dev.closeDraw (d : Dev) (n : Nat) : List Byte × Dev :=
  (d.onRng fun r => { r with cpool := r.cpool - n }).draw n

/-- Source A is false, source B true: its state. -/
def Rng.src (r : Rng) (b : Bool) : SrcSt := if b then r.stB else r.stA
def Rng.setSrc (r : Rng) (b : Bool) (s : SrcSt) : Rng := if b then { r with stB := s } else { r with stA := s }

/-- Generation stops (R389). -/
def Dev.rngStop (d : Dev) : Dev := d.onRng fun r => { r with stopped := true }

/-- A source fails a test: 0 start-up, 1 repetition count, 2 adaptive proportion. The Bool says that ENTROPY_FAIL
is raised (R388, R389). -/
def Dev.sourceFail (d : Dev) (b : Bool) (test : Nat) : Bool × Dev :=
  let d := d.onRng fun r =>
    let r := r.setSrc b .failed
    let r := if b then { r with failsB := satInc 16 r.failsB } else { r with failsA := satInc 16 r.failsA }
    { r with err := setBit r.err (1 + test + 3 * b2n b) }
  if d.rng.activeB == b then
    if d.rng.src (!b) = .ok then
      let d := d.onRng fun r => { r with activeB := !b }
      (false, d.logEvent 0x143 2 [u8 (b2n b), u8 (b2n (!b)), u8 test])
    else if d.rng.src (!b) = .start && !d.rng.ready then (false, d)
    else if d.rng.stopped then (false, d)
    else (true, d.rngStop)
  else if d.rng.src (!b) != .ok && !d.rng.stopped && (d.rng.ready || d.rng.src (!b) != .start) then (true, d.rngStop)
  else (false, d)

/-- A source passes its start-up test; generation resumes with it where no other source was OK (R387, R389). -/
def Dev.sourceOk (d : Dev) (b : Bool) : Dev :=
  d.onRng fun r =>
    let r := r.setSrc b .ok
    if r.src (!b) = .ok then r
    else { r with activeB := b, stopped := r.condFail }

/-- A retest is requested (R388). -/
def Dev.retest (d : Dev) (b : Bool) : Dev :=
  let fails := if b then d.rng.failsB else d.rng.failsA
  if d.life.st = .fleet && decide (3 ≤ fails) then d.onRng fun r => { r with err := setBit r.err 9 }
  else if d.rng.src b = .failed then d.onRng fun r => r.setSrc b .start
  else d

/-- What an instance waits for is done as soon as the pool has the bytes (R391, R398). -/
def Dev.servePool (d : Dev) (i : Nat) : Dev :=
  match (d.inst i).need with
  | some .instantiate => if 48 ≤ d.rng.pool then d.instantiate i else d
  | some .reseed => if 32 ≤ d.rng.pool then d.reseed i else d
  | none => d

/-- A host request's next step of at most 4,096 bytes, with a reseed before it (R395). -/
def Dev.hostStep (d : Dev) (f : HostFill) : HostFill × Dev :=
  let left := f.count - f.data.length
  if left = 0 || d.past f.until_ || !d.canDraw 0 || d.rng.pool < 32 then (f, d)
  else
    let r := (d.reseed 0).randDraw 0 (Nat.min left 4096) false
    ({ f with data := f.data ++ r.1 }, r.2)

/-- As many steps as the pool allows; four cover the largest request. -/
def Dev.hostSteps (d : Dev) (f : HostFill) : HostFill × Dev :=
  let a := d.hostStep f
  let b := a.2.hostStep a.1
  let c := b.2.hostStep b.1
  c.2.hostStep c.1

/-- The response of RNG_READ (R295): filled, four zero bytes, the output. A partial fill is counted. -/
def Dev.hostAnswer (d : Dev) (f : HostFill) : Dev :=
  let d := if f.data.length < f.count then d.onRng fun r => { r with partialCount := satInc 16 r.partialCount } else d
  d.answer f.port f.slot 0 (le 4 f.data.length ++ zeros 4 ++ f.data)

/-- Serve the host requests in arrival order, and answer the complete ones (R395). -/
def Dev.serveHost (d : Dev) : Dev :=
  let fs := d.rng.fills
  (d.onRng fun r => { r with fills := [] }).each fs fun d f =>
    let s := d.hostSteps f
    if s.1.data.length < s.1.count then s.2.onRng fun r => { r with fills := r.fills ++ [s.1] }
    else s.2.hostAnswer s.1

/-- A conditioned block enters the pool and serves the waiting draws in class order (R388, R390, R394, R396). -/
def Dev.conditionerBlock (d : Dev) : Dev :=
  if d.rng.stopped || d.rng.condFail || d.rng.src d.rng.activeB != .ok then d
  else
    let d := d.onRng fun r =>
      { r with pool := Nat.min 512 (r.pool + 64), blocks := satInc 32 r.blocks, gathered := r.gathered + 64,
               activeB := if r.src r.preferB = .ok then r.preferB else r.activeB }
    let d := d.each (List.range d.nInst) fun d i => d.servePool i
    d.fillClosePool.serveHost

/-- Random output becomes ready: every instance is instantiated and the close pool filled (R397). -/
def Dev.randomReady (d : Dev) : Dev :=
  if d.rng.ready || d.rng.stopped || d.rng.gathered < 512 || (d.rng.stA != .ok && d.rng.stB != .ok) then d
  else
    let d := d.each (List.range d.nInst) fun d i => d.instantiate i
    (d.onRng fun r => { r with ready := true }).fillClosePool

/-- RNG_ICTRL.RESEED and REINST (R391, R392). -/
def Dev.ictrlReseed (d : Dev) (i : Nat) : Dev :=
  if (d.inst i).st = .ready then
    let d := d.onInst i fun x => { x with st := .wait, need := some .reseed }
    if d.rng.stopped then d else d.servePool i
  else d
def Dev.ictrlReinst (d : Dev) (i : Nat) : Dev :=
  if i < d.nInst then
    let d := d.onInst i fun x => { x with st := .wait, seeded := false, reqs := 0, need := some .instantiate }
    if d.rng.stopped then d else d.servePool i
  else d

/-- The known-answer tests: bit 0 of `bad` is the conditioner, bit 1 + i instance i. The Bool says that
ENTROPY_FAIL is reported (R393). -/
def Dev.knownAnswer (d : Dev) (bad : Nat) : Bool × Dev :=
  let cond := bad.testBit 0
  let d :=
    if cond then
      ((d.rngStop).onRng fun r => { r with condFail := true, err := setBit r.err 7 }).logEvent 0x144 3 [0#8]
    else if d.rng.condFail then
      d.onRng fun r => { r with condFail := false, stopped := r.stA != .ok && r.stB != .ok }
    else d
  (List.range d.nInst).foldl (fun (acc : Bool × Dev) i =>
    if bad.testBit (1 + i) then
      let d := acc.2.onInst i fun x => { x with st := .failed, need := none }
      (true, (d.onRng fun r => { r with err := setBit r.err 8 }).logEvent 0x144 3 [u8 (1 + i)])
    else if (acc.2.inst i).st = .failed then
      let d := acc.2.onInst i fun x => { x with st := .wait, seeded := false, reqs := 0, need := some .instantiate }
      (acc.1, d.servePool i)
    else acc) (cond, d)

/-- A PURGE clears every instance and the pool; a DESTROY the close pool too (R398). -/
def Dev.rngPurge (d : Dev) (destroy : Bool) : Dev :=
  let d := d.onRng fun r => { r with pool := 0, cpool := if destroy then 0 else r.cpool }
  d.each (List.range d.nInst) fun d i => d.onInst i fun x =>
    if x.seeded then { x with st := .wait, seeded := false, reqs := 0, need := some .instantiate } else x

/-- The sources stop with the fast clocks, and start their start-up tests with them (R387, R397). -/
def Rng.clocksOff (r : Rng) : Rng := { r with stA := .off, stB := .off }
def Rng.clocksOn (r : Rng) : Rng := { r with stA := .start, stB := .start }
def Dev.rngWake (d : Dev) : Dev :=
  (d.onRng Rng.clocksOn).each (List.range d.nInst) fun d i => d.onInst i fun x => { x with stale := true }

end Sys2Proof.Machine
end

