-- ==== Sys2Proof/Machine/KeyOps.lean ====
section
/-! DEFINITION. The key store's operations: slots and attributes, the key log, derivation, statements, the key
store's own operations, and destruction (R358 to R385). -/
namespace Sys2Proof.Machine

/-- Change the key store. -/
def Dev.onKeys (d : Dev) (f : Keys → Keys) : Dev := { d with keys := f d.keys }

/-- Fields of an attribute word (R359). -/
def attrAlg (a : Nat) : Nat := a % 16
def attrUse (a : Nat) : Nat := a >>> 4 % 8
def attrOrigin (a : Nat) : Nat := a >>> 8 % 4
def attrExport (a : Nat) : Bool := a.testBit 10
def attrWrapOut (a : Nat) : Bool := a.testBit 11
def attrLc (a : Nat) : Nat := a >>> 12 % 8
def attrPersist (a : Nat) : Bool := a.testBit 15
def attrFlavour (a : Nat) : Nat := a >>> 16 % 4
def attrOwner (a : Nat) : Nat := a >>> 20 % 16
def attrClass (a : Nat) : Nat := a >>> 24 % 16
def attrSec (a : Nat) : Nat := a >>> 32 % 256

/-- An attribute word with another ORIGIN. -/
def withOrigin (a o : Nat) : Nat := a - attrOrigin a <<< 8 + o <<< 8

/-- An attribute word from ALG, USE, ORIGIN, WRAP_OUT, LC_BIND, PERSIST, OWNER and KCLASS, with FLAVOUR none. -/
def mkAttr (alg use origin : Nat) (wrapOut : Bool) (lc : Nat) (persist : Bool) (owner cls : Nat) : Nat :=
  alg + use <<< 4 + origin <<< 8 + b2n wrapOut <<< 11 + lc <<< 12 + b2n persist <<< 15 + owner <<< 20 + cls <<< 24

/-- A slot holds a key. -/
def KeySlot.full (k : KeySlot) : Bool := attrAlg k.attr != 0

/-- Bytes of a key of an ALG (R359). -/
def algLen (alg : Nat) : Nat :=
  match alg with
  | 1 => 32 | 2 => 32 | 3 => 64 | 4 => 64 | 5 => 48 | 6 => 32 | 7 => 2305 | _ => 0

/-- The class of a slot's range (R358). -/
def slotClass (n : Nat) : Nat :=
  if n ≤ 63 then 0 else if n = 64 then 6 else if n ≤ 67 then 2 else if n ≤ 127 then 8
  else if n ≤ 383 then 1 else if n ≤ 511 then 3 else if n ≤ 1023 then 7
  else if n = 1024 then 5 else if n = 1025 then 4 else 7

/-- A slot that belongs to an absent lane (R358). -/
def Dev.slotAbsent (d : Dev) (n : Nat) : Bool :=
  d.variant = .vtz8032 && ((decide (192 ≤ n) && decide (n ≤ 255)) || (decide (320 ≤ n) && decide (n ≤ 383)))

/-- The ALG is defined and fits the slot's size (R358, R359). -/
def algFits (n alg : Nat) : Bool :=
  decide (1 ≤ alg) && decide (alg ≤ 7) && (decide (1024 ≤ n) || alg != 7)

/-- LC_BIND admits use in a state (R359). -/
def lcAdmits (bind : Nat) (st : LcSt) : Bool :=
  match bind, st with
  | 0, .provision | 0, .fleet | 0, .service => true
  | 1, .fleet => true
  | 2, .service => true
  | 3, .provision => true
  | 4, .fleet | 4, .service => true
  | _, _ => false

/-- OWNER names a requester: 0 the supervisor, 1 + c comb controller c (R359). -/
def owns (who owner : Nat) : Bool := owner == who || owner == 15

/-- Every code of an attribute word is defined, and its reserved bits are zero (R359). -/
def attrDefined (a : Nat) : Bool :=
  decide (attrAlg a ≤ 7) && decide (1 ≤ attrUse a) && decide (attrUse a ≤ 6) && !a.testBit 7
    && decide (attrLc a ≤ 4) && decide (attrFlavour a ≤ 2) && a >>> 18 % 4 == 0
    && (decide (attrOwner a ≤ 8) || attrOwner a == 15) && decide (attrClass a ≤ 8) && a >>> 28 % 16 == 0
    && a >>> 40 == 0 && (attrFlavour a == 2 || attrSec a == 0)

/-- The OWNER that a slot's range has, where *Slot map* names one: the supervisor, or the comb of the slot's lane (R358). -/
def slotOwner (n : Nat) : Option Nat :=
  if n ≤ 127 || n = 1024 || n = 1025 then some 0
  else if n ≤ 255 then some (1 + (n - 128) / 16)
  else if n ≤ 383 then some (1 + (n - 256) / 16)
  else none

/-- An attribute word may stand in a slot (R358 to R360). -/
def attrFits (n a : Nat) : Bool :=
  attrDefined a && algFits n (attrAlg a) && attrClass a == slotClass n && (slotOwner n).all (fun o => o == attrOwner a)
    && (!attrExport a || attrOrigin a == 1)

/-- The HUK (R361). -/
def Dev.hukBytes (d : Dev) : List Byte := fitBytes 32 (d.keys.huk.getD Config.huk)

/-- The derivation engine uses the HUK in PROVISION, FLEET, SERVICE and TAMPERED (R361). -/
def Dev.hukUsable (d : Dev) : Bool := !d.keys.hukDead && decide (d.life.st ≠ .blank) && decide (d.life.st ≠ .retired)

/-- The internal keys (R362): the derivation root, and those that key log records are sealed under. -/
def Dev.kRoot (d : Dev) : List Byte := shake (ascii "QKDR" ++ d.hukBytes) 64
def Dev.kImgId (d : Dev) : List Byte := shake (ascii "QKII" ++ d.hukBytes) 32
def Dev.kImgGen (d : Dev) (g : Nat) : List Byte := shake (ascii "QKIG" ++ d.hukBytes ++ le 2 g) 32

/-- M_c, the measurement of comb `c` (R368). -/
def Dev.combMeasure (d : Dev) (c : Nat) : List Byte :=
  let m := vget d.keys.meas.ext c []
  shake (d.keys.meas.mS ++ if m.isEmpty then zeros 64 else shake m 64) 64

/-- The signer of a requester's code and its running security version (R369, R370): the extension's where one is
loaded, else the firmware's. -/
def Dev.signerOf (d : Dev) (who : Nat) : List Byte × Nat :=
  let m := if who = 0 then [] else vget d.keys.meas.ext (who - 1) []
  if m.isEmpty then (d.keys.meas.fwSigner, d.keys.meas.fwRun) else (bytesAt m 0x60 64, numAt m 0x0C 1)

/-- The binding of a derivation for a requester (R369): exact, lineage or none. -/
def Dev.bindingOf (d : Dev) (who flavour s : Nat) : List Byte :=
  match flavour with
  | 1 => if who = 0 then d.keys.meas.mS else d.combMeasure (who - 1)
  | 2 => (d.signerOf who).1 ++ le 4 s
  | _ => []

/-- The binding tag that a slot records (R369). -/
def bindingTag (binding : List Byte) : List Byte := if binding.isEmpty then zeros 16 else shake binding 16

/-- The requester whose code binds a slot's key: its owner, or the supervisor for a shared slot (R369). -/
def bindOwner (a : Nat) : Nat := if attrOwner a = 15 then 0 else attrOwner a
/-- The binding tag of a slot by its attribute word (R369, R371), and a lineage version above the running one (R370). -/
def Dev.tagOf (d : Dev) (a : Nat) : List Byte := bindingTag (d.bindingOf (bindOwner a) (attrFlavour a) (attrSec a))
def Dev.tooNew (d : Dev) (a : Nat) : Bool := attrFlavour a == 2 && decide ((d.signerOf (bindOwner a)).2 < attrSec a)

/-- A derived key (R369). -/
def deriveKey (src : List Byte) (flavour : Nat) (binding label : List Byte) (n : Nat) : List Byte :=
  shake (ascii "QKDF" ++ src ++ [u8 flavour] ++ binding ++ le 2 label.length ++ label ++ le 2 n) n

/-- The KEK of a shared secret (R133). -/
def Dev.kekOf (d : Dev) (ss : List Byte) (epoch : Nat) : List Byte :=
  shake (ascii "QKEK" ++ ss ++ le 8 epoch ++ d.keys.idDigest) 32

/-- AES key wrap and its inverse at their lengths. -/
def kw (kek key : List Byte) : List Byte := fitBytes (key.length + 8) (Config.kwWrap kek key)
def kwInv (kek w : List Byte) : Option (List Byte) := (Config.kwUnwrap kek w).map (fitBytes (w.length - 8))

/-- The public part of a key of an ALG (R380). -/
def pubOf (alg : Nat) (key : List Byte) : List Byte :=
  match alg with
  | 4 => fitBytes 1568 (Config.kemKeygen key).2
  | 5 => fitBytes 97 (Config.p384Pub key)
  | 6 => fitBytes 32 (Config.x25519Pub key)
  | 7 => fitBytes 1793 (Config.falconPub key)
  | _ => []

/-- The key of an ALG that a draw gives, with its public part. -/
def keyFrom (alg : Nat) (seed : List Byte) : List Byte × List Byte :=
  match alg with
  | 5 => let k := fitBytes 48 (Config.p384Keygen seed).1; (k, pubOf 5 k)
  | 7 => let k := Config.falconKeygen seed; (fitBytes 2305 k.1, fitBytes 1793 k.2)
  | a => let k := fitBytes (algLen a) seed; (k, pubOf a k)

/-- Bytes drawn for a key of an ALG. -/
def seedLen (alg : Nat) : Nat := if alg = 7 then 64 else if alg = 5 then 64 else algLen alg

/-- Bytes of the public part of a key of an ALG, and of its statement (R380). -/
def pubLen (alg : Nat) : Nat := match alg with | 4 => 1568 | 5 => 97 | 6 => 32 | 7 => 1793 | _ => 0
def statementLen (alg : Nat) : Nat := statementSize (pubLen alg)

/-- A key statement without its signature (R380). -/
def Dev.statementBody (d : Dev) (n : Nat) (k : KeySlot) : List Byte := k.statementBody n d.keys.idDigest

/-- A key statement, signed with the identity key (R380). DESIGN CHOICE (log entry 96): within the row that needs it. -/
def Dev.makeStatement (d : Dev) (n : Nat) (k : KeySlot) : List Byte × Dev :=
  let b := d.statementBody n k
  let r := d.randDraw 0 1024 false
  (signedStatement b (falconSig (d.keySlot 1024).key b r.1), r.2)

/-- A key generated inside the device, with its statement when it is persistent (R380). -/
def Dev.generate (d : Dev) (n attr inst : Nat) : KeySlot × Dev :=
  let r := d.randDraw inst (seedLen (attrAlg attr)) true
  let k := keyFrom (attrAlg attr) r.1
  let slot : KeySlot :=
    { attr := attr, key := k.1, pub := k.2, tag := d.tagOf attr, created := d.now, pcyc := d.time.aon.pcyc, meas := d.keys.meas.mS }
  if attrPersist attr then
    let s := r.2.makeStatement n slot
    ({ slot with statement := s.1 }, s.2)
  else (slot, r.2)

/-- The change that a written record makes (R363, R379). -/
def Keys.apply (k : Keys) (r : KeyRec) : Keys :=
  let k := { k with counter := Nat.max k.counter r.counter }
  match r.kind with
  | 1 => { k with slots := spSet (fun _ => {}) k.slots r.index r.slot }
  | 2 => { k with slots := spSet (fun _ => {}) k.slots r.index {} }
  | 3 => { k with trust := vupd k.trust r.index fun _ => r.trust }
  | 4 => { k with trust := vupd k.trust r.index fun _ => {} }
  | 5 => { k with cert := r.body }
  | 6 => { k with meas := { k.meas with extMin := vupd k.meas.extMin r.index fun _ => unle r.body } }
  | _ => k

/-- The key that a record of a kind is sealed under (R363). -/
def keySel (kind index : Nat) : Nat :=
  if kind = 1 || kind = 2 then (if slotClass index = 5 || slotClass index = 6 then 0 else 1) else 0

/-- Records under k_img_gen are no longer written once g reaches 256 (R362). -/
def Keys.genClosed (k : Keys) (kind index : Nat) : Bool := keySel kind index == 1 && decide (256 ≤ k.g)

/-- The plaintext body of a record (R363): of a slot put the attribute word, the binding tag, the key and a generated key's statement; a
trust put is laid out as the payload that delivers it. DEDUCED (log entry 98). -/
def KeyRec.bodyBytes (r : KeyRec) : List Byte :=
  match r.kind with
  | 1 => le 8 r.slot.attr ++ fitBytes 16 r.slot.tag ++ r.slot.key ++ (if attrOrigin r.slot.attr = 0 then r.slot.statement else [])
  | 3 => [u8 r.trust.purpose, u8 r.trust.role, u8 r.trust.alg] ++ zeros 5 ++ r.trust.key
  | _ => r.body

/-- A record's head (R363). A mark's index field is the state entered (R442). -/
def KeyRec.head (r : KeyRec) : List Byte :=
  le 8 r.seq ++ [u8 r.kind, u8 r.sel] ++ le 2 r.index ++ le 4 r.bodyBytes.length ++ le 8 r.counter ++ le 4 r.g ++ zeros 4

/-- A record as it stands in its sectors: head, sealed body, tag, and zeros to a whole row of 48 bytes (R363). -/
def Dev.recBytes (d : Dev) (r : KeyRec) : List Byte :=
  let key := if r.sel = 0 then d.kImgId else d.kImgGen r.g
  let c := gcm key (le 8 r.seq ++ le 4 r.g) r.head r.bodyBytes
  padTo 48 (r.head ++ c.1 ++ c.2)

/-- Bytes of a record of a body, and of a record (R363). -/
def recRows (body : Nat) : Nat := ceilDiv (32 + body + 16) 48 * 48
def KeyRec.size (r : KeyRec) : Nat := recRows r.bodyBytes.length

/-- The live state as fresh records (R363, R364): the newest transition mark first, with the counter, then the certificate, the extension
versions, the trust table and the persistent slots that may still be recorded. -/
def Keys.liveRecs (k : Keys) : List KeyRec :=
  let mark : KeyRec := ((k.log.find? fun r => r.kind == 7 && r.mark.isSome).getD {})
  let cert : List KeyRec := if k.cert.isEmpty then [] else [{ kind := 5, body := k.cert }]
  let exts : List KeyRec := k.meas.extMin.toList.zipIdx.filterMap fun v => if v.1 = 0 then none else some { kind := 6, index := v.2, body := [u8 v.1] }
  let trust : List KeyRec := k.trust.toList.zipIdx.filterMap fun t => if t.1.purpose = 0 then none else some { kind := 3, index := t.2, trust := t.1 }
  let slots : List KeyRec := (k.slots.filter fun s => attrPersist s.2.attr && !k.genClosed 1 s.1).map fun s => { kind := 1, index := s.1, slot := s.2 }
  (mark :: (cert ++ exts ++ trust ++ slots)).zipIdx.map fun r =>
    { r.1 with seq := k.nextRec + r.2, sel := keySel r.1.kind r.1.index, g := k.g, counter := k.counter }

/-- Bytes of the log's live content, of a half of its sectors, and of what stands in the active half (R363, R364). -/
def Keys.live (k : Keys) : Nat := (k.liveRecs.map KeyRec.size).sum
def halfBytes : Nat := 49152
def Keys.used (k : Keys) : Nat := (k.log.map KeyRec.size).sum

/-- The live content stays within its bound with a record of `body` bytes in place of what it replaces (R364). -/
def Keys.room (k : Keys) (kind index body : Nat) : Bool :=
  let old := k.liveRecs.filter fun r => r.kind == kind && r.index == index && kind != 7
  decide (k.live + (if kind = 7 then 0 else recRows body) ≤ 45056 + (old.map KeyRec.size).sum)

/-- The live state is written into the other half, and the full half is erased (R364). -/
def Keys.copied (k : Keys) : Keys :=
  { k with log := k.liveRecs.reverse, nextRec := k.nextRec + k.liveRecs.length, half := 1 - k.half }

/-- A record is written and takes effect; the half that has no room for it is left first (R362 to R364). -/
def Keys.record (k : Keys) (r : KeyRec) : Keys :=
  if k.genClosed r.kind r.index then k.apply r
  else
    let k := if halfBytes < k.used + r.size then k.copied else k
    { (k.apply r) with nextRec := k.nextRec + 1, log := { r with seq := k.nextRec } :: k.log }

/-- A record as it is given to the log: the key it is sealed under, the generation, and the counter (R363). -/
def Keys.sealed (k : Keys) (r : KeyRec) : KeyRec :=
  { r with sel := keySel r.kind r.index, g := k.g, counter := if r.counter = 0 then k.counter else r.counter }

/-- A record begins to be programmed (R364). -/
def Dev.keyWrite (d : Dev) (r : KeyRec) (p : KeyPending) : Dev :=
  d.onKeys fun k => { k with pending := k.pending ++ [{ p with rec_ := k.sealed r }] }

/-- A record that takes effect with the operation that makes it, and does not wait on its own. -/
def Dev.keyRecord (d : Dev) (r : KeyRec) : Dev := d.onKeys fun k => k.record (k.sealed r)

/-- A slot is cleared; a persistent one with a slot-clear record (R381, R383). -/
def Dev.clearSlot (d : Dev) (n : Nat) : Dev :=
  if attrPersist (d.keySlot n).attr then d.keyRecord { kind := 2, index := n } else d.setKey n {}

/-- Every occupied slot that meets a condition is cleared. -/
def Dev.clearSlots (d : Dev) (p : Nat → KeySlot → Bool) : Dev :=
  d.each (d.keys.slots.filter fun s => p s.1 s.2) fun d s => d.clearSlot s.1

/-- Slots zeroised in key RAM by a tamper response: no record is written (R41). -/
def Dev.zeroiseSlots (d : Dev) (p : Nat → Bool) : Dev :=
  d.onKeys fun k => { k with slots := k.slots.filter fun s => !p (slotClass s.1) }

/-- The outcome of an operation stands in the requester's registers. -/
def Dev.onKeyOp (d : Dev) (who : Nat) (f : KeyOpRegs → KeyOpRegs) : Dev :=
  d.onKeys fun k => { k with ops := vupd k.ops who f }
def Dev.keyOpEnd (d : Dev) (who : Nat) (st : Status) : Dev :=
  d.onKeyOp who fun o => { o with busy := false, done := true, status := st.code }

/-- The last row of the record being programmed is written, or fails: the third failure gives it up (R364, R379,
R385). The Option is what completes. -/
def Dev.keyRecDone (d : Dev) (ok : Bool) : Option (Bool × KeyPending) × Dev :=
  match d.keys.pending with
  | [] => (none, d)
  | p :: ps =>
    if ok then
      let d := d.onKeys fun k => { (k.record p.rec_) with pending := ps }
      (some (true, p), match p.ram with | some s => d.setKey s.1 s.2 | none => d)
    else if 2 ≤ p.fails then
      (some (false, p), d.onKeys fun k => { k with pending := ps, err := setBit k.err 2 })
    else (none, d.onKeys fun k => { k with pending := { p with fails := p.fails + 1 } :: ps })

/-- A record opens under the key it names (R365). -/
def Keys.opens (k : Keys) (r : KeyRec) : Bool := !k.hukDead && (r.sel == 0 || r.g == k.g)

/-- What the log's replay gives: the persistent slots, the trust table, the certificate, the counter and the
extension versions (R364, R365). The counter is the highest that any record carries, so that it survives a DESTROY as R363 says.
DEDUCED (log entry 98). -/
def Keys.replayed (k : Keys) : Keys :=
  let counter := if k.hukDead then 0 else (k.log.map KeyRec.counter).foldl Nat.max 0
  let none_ : Keys := { k with slots := [], trust := Vector.replicate 16 {}, cert := [], counter := counter,
                               meas := { k.meas with extMin := Vector.replicate 8 0 } }
  (k.log.reverse.filter k.opens).foldl Keys.apply none_

/-- Replay at a main power-up (R365): after a canary failure key RAM holds what the log gives; otherwise the replay
checks that they agree, and reloads from the log what does not, a slot that the log does not hold among it. -/
def Keys.replay (k : Keys) (canaryFailed : Bool) : Keys :=
  let r := k.replayed
  let persistent := r.slots.filter fun s => attrPersist s.2.attr
  let stray := k.slots.any fun s => attrPersist s.2.attr && !persistent.any fun q => q.1 == s.1
  let differ := stray || persistent.any fun s => spGet (fun _ => ({} : KeySlot)) k.slots s.1 != s.2
  let slots := if canaryFailed then persistent
    else persistent.foldl (fun m s => spSet (fun _ => {}) m s.1 s.2) (k.slots.filter fun s => !attrPersist s.2.attr)
  { r with slots := slots, ready := true, err := if differ && !canaryFailed then setBit k.err 1 else k.err }

/-- A slot no longer fits the running code of its owner (R371). -/
def Dev.staleSlot (d : Dev) (k : KeySlot) : Bool :=
  let who := bindOwner k.attr
  match attrFlavour k.attr with
  | 1 => k.tag != bindingTag (d.bindingOf who 1 0)
  | 2 => k.tag != bindingTag (d.bindingOf who 2 (attrSec k.attr)) || decide ((d.signerOf who).2 < attrSec k.attr)
  | _ => false

/-- The clearing of R371 for the slots of an owner; they are counted, and KEY_BINDING_STALE logged once. -/
def Dev.clearStale (d : Dev) (mine : Nat → Bool) : Dev :=
  let bad := d.keys.slots.filter fun s => mine (attrOwner s.2.attr) && d.staleSlot s.2
  if bad.isEmpty then d
  else
    let d := d.each bad fun d s => d.clearSlot s.1
    let d := d.onKeys fun k => { k with stale := Nat.min (k.stale + bad.length) 16383 }
    d.logEvent 0x0C3 1 (le 2 bad.length)

/-- The trust entry of a purpose, if any. -/
def Keys.trustOf (k : Keys) (purpose : Nat) : Option Trust := k.trust.toList.find? fun t => t.purpose == purpose

/-- A credential installed for a role, by its key digest (R250). -/
def Keys.credential (k : Keys) (role : Nat) (digest : List Byte) : Option Trust :=
  k.trust.toList.find? fun t =>
    shake t.key 64 == digest && ((t.purpose == 2 && t.role == role) || (t.purpose == 1 && role == 4))

/-- A signature under a trust entry's algorithm. -/
def Trust.verifies (t : Trust) (m sig : List Byte) : Bool :=
  if t.alg = 2 then Config.ecdsaVerify t.key m sig else Config.falconVerify t.key m sig

/-- At debug level FULL the classes IDENTITY, RECEIPT, AUTHORITY, TRANSPORT and KEK are not used (R452). -/
def Dev.barred (d : Dev) (n : Nat) : Bool := decide (d.dbg.level = .full) && [5, 4, 3, 6, 2].contains (slotClass n)

/-- A source slot may be used by a requester for a use in the present state (R360). -/
def Dev.mayUse (d : Dev) (who n use : Nat) : Bool :=
  let a := (d.keySlot n).attr
  !d.barred n && attrUse a == use && owns who (attrOwner a) && lcAdmits (attrLc a) d.life.st

/-- A new key may enter DST at a requester's demand (R360). -/
def mayPut (who n a : Nat) : Bool := attrFits n a && owns who (attrOwner a)

/-- Slot numbers of an operation exist and fit the ALG (R382, check 2). -/
def Dev.slotCheck (d : Dev) (n alg : Nat) (sized : Bool) : Option Status :=
  if 1087 < n then some .badField
  else if d.slotAbsent n then some .badLane
  else if sized && !algFits n alg then some .badField
  else none

/-- The first failing check of a list. -/
def firstBad : List (Bool × Status) → Option Status
  | [] => none
  | (bad, s) :: cs => if bad then some s else firstBad cs

/-- KEY_ATTR of a requester as one word. -/
def KeyOpRegs.attr (o : KeyOpRegs) : Nat := o.attrLo.toNat + o.attrHi.toNat * 2 ^ 32

/-- The key log has no room for a persistent key of an ALG, or no longer takes it (R362, R364). -/
def Dev.noLogRoom (d : Dev) (n a stmt : Nat) : Bool :=
  attrPersist a && !d.keys.room 1 n (24 + algLen (attrAlg a) + stmt)
def Dev.logClosed (d : Dev) (n a : Nat) : Bool := attrPersist a && d.keys.genClosed 1 n

/-- A new slot enters key RAM at once, or through its key log record (R379). -/
def Dev.putSlot (d : Dev) (who n : Nat) (k : KeySlot) : Dev :=
  if attrPersist k.attr then
    (d.onKeyOp who fun o => { o with busy := true, done := false }).keyWrite { kind := 1, index := n, slot := k } { done := .op who }
  else (d.setKey n k).keyOpEnd who .ok

/-- The requester exists and is not busy (R1, R385). -/
def Dev.keyIdle (d : Dev) (who : Nat) : Bool := decide (who ≤ d.nCombs) && !(vget d.keys.ops who {}).busy

/-- GENERATE (R381, R382): symmetric and secret ALGs only. -/
def Dev.keyGenerate (d : Dev) (who : Nat) (resv : Bool) : Dev :=
  let o := vget d.keys.ops who {}
  let a := withOrigin o.attr 0
  let st := firstBad [(resv || !attrDefined a || attrAlg a == 0 || decide (3 < attrAlg a), .badField)]
    <|> d.slotCheck o.dst (attrAlg a) true
    <|> firstBad [((d.keySlot o.dst).full, .slotOccupied), (!mayPut who o.dst a || d.tooNew a || d.logClosed o.dst a, .attrDenied),
                  (!d.canDraw who, .notReady), (d.noLogRoom o.dst a 1536, .lenTooLarge)]
  match st with
  | some s => d.keyOpEnd who s
  | none =>
    let g := d.generate o.dst a who
    g.2.putSlot who o.dst g.1

/-- DERIVE by R369 from a derive-only slot or k_root (0x7FE), or by R133 from slot 67. -/
def Dev.keyDerive (d : Dev) (who flavour : Nat) (kek resv : Bool) : Dev :=
  let o := vget d.keys.ops who {}
  let a := withOrigin o.attr 2
  let root := !kek && o.src == 0x7FE
  let src := if kek then 67 else o.src
  let st := firstBad [(resv || !attrDefined a || attrAlg a == 0 || decide (2 < flavour), .badField)]
    <|> d.slotCheck o.dst (attrAlg a) true
    <|> (if root then none else d.slotCheck src 1 false)
    <|> firstBad [(!kek && decide (64 < o.len), .lenTooLarge), (!kek && !inSram who o.addr o.len, .badAddr),
                  (!root && !(d.keySlot src).full, .slotEmpty), ((d.keySlot o.dst).full, .slotOccupied),
                  (!mayPut who o.dst a || d.logClosed o.dst a || (!root && !d.mayUse who src 4)
                    || (root && (flavour == 0 || !d.hukUsable)) || (flavour != attrFlavour a && !kek)
                    || (flavour == 2 && decide ((d.signerOf who).2 < attrSec a)), .attrDenied),
                  (d.noLogRoom o.dst a 0, .lenTooLarge)]
  match st with
  | some s => d.keyOpEnd who s
  | none =>
    let n := algLen (attrAlg a)
    let binding := d.bindingOf who flavour (attrSec a)
    let key := if kek then d.kekOf (d.keySlot 67).key d.keys.epoch
      else deriveKey (if root then d.kRoot else (d.keySlot src).key) flavour binding (d.memGet who o.addr o.len) n
    let slot : KeySlot := { attr := a, key := fitBytes n key, pub := pubOf (attrAlg a) (fitBytes n key), tag := bindingTag binding,
                            created := d.now, pcyc := d.time.aon.pcyc, meas := d.keys.meas.mS }
    (if kek then d.setKey 67 {} else d).putSlot who o.dst slot

/-- WRAP of SRC under the current KEK slot to KEY_ADDR. -/
def Dev.keyWrap (d : Dev) (who : Nat) (resv : Bool) : Dev :=
  let o := vget d.keys.ops who {}
  let st := firstBad [(resv, .badField)] <|> d.slotCheck o.src 1 false
    <|> firstBad [(!inSram who o.addr ((d.keySlot o.src).key.length + 8), .badAddr),
                  (!(d.keySlot o.src).full || !(d.keySlot 65).full, .slotEmpty),
                  (!attrWrapOut (d.keySlot o.src).attr || !owns who (attrOwner (d.keySlot o.src).attr)
                    || !lcAdmits (attrLc (d.keySlot o.src).attr) d.life.st || !d.mayUse who 65 3, .attrDenied)]
  match st with
  | some s => d.keyOpEnd who s
  | none => (d.memPut who o.addr (kw (d.keySlot 65).key (d.keySlot o.src).key)).keyOpEnd who .ok

/-- UNWRAP of KEY_LEN bytes at KEY_ADDR under the wrap-only slot SRC into DST. -/
def Dev.keyUnwrap (d : Dev) (who : Nat) (resv : Bool) : Dev :=
  let o := vget d.keys.ops who {}
  let a := withOrigin o.attr 1
  let st := firstBad [(resv || !attrDefined a || attrAlg a == 0, .badField)]
    <|> d.slotCheck o.dst (attrAlg a) true <|> d.slotCheck o.src 1 false
    <|> firstBad [(o.len == 0, .badLength), (decide (2320 < o.len), .lenTooLarge), (!inSram who o.addr o.len, .badAddr),
                  (!(d.keySlot o.src).full, .slotEmpty), ((d.keySlot o.dst).full, .slotOccupied),
                  (!mayPut who o.dst a || d.tooNew a || d.logClosed o.dst a || !d.mayUse who o.src 3, .attrDenied),
                  (d.noLogRoom o.dst a 0, .lenTooLarge)]
  match st with
  | some s => d.keyOpEnd who s
  | none =>
    match kwInv (d.keySlot o.src).key (d.memGet who o.addr o.len) with
    | none => d.keyOpEnd who .noKey
    | some key =>
      if key.length = algLen (attrAlg a) then
        d.putSlot who o.dst { attr := a, key := key, pub := pubOf (attrAlg a) key, tag := d.tagOf a, created := d.now,
                              pcyc := d.time.aon.pcyc, meas := d.keys.meas.mS }
      else d.keyOpEnd who .noKey

/-- OPEN_DST marks an empty slot for the next tile result, with ORIGIN TILE_RESULT. -/
def Dev.keyOpenDst (d : Dev) (who : Nat) (resv : Bool) : Dev :=
  let o := vget d.keys.ops who {}
  let a := withOrigin o.attr 3
  let st := firstBad [(resv || !attrDefined a || attrAlg a == 0, .badField)]
    <|> d.slotCheck o.dst (attrAlg a) true
    <|> firstBad [((d.keySlot o.dst).full, .slotOccupied), (!mayPut who o.dst a || d.tooNew a || d.logClosed o.dst a, .attrDenied),
                  (d.noLogRoom o.dst a 0, .lenTooLarge)]
  match st with
  | some s => d.keyOpEnd who s
  | none => (d.setKey o.dst { openFor := some a }).keyOpEnd who .ok

/-- CLEAR zeroises DST, with a slot-clear record if it is persistent; the identity and transport keys end only with a
transition to RETIRED (R372). -/
def Dev.keyClear (d : Dev) (who : Nat) (resv : Bool) : Dev :=
  let o := vget d.keys.ops who {}
  let k := d.keySlot o.dst
  let st := firstBad [(resv, .badField)] <|> d.slotCheck o.dst 1 false
    <|> firstBad [(k.full && (!owns who (attrOwner k.attr) || slotClass o.dst == 5 || slotClass o.dst == 6
                    || (attrPersist k.attr && d.keys.genClosed 2 o.dst)), .attrDenied)]
  match st with
  | some s => d.keyOpEnd who s
  | none =>
    if attrPersist k.attr then
      (d.onKeyOp who fun o => { o with busy := true, done := false }).keyWrite { kind := 2, index := o.dst } { done := .op who }
    else (d.setKey o.dst {}).keyOpEnd who .ok

/-- INFO returns DST's attribute word. -/
def Dev.keyInfo (d : Dev) (who : Nat) (resv : Bool) : Dev :=
  let o := vget d.keys.ops who {}
  let k := d.keySlot o.dst
  let st := firstBad [(resv, .badField)] <|> d.slotCheck o.dst 1 false
    <|> firstBad [(k.full && !owns who (attrOwner k.attr), .attrDenied)]
  match st with
  | some s => d.keyOpEnd who s
  | none => (d.onKeyOp who fun o => { o with attrLo := lo32 k.attr, attrHi := hi32 k.attr }).keyOpEnd who .ok

/-- LOAD_LANE loads SRC into the lane key register that KEY_LANE names: 0 seal current, 1 seal previous, 2 and 3 verify
context 0 and 1. -/
def Dev.keyLoadLane (d : Dev) (who : Nat) (resv : Bool) : Dev :=
  let o := vget d.keys.ops who {}
  let lane := o.laneReg % 64
  let reg := o.laneReg / 64 % 4
  let k := d.keySlot o.src
  let st := firstBad [(resv, .badField)] <|> d.slotCheck o.src 1 false
    <|> firstBad [(decide (d.nLanes ≤ lane), .badLane), (!k.full, .slotEmpty),
                  (attrAlg k.attr != 1 || !d.mayUse who o.src (if reg ≤ 1 then 1 else 2)
                    || (who != 0 && who != 1 + lane / 8), .attrDenied)]
  match st with
  | some s => d.keyOpEnd who s
  | none =>
    (d.onLane lane fun l =>
      match reg with
      | 0 => { l with key := some { (l.key.getD {}) with key := k.key } }
      | 1 => { l with prev := some { (l.prev.getD {}) with key := k.key } }
      | 2 => { l with ctx0 := { l.ctx0 with key := some (0, k.key) } }
      | _ => { l with ctx1 := { l.ctx1 with key := some (0, k.key) } }).keyOpEnd who .ok

/-- The key epoch that holds a custody time (R375): its start, as a custody time. -/
def Dev.keyEpochOf (d : Dev) (t : Nat) : Nat := t / 2 ^ 32 / d.keys.epochS * d.keys.epochS * 2 ^ 32

/-- The attribute words of the KEK slots: the shared secret, derive-only, and a KEK, wrap-only (R358). -/
def secretAttr : Nat := mkAttr 2 4 3 false 0 false 0 2
def kekAttr : Nat := mkAttr 1 3 2 false 0 false 0 2

/-- An encapsulation to the authority's key, whose shared secret enters slot 67 (R375). -/
def Dev.encapsKek (d : Dev) (epoch : Nat) : Option Kek × Dev :=
  match d.keys.trustOf 3 with
  | none => (none, d)
  | some t =>
    let r := d.randDraw 0 32 true
    let e := Config.kemEncaps t.key r.1
    let ct := fitBytes 1568 e.1
    (some { epoch := epoch, id := shake ct 16, auth := shake t.key 64, encap := ct },
      r.2.setKey 67 { attr := secretAttr, key := fitBytes 32 e.2, tag := zeros 16, created := d.now, pcyc := d.time.aon.pcyc })

/-- A KEK is derived from slot 67 into the current slot, and slot 67 is cleared (R133, R375). -/
def Dev.putKek (d : Dev) (k : Kek) : Dev :=
  let key := d.kekOf (d.keySlot 67).key k.epoch
  ((d.setKey 65 { attr := kekAttr, key := key, tag := zeros 16, created := d.now, pcyc := d.time.aon.pcyc }).setKey 67 {}).onKeys fun q =>
    { q with kekEpoch := k.epoch, kekId := k.id, kekAuth := k.auth, encap := k.encap }

/-- The current KEK, if any, moves to slot 66 (R375); the key epoch that ends it, for the clearing of that slot. -/
def Dev.retireKek (d : Dev) (e : Nat) : Dev :=
  if (d.keySlot 65).full then
    (d.setKey 66 (d.keySlot 65)).onKeys fun q =>
      { q with prevEpoch := q.kekEpoch, prevId := q.kekId, prevAuth := q.kekAuth, prevEncap := q.encap, clear66 := some e }
  else d

/-- The KEK of the key epoch in force stands in slot 65. -/
def Dev.kekCurrent (d : Dev) : Bool := (d.keySlot 65).full && decide (d.keys.kekEpoch = d.keyEpochOf d.now)

/-- KEK preparation (R375): without the KEK of the present epoch, that one at once; otherwise that of the next epoch,
ahead of its boundary. A failed encapsulation leaves things as they are. -/
def Dev.kekPrepare (d : Dev) (ok : Bool) : Dev :=
  if !ok || !d.canDraw 0 || !d.time.servo.run || d.barred 67 then d
  else
    let now := d.keyEpochOf d.now
    if d.kekCurrent then
      let r := d.encapsKek (now + d.keys.epochS * 2 ^ 32)
      match r.1 with
      | some k => r.2.onKeys fun q => { q with nextKek := some k }
      | none => d
    else
      let r := d.encapsKek now
      match r.1 with
      | some k => ((r.2.retireKek now).putKek k).onKeys fun q => { q with epoch := now }
      | none => d

/-- A key epoch boundary is reached (R375): a KEK prepared for it is derived and in force, and the previous one stands in slot 66. A
changed KEY_EPOCH takes effect (R336). -/
def Dev.keyEpochBoundary (d : Dev) (period : Nat) : Dev :=
  let e := d.keyEpochOf d.now
  if !d.time.servo.run || e ≤ d.keys.epoch then d
  else
    let d := match d.keys.nextKek with
      | some k => if k.epoch = e && (d.keySlot 67).full then (d.retireKek e).putKek k else d
      | none => d
    d.onKeys fun q => { q with nextKek := none, epoch := e, epochS := period }

/-- Slot 66 is cleared at the later of the first lane epoch boundary after its key epoch boundary and 1 s after that
(R375); `next` gives the lane epoch boundary after a custody time. -/
def Dev.clearPrevKek (d : Dev) (next : Nat → Nat) : Dev :=
  match d.keys.clear66 with
  | some e =>
    if Nat.max (next e) (e + 2 ^ 32) ≤ d.now then
      (d.setKey 66 {}).onKeys fun q => { q with clear66 := none, prevEpoch := 0, prevId := [], prevAuth := [], prevEncap := [] }
    else d
  | none => d

/-- Firmware and extension manifests (R366, R367): the fields that the checks need. -/
def manifestOk (kind : Nat) (m : List Byte) : Bool :=
  m.length == 3248 && bytesAt m 0 4 == ascii "QMAN" && numAt m 4 1 == 1 && numAt m 5 1 == kind && numAt m 6 2 == 0
    && numAt m 8 4 == 3248 && numAt m 0xD 3 == 0 && numAt m 0x1C 4 == 0 && bytesAt m 0x7A1 7 == zeros 7
    && numAt m 0x7A8 2 == 1280 && bytesAt m 0x7AA 6 == zeros 6
    && decide (1 ≤ numAt m 0x10 4) && decide (numAt m 0x10 4 ≤ if kind = 1 then 2064384 else 262144)
    && shake (bytesAt m 0xA0 1793) 64 == bytesAt m 0x60 64
    && Config.falconVerify (bytesAt m 0xA0 1793) (m.take 0x7B0) (bytesAt m 0x7B0 1280)

/-- The image matches its digest (R366). -/
def imageOk (m image : List Byte) : Bool :=
  image.length == numAt m 0x10 4 * 6 && shake image 64 == bytesAt m 0x20 64

end Sys2Proof.Machine
end

