-- ==== Sys2Proof/Machine/Records.lean ====
section
/-! DEFINITION. The structures that leave the device as evidence: chain elements, receipts and proofs, close and
loss records, containers (R125 to R148). -/
namespace Sys2Proof.Machine

/-- record_digest and element digest (R73, R126). -/
def digest64 (x : List Byte) : List Byte := shake x 64

/-- The chain head after an element is appended (R73). -/
def chainNext (head element : List Byte) : List Byte := shake (head ++ digest64 element) 64

/-- The chain head before a stream's first element (R126). -/
def headZero (sid : Nat) (ident : List Byte) : List Byte := shake (ascii "QCH0" ++ le 8 sid ++ fitBytes 64 ident) 64

/-- Key digest of the receipt signing key (R126, R136). DESIGN CHOICE (log entry 90): zero where there is no such key. -/
def Dev.receiptKey (d : Dev) : List Byte := if (d.keySlot 1025).full then (d.keySlot 1025).digest else zeros 64

/-- The nonce of a unit (R70). -/
def gcmNonce (salt seq lane : Nat) : List Byte := le 4 salt ++ le 6 seq ++ le 2 lane

/-- A segment header (R127). -/
def segHeader (lane sid : Nat) (u : MediaUnit) (schuss : Bool) : List Byte :=
  let cut := if u.truncated then u.done else u.payload.length
  ascii "QSEG" ++ [1#8, 0x10#8] ++ le 2 (b2n u.truncated + b2n schuss * 2 + b2n u.uncertain * 4)
    ++ le 4 (144 + cut) ++ le 4 u.payload.length ++ le 8 sid ++ le 8 u.seq ++ le 8 u.time ++ le 8 u.key.epoch
    ++ gcmNonce u.key.salt u.seq lane ++ [u8 lane] ++ zeros 3 ++ fitBytes 32 u.desc.metadata ++ le 4 u.desc.index
    ++ zeros 28

/-- A sealed segment: header, ciphertext and tag (R71, R128). -/
def sealUnit (lane sid : Nat) (u : MediaUnit) (schuss : Bool) : List Byte :=
  let h := segHeader lane sid u schuss
  let c := gcm u.key.key (gcmNonce u.key.salt u.seq lane) h (if u.truncated then u.payload.take u.done else u.payload)
  h ++ c.1 ++ c.2

/-- A non-segment element: common header and body (R129). -/
def element (kind flags sid time : Nat) (body : List Byte) : List Byte :=
  ascii "QELM" ++ [1#8, u8 kind] ++ le 2 flags ++ le 4 (32 + body.length) ++ zeros 4 ++ le 8 sid ++ le 8 time ++ body

/-- OPEN body (R130). -/
def Dev.openBody (d : Dev) (lane : Nat) (policy : Policy) (options : Nat) (label : List Byte) : List Byte :=
  fitBytes 64 d.keys.idDigest ++ [u8 lane, u8 policy.code, u8 options, 0#8] ++ le 4 d.hive.epoch ++ le 4 d.hive.period
    ++ zeros 4 ++ fitBytes 32 label ++ d.receiptKey

/-- EPOCH_LINK body (R131). -/
def linkBody (c : EpochCap) (elements : Nat) (head : List Byte) : List Byte :=
  le 8 c.boundary ++ le 8 c.start ++ le 8 c.first ++ le 8 c.last ++ le 4 c.owed ++ zeros 4 ++ le 8 elements
    ++ fitBytes 64 head

/-- WRAPPED_KEY body (R132). -/
def wrappedBody (epochStart kekEpoch : Nat) (kekId authority kek : List Byte) (k : ContentKey) (encap : List Byte) :
    List Byte :=
  le 8 epochStart ++ le 8 kekEpoch ++ fitBytes 16 kekId ++ fitBytes 64 authority ++ fitBytes 40 (kw kek k.key)
    ++ le 4 k.salt ++ le 2 encap.length ++ zeros 2 ++ encap

/-- CLOSE body (R134). -/
def closeBody (lastSeq elements reason : Nat) (head : List Byte) : List Byte :=
  le 8 lastSeq ++ le 8 elements ++ [u8 reason] ++ zeros 7 ++ fitBytes 64 head

/-- An EPOCH_SIGNATURE element up to its signature: the 184 bytes that are signed (R135). -/
def signatureHead (flags sid time boundary from_ : Nat) (head rk : List Byte) : List Byte :=
  let b := le 8 boundary ++ le 8 from_ ++ fitBytes 64 head ++ fitBytes 64 rk ++ le 2 1280 ++ zeros 6
  (element 5 flags sid time (b ++ zeros 1280)).take 0xB8

/-- The same under the key that the job has fetched (R374). -/
def signatureKeyed (pre rk : List Byte) : List Byte := pre.take 0x70 ++ fitBytes 64 rk ++ pre.drop 0xB0

/-- A hive receipt (R136). `sig` is none for the unsigned layout. -/
def Dev.receipt (d : Dev) (m : Making) (flags from_ : Nat) (sig : Option (List Byte → List Byte)) : List Byte :=
  let h := ascii "QHRC" ++ [1#8, u8 m.kind.code] ++ le 2 flags ++ le 4 1584 ++ [u8 d.nLanes] ++ zeros 3
    ++ le 8 m.boundary ++ le 8 from_ ++ le 4 m.snapSeq ++ le 4 d.time.aon.pcyc ++ fitBytes 64 d.keys.idDigest
    ++ fitBytes 64 m.root ++ fitBytes 64 m.prev
  match sig with
  | some f =>
    let h := h ++ d.receiptKey ++ le 2 1280 ++ zeros 6
    h ++ fitBytes 1280 (f h)
  | none => h ++ zeros 64 ++ le 2 0 ++ zeros 6 ++ zeros 1280

/-- log₂ of the lane count (R109). -/
def Dev.treeDepth (d : Dev) : Nat := match d.variant with | .vtz8064 => 6 | .vtz8032 => 5

/-- One level of the Merkle tree from the level below (R109). -/
def merkleUp : List (List Byte) → List (List Byte)
  | a :: b :: rest => shake ([1#8] ++ a ++ b) 64 :: merkleUp rest
  | _ => []

/-- Every level of the tree, the leaf digests first (R109). -/
def merkleLevels : Nat → List (List Byte) → List (List (List Byte))
  | 0, ns => [ns]
  | n + 1, ns => ns :: merkleLevels n (merkleUp ns)

/-- The root over leaf records (R109). -/
def Dev.hiveRoot (d : Dev) (leaves : List (List Byte)) : List Byte :=
  ((merkleLevels d.treeDepth (leaves.map fun l => shake ([0#8] ++ l) 64)).getLast?.bind fun t => t.head?).getD []

/-- The sibling of node `i` at each level below the root (R138). -/
def siblings (levels : List (List (List Byte))) (i : Nat) : List (List Byte) :=
  levels.zipIdx.map fun l => (l.1[(i >>> l.2) ^^^ 1]?).getD (zeros 64)

/-- A hive proof for one lane (R138). -/
def Dev.hiveProof (d : Dev) (leaves : List (List Byte)) (lane boundary : Nat) (receiptDigest : List Byte) : List Byte :=
  let lv := merkleLevels d.treeDepth (leaves.map fun l => shake ([0#8] ++ l) 64)
  ascii "QHPF" ++ [1#8, u8 lane, u8 d.treeDepth, 0#8] ++ le 8 boundary ++ fitBytes 64 receiptDigest
    ++ fitBytes 96 (leaves.getD lane []) ++ (siblings (lv.take d.treeDepth) lane).flatten

/-- The leaf status of a lane (R108). -/
def leafStatus (sealing : Bool) (st : LaneState) : Nat :=
  if !sealing then 0
  else match st with
    | .active => 1 | .drain => 2 | .frozen | .fault | .schuss => 3 | .off | .idle => 0

/-- The leaf record of a shadow (R108). -/
def Shadow.leaf (s : Shadow) (lane : Nat) : List Byte :=
  let st := leafStatus s.sealing s.state
  if st = 0 then [u8 lane, 0#8] ++ zeros 2 ++ le 4 s.owed ++ zeros 88
  else [u8 lane, u8 st] ++ zeros 2 ++ le 4 s.owed ++ le 8 s.stream ++ le 8 s.lastSeq ++ le 8 s.elements
    ++ fitBytes 64 s.head

/-- The common header of a close or loss record (R139). -/
def Dev.recordHeader (d : Dev) (magic : String) (flags len pcyc stop : Nat) (prev : List Byte) : List Byte :=
  ascii magic ++ [1#8, 0#8] ++ le 2 (flags + b2n d.time.servo.uncertain * 2) ++ le 4 len ++ le 4 pcyc ++ le 8 stop
    ++ le 8 d.now ++ fitBytes 64 d.keys.idDigest ++ fitBytes 64 prev

/-- The signature field of a loss report or a close record: signed over every byte before it, or zero-filled in the
unsigned layout (R141, R142, R144). -/
def signField (b : List Byte) (sig : Option (List Byte → List Byte)) : List Byte :=
  match sig with
  | some f => let h := b ++ le 2 1280 ++ zeros 6; h ++ fitBytes 1280 (f h)
  | none => b ++ le 2 0 ++ zeros 6 ++ zeros 1280

/-- A loss entry (R141). -/
def lossEntry (sid seq time len ring outcome cause lane flags sealed last : Nat) : List Byte :=
  le 8 sid ++ le 8 seq ++ le 8 time ++ le 4 len ++ le 4 ring ++ [u8 outcome, u8 cause, u8 lane, u8 flags]
    ++ le 4 sealed ++ le 8 last

/-- A loss report (R141); `flags` holds UNSIGNED, RECONCILIATION and SIGN_FAILED. -/
def Dev.lossReport (d : Dev) (flags pcyc stop : Nat) (prev opening : List Byte) (entries : List (List Byte))
    (sig : Option (List Byte → List Byte)) : List Byte :=
  signField (d.recordHeader "QLOS" flags (1520 + 48 * entries.length) pcyc stop prev ++ le 4 entries.length ++ zeros 4
    ++ fitBytes 64 opening ++ entries.flatten) sig

/-- A container header (R145). -/
def Dev.containerHeader (d : Dev) (origin seq pcyc created : Nat) (prev : List Byte) : List Byte :=
  ascii "QCTN" ++ [1#8, u8 origin] ++ zeros 2 ++ le 8 seq ++ le 4 pcyc ++ zeros 4 ++ le 8 created
    ++ fitBytes 64 d.keys.idDigest ++ fitBytes 64 prev ++ zeros 96

/-- A trailer record over the container's bytes so far (R147). -/
def trailer (records : Nat) (bytes : List Byte) : List Byte :=
  frameOf 0x7F 0xFF 0 (le 4 records ++ zeros 4 ++ digest64 bytes)

/-- Bytes of a record in a container: its frame and its padded body (R146). -/
def framedLen (body : Nat) : Nat := 16 + ceilDiv body 16 * 16

/-- The records of a run of frames, up to the first frame that is malformed or incomplete (R146, R147). -/
def framesAux : Nat → List Byte → List (Nat × Nat × List Byte) × Bool
  | 0, bs => ([], bs.isEmpty)
  | n + 1, bs =>
    if bs.isEmpty then ([], true)
    else
      let len := numAt bs 4 4
      let body := (bs.drop 16).take len
      if numAt bs 0 1 != 0 && numAt bs 2 2 == 0 && numAt bs 12 4 == 0 && len != 0 && framedLen len ≤ bs.length
          && crc32 body == numAt bs 8 4 then
        let r := framesAux n (bs.drop (framedLen len))
        ((numAt bs 0 1, numAt bs 1 1, body) :: r.1, r.2)
      else ([], false)

/-- The whole frames of some bytes, and whether nothing else stands there. -/
def frames (bs : List Byte) : List (Nat × Nat × List Byte) × Bool := framesAux bs.length bs

end Sys2Proof.Machine
end

