-- ==== Sys2Proof/Machine/LaneOps.lean ====
section
/-! DEFINITION. The operations of a sealing lane: pages, descriptors, completion entries, acceptance, appends,
discharge, the verify direction and suspension (R50 to R92). -/
namespace Sys2Proof.Machine

/-- Context and ring pair by number. -/
def Lane.ctx (l : Lane) (x : Nat) : Ctx := if x = 0 then l.ctx0 else l.ctx1
def Lane.onCtx (l : Lane) (x : Nat) (f : Ctx → Ctx) : Lane :=
  if x = 0 then { l with ctx0 := f l.ctx0 } else { l with ctx1 := f l.ctx1 }
def Lane.ring (l : Lane) (x : Nat) : RingPair := if x = 0 then l.ring0 else l.ring1
def Lane.onRing (l : Lane) (x : Nat) (f : RingPair → RingPair) : Lane :=
  if x = 0 then { l with ring0 := f l.ring0 } else { l with ring1 := f l.ring1 }
def Dev.onCtx (d : Dev) (n x : Nat) (f : Ctx → Ctx) : Dev := d.onLane n fun l => l.onCtx x f
def Dev.onRing (d : Dev) (n x : Nat) (f : RingPair → RingPair) : Dev := d.onLane n fun l => l.onRing x f
def Dev.onRegs (d : Dev) (n : Nat) (f : LaneRegs → LaneRegs) : Dev := d.onLane n fun l => { l with regs := f l.regs }

/-- An error bit and an interrupt cause of a lane (R96). -/
def Dev.laneErr (d : Dev) (n b : Nat) : Dev := d.onRegs n fun r => { r with err := setBit r.err b }
def Dev.laneIrq (d : Dev) (n b : Nat) : Dev := d.onRegs n fun r => { r with irqStatus := setBit r.irqStatus b }

/-- The lane-fault notice (R259). -/
def Dev.laneNotice (d : Dev) (n x : Nat) : Dev :=
  let l := d.lane n
  d.notice 3 0x62 n ([u8 n, u8 x] ++ zeros 2 ++ le 4 l.regs.err.toNat ++ le 4 l.regs.irqStatus.toNat ++ le 4 l.ring0.err.toNat
    ++ le 4 l.ring1.err.toNat ++ zeros 4 ++ le 8 (if l.ctx0.dir = .closed then 0 else l.ctx0.stream) ++ le 8 d.now)

/-- Set a bit of RING_ERRx, with its interrupt, its event and its notice (R64, R96, R259). -/
def Dev.ringErr (d : Dev) (n x b : Nat) : Dev :=
  let d := (d.onRing n x fun r => { r with err := setBit r.err b }).laneIrq n 5
  (d.logEvent 0x0C1 1 ([u8 n, u8 x] ++ le 4 ((d.lane n).ring x).err.toNat)).laneNotice n x

/-- Log a lane fault (R87, R90). -/
def Dev.laneFault (d : Dev) (n x : Nat) : Dev :=
  (d.logEvent 0x0C0 3 ([u8 n] ++ le 4 (d.lane n).regs.err.toNat ++ le 4 (d.lane n).ctx0.stream)).laneNotice n x

/-- Pages of a payload (R52). -/
def pagesFor (len : Nat) : Nat := ceilDiv len 8192

/-- Pages that a unit holds. -/
def MediaUnit.pages (u : MediaUnit) : Nat :=
  if u.staged || decide (u.st = .checked) then 0 else pagesFor u.desc.payloadLen

/-- Pages that context 0 holds. -/
def Lane.held (l : Lane) : Nat :=
  (l.units.map MediaUnit.pages).sum + (match l.ctx0.cur with | some u => u.pages | none => 0)

/-- Pages that context 1 has of its reservation: at once as far as they are free, then each page that context 0
releases (R57). -/
def Lane.reserved (l : Lane) : Nat :=
  if l.ctx1.dir = .closed then 0 else Nat.min l.regs.ctx1Pages (64 - l.held)

/-- Pages free to context 0. -/
def Lane.freePages (l : Lane) : Nat := 64 - l.held - l.reserved

/-- The page capacity of context 0 (R57). -/
def Lane.capacity (l : Lane) : Nat := if l.ctx1.dir = .closed then 64 else 64 - l.regs.ctx1Pages

/-- Owed units in the lane buffer, their count and payload bytes (R20, R209). -/
def Lane.owed (l : Lane) : List MediaUnit := l.units.filter fun u => !u.staged
def Lane.owedUnits (l : Lane) : Nat := l.owed.length
def Lane.owedBytes (l : Lane) : Nat := (l.owed.map fun u => u.payload.length).sum

/-- The engine is at work. -/
def Lane.engineBusy (l : Lane) : Bool :=
  (l.units.any fun u => decide (u.st = .encrypting) && u.segment.isEmpty) || l.ctx0.running || l.ctx1.running

/-- The reservation of context 1 is complete: as many pages as CTX1_PAGES are not context 0's (R57). -/
def Lane.ctx1Ready (l : Lane) : Bool := decide (l.held + l.regs.ctx1Pages ≤ 64)

/-- The ring's completions flow: it is open and neither paused nor stopped (R63, R87, R262, R263). -/
def RingPair.flows (r : RingPair) : Bool := r.valid && !r.paused && !r.faulted && !r.severed

/-- The lane's DMA runs: it is neither off, frozen, in SCHUSS nor in FAULT (R88 to R90). -/
def Lane.runs (l : Lane) : Bool := l.st = .active || l.st = .drain

/-- A context may read its next descriptor: it is open, holds none, its ring flows and is not stopped, and intake of a
seal context has not stopped (R51, R67, R79, R90). -/
def Lane.mayRead (l : Lane) (x : Nat) : Bool :=
  let k := l.ctx x
  let r := l.ring x
  r.flows && !r.dead && decide (k.dir ≠ .closed) && !k.stopped && !k.broken && !k.closing && k.cur.isNone && k.job.isNone
    && r.inHead != r.inTail && !(decide (k.dir = .seal) && l.stream.ended)
    && (l.st = .active || (l.st = .drain && decide (k.dir ≠ .seal)))

/-- The unit uses the previous-key register (R72). -/
def Lane.usesPrev (l : Lane) (u : MediaUnit) : Bool :=
  match l.prev with
  | some p => decide (p.epoch = u.key.epoch)
  | none => false

/-- The parked unit uses it. -/
def Lane.parkedPrev (l : Lane) : Bool := l.units.any fun u => decide (u.st = .suspended) && l.usesPrev u

/-- A context-1 descriptor whose doorbell came by the expiry cycle of SUSP_MAX has not started yet (R94). -/
def Lane.tied (l : Lane) (p : Parked) : Bool :=
  match p.tie with
  | none => false
  | some t =>
    let next := match l.ctx1.job with | some c => if l.ctx1.running then l.ring1.inHead else c.index | none => l.ring1.inHead
    inRange 1 65536 (idxDiff t next) && (l.ctx1.job.isSome || l.mayRead 1)

/-- The parked unit goes ahead of the next context-1 job: SUSP_MAX has passed, or it uses the previous-key register
(R72, R82, R94). -/
def Lane.parkedFirst (l : Lane) : Bool :=
  match l.parked with
  | some p => (p.late && !l.tied p) || l.parkedPrev
  | none => false

/-- An idle engine takes the waiting verify job: context 1's once its reservation is complete, unless the parked unit goes
first, then context 0's, unless it is parked (R57, R80, R82). -/
def Lane.settle (l : Lane) : Lane :=
  if l.engineBusy || !l.runs then l
  else if l.ctx1.job.isSome && l.ctx1Ready && !l.parkedFirst then { l with ctx1 := { l.ctx1 with running := true } }
  else if l.ctx0.job.isSome && l.parked.isNone then { l with ctx0 := { l.ctx0 with running := true } }
  else l

/-- Free slots of a completion ring (R63). -/
def RingPair.room (r : RingPair) : Nat := 2 ^ r.cmpSize - idxDiff r.cmpTail r.cmpHead

/-- The next entry of a ring may be written: it flows, the lane's DMA runs, and the slots that the entry needs are free (R63). -/
def Lane.mayPost (l : Lane) (x : Nat) : Bool :=
  match (l.ring x).posts with
  | p :: _ => (l.ring x).flows && l.runs && decide (1 + p.conts.length ≤ (l.ring x).room)
  | [] => false

/-- The lane has a request of a kind at the arbiter: 0 for the payload fetch of context 0, then for each ring x: 1 + x for the
reads of a verify job, 3 + x for a descriptor read, 5 + x for a segment and its entry (R84). -/
def Lane.wants (l : Lane) (kind : Nat) : Bool :=
  match kind with
  | 0 => l.runs && (match l.ctx0.cur with | some u => decide (u.st = .fetching) | none => false)
  | 1 => l.runs && l.ctx0.job.isSome && l.ctx0.running
  | 2 => l.runs && l.ctx1.job.isSome && l.ctx1.running
  | 3 => l.mayRead 0
  | 4 => l.mayRead 1
  | 5 => l.mayPost 0
  | 6 => l.mayPost 1
  | _ => false

/-- The class of a request: that of its ring (R84). In SCHUSS a lane makes none of these (R89). -/
def Lane.classOf (l : Lane) (kind : Nat) : Nat := if kind = 0 || kind % 2 = 1 then l.ring0.cls else l.ring1.cls

/-- Requests that have become due join those that wait, with the edge at which each is promoted; those no longer wanted go. -/
def Lane.ask (l : Lane) (clk age : Nat) : Lane :=
  let old := l.waits.filter fun r => l.wants r.kind
  let new := (List.range 7).filter fun k => l.wants k && !old.any fun r => r.kind == k
  { l with waits := old ++ new.map fun k => { kind := k, cls := l.classOf k, at_ := some (clk + age) } }

/-- A request has been granted to its end. -/
def Lane.granted (l : Lane) (kind : Nat) : Lane := { l with waits := l.waits.filter fun r => r.kind != kind }

/-- The memory read requests of a fetch, each no larger than the port's maximum read request size (R86). -/
def Dev.readRequests (d : Dev) (p addr len : Nat) : Dev :=
  let m := (d.port p).pcie.maxRead
  d.each (List.range (ceilDiv len m)) fun d k => d.send (.hostRead p (addr + k * m) (Nat.min m (len - k * m)))

/-- A verify job that the engine has taken sends its read requests, from its park point where it was parked, and their completion
timeout begins (R81, R86, R276). -/
def Dev.startReads (d : Dev) (n x : Nat) : Dev :=
  let k := (d.lane n).ctx x
  let p := ((d.lane n).ring x).port
  match k.job with
  | some c =>
    if k.running && k.jobUntil == 0 then
      (d.onCtx n x fun k => { k with jobUntil := d.clk + (d.port p).pcie.cplLimit }).readRequests p (c.payloadAddr + k.jobAt) (c.payloadLen - k.jobAt)
    else d
  | none => d

/-- What a change of a lane brings about: an idle engine takes the job that waits, the job's reads go out, and requests come before the
arbiter (R82, R84, R86). -/
def Dev.settle (d : Dev) (n : Nat) : Dev :=
  (((d.onLane n Lane.settle).startReads n 0).startReads n 1).onLane n fun l => l.ask d.clk d.arb.age

/-- The bytes of a completion entry with PHASE clear (R58). -/
def entryBytes (typ status ring sid seq time len cookie : Nat) (spec : List Byte) : List Byte :=
  [u8 typ, 0#8] ++ le 2 (status % 4096) ++ le 4 ring ++ le 8 sid ++ le 8 seq ++ le 8 time ++ le 4 len ++ le 4 cookie
    ++ fitBytes 24 spec

/-- An entry joins the queue of its completion ring (R61). -/
def Dev.queuePost (d : Dev) (n x : Nat) (p : Post) : Dev := d.onRing n x fun r => { r with posts := r.posts ++ [p] }

/-- An ERROR entry for a descriptor (R59). -/
def Dev.postError (d : Dev) (n x : Nat) (c : Desc) (st : Status) : Dev :=
  d.queuePost n x { entry := entryBytes 4 st.code c.index 0 0 0 c.payloadLen c.cookie [], irq := true }

/-- An ELEMENT entry with its continuation entries (R59, R60). -/
def Dev.postElement (d : Dev) (n : Nat) (e : List Byte) (ends : Option WaitFor) : Dev :=
  let cs := (pieces 64 e).map (fitBytes 64)
  d.queuePost n 0
    { entry := entryBytes 5 0 e.length (numAt e 0x10 8) 0 (numAt e 0x18 8) 0 0 ([u8 (numAt e 5 1)] ++ le 2 cs.length)
      conts := cs, ends := ends }

/-- Slots that the queued entries need. -/
def RingPair.queued (r : RingPair) : Nat := (r.posts.map fun p => 1 + p.conts.length).sum

/-- A policy's destinations have all taken the segment (R21). -/
def MediaUnit.taken (u : MediaUnit) (p : Policy) : Bool :=
  decide (u.st = .appended) && (u.ringTook || p = .storeOnly) && (u.storeTook || p = .host)

/-- Discharge every unit whose destinations have taken it, and count it; its pages are released (R21, R22, R57). -/
def Lane.discharge (l : Lane) : Lane :=
  let gone := l.units.filter fun u => u.taken l.ctx0.policy
  Lane.settle
    { l with units := l.units.filter fun u => !u.taken l.ctx0.policy,
             regs := { l.regs with statUnits := Nat.min 0xFFFFFFFF (l.regs.statUnits + gone.length),
                                   statBytes := (l.regs.statBytes + (gone.map fun u => u.payload.length).sum) % 2 ^ 64 } }

/-- Change the unit with a sequence number. -/
def Lane.onUnit (l : Lane) (seq : Nat) (f : MediaUnit → MediaUnit) : Lane :=
  { l with units := l.units.map fun u => if u.seq = seq then f u else u }

/-- The store has taken a segment (R21). -/
def Dev.storeTakes (d : Dev) (n seq : Nat) : Dev :=
  (d.onLane n fun l => (l.onUnit seq fun u => { u with storeTook := true }).discharge).settle n

/-- The state of a lane that is neither frozen, in SCHUSS nor in FAULT and whose comb clock runs, from its contexts and
EN (R90). -/
def Lane.rest (l : Lane) : Lane :=
  { l with st := if l.ctx0.dir = .closed && l.ctx1.dir = .closed then (if l.regs.en then .idle else .off) else .active }

/-- A sealing context closes after its CLOSE element: its stream, key and ring pair go (R51, R65, R298). LANE_HEAD0 and
LANE_NEXT_SEQ read zero from then on. DESIGN CHOICE (log entry 72): R96 says so of LANE_STREAM only. -/
def Lane.closeSeal (l : Lane) : Lane :=
  { l with ctx0 := {}, ring0 := { l.ring0 with valid := false }, key := none, prev := none,
           stream := { label := l.stream.label, ended := true }, caps := [] }

/-- A lane serves a stream that the store keeps (R182). -/
def Lane.stores (l : Lane) : Bool := decide (l.ctx0.dir = .seal) && decide (l.ctx0.policy ≠ .host) && !l.stream.ended

/-- Some lane serves one. -/
def Dev.anyStored (d : Dev) : Bool := d.lanes.toList.any Lane.stores

/-- The CLOSE element's entry is posted: the context closes, and with the last stored stream the container is to end
(R182, R298). DESIGN CHOICE (log entry 84): DIR0 and VALID read open until then; R298 names the setting of DRAIN as the commit edge. -/
def Dev.sealClosed (d : Dev) (n : Nat) : Dev :=
  let stored := decide ((d.lane n).ctx0.policy ≠ .host)
  let d := d.onLane n fun l => l.closeSeal.rest
  if stored && !d.anyStored then { d with store := { d.store with era := d.store.era + 1 } } else d

/-- A verify context closes (R301). Only ACTIVE may be left by it: DRAIN waits for its own end, and FAULT for a lane reset or a
close (R90). -/
def Lane.closeVerify (l : Lane) (x : Nat) : Lane :=
  let l := (l.onCtx x fun _ => {}).onRing x fun r => { r with valid := false }
  if l.st = .active then l.rest else l

/-- The answer of a VERIFY_CLOSE (R301). -/
def Lane.verifyAnswer (l : Lane) (x : Nat) : List Byte :=
  le 8 (l.ctx x).verified ++ fitBytes 64 (l.ctx x).head ++ le 4 (l.ring x).inHead ++ zeros 4

/-- A VERIFY_CLOSE that waits for the descriptor in progress, and for the entries not yet posted, ends (R301); a ring that
stands until it is re-targeted holds it up no longer. -/
def Dev.verifyEnded (d : Dev) (n x : Nat) : Dev :=
  let k := (d.lane n).ctx x
  let r := (d.lane n).ring x
  if k.closing && ((k.job.isNone && r.posts.isEmpty) || r.faulted || r.severed) then
    let b := (d.lane n).verifyAnswer x
    (d.onLane n fun l => l.closeVerify x).finish (.verifyEnd n x) fun _ => b
  else d

/-- The last redelivered SEALED entry is posted: the RING_RETARGET completes (R303). -/
def Dev.redelivered (d : Dev) (n seq : Nat) : Dev :=
  if (d.lane n).redeliverTo = some seq then
    (d.onLane n fun l => { l with redeliverTo := none }).finish (.redeliver n 0) fun b => b
  else d

/-- A segment is written to its output area through the owning port as the unit is sealed, and in any case ahead of its SEALED entry;
under STORE_ONLY none is (R59, R65, R209). -/
def Dev.writeSegment (d : Dev) (n seq : Nat) : Dev :=
  let l := d.lane n
  match l.units.find? fun u => u.seq == seq with
  | some u =>
    if l.ctx0.policy = .storeOnly || u.written then d
    else (d.onLane n fun l => l.onUnit seq fun u => { u with written := true }).send (.hostWrite l.ring0.port u.desc.outputAddr u.segment)
  | none => d

/-- COMPLETION_ENTRY_POST: the oldest queued entry goes into free slots of its ring, a SEALED entry after its segment and an
ELEMENT after its continuation entries; PHASE follows R62 (R60 to R63). -/
def Dev.postEntry (d : Dev) (n x : Nat) : Dev :=
  let l := d.lane n
  let r := l.ring x
  match r.posts with
  | [] => d
  | p :: rest =>
    if !l.mayPost x then d
    else
      let slot := fun i => r.cmpBase + (idxAdd r.cmpTail i) % 2 ^ r.cmpSize * 64
      let typ := numAt p.entry 0 1
      let d := if typ = 2 then d.writeSegment n p.seq else d
      let d := d.each p.conts.zipIdx fun d c => d.send (.hostWrite r.port (slot (c.2 + 1)) c.1)
      let e := p.entry.set 1 (u8 (phaseOf r.cmpTail r.cmpSize))
      let d := d.send (.hostWrite r.port (slot 0) e)
      let d := if p.irq && r.coalTime = 0 then d.msix r.port r.msix else d
      let d := (d.onLane n fun l => l.granted (5 + x)).onRing n x fun r =>
        { r with posts := rest, cmpTail := idxAdd r.cmpTail (1 + p.conts.length),
                 coalAt := if p.irq && r.coalTime != 0 && r.coalAt.isNone then some (d.clk + r.coalTime * 1000) else r.coalAt }
      let d := if typ = 1 then d.onLane n fun l => l.onUnit p.seq fun u => { u with tokenPosted := true }
        else if typ = 2 then (d.onLane n fun l => (l.onUnit p.seq fun u => { u with ringTook := true }).discharge).redelivered n p.seq
        else d.verifyEnded n x
      let d := d.settle n
      match p.ends with
      | some w =>
        let tail := ((d.lane n).ring 0).cmpTail
        let d := match w with | .closed _ => d.sealClosed n | _ => d
        d.finish w fun b => match w with | .opened _ => b ++ le 4 tail | _ => b
      | none => d

/-- COAL_TIME runs out: the combined message goes out (R94). -/
def Dev.coalExpiry (d : Dev) (n x : Nat) : Dev :=
  let r := (d.lane n).ring x
  match r.coalAt with
  | some t => if d.past t && d.portsSend then (d.msix r.port r.msix).onRing n x fun r => { r with coalAt := none } else d
  | none => d

/-- A descriptor's fields (R54). -/
def parseDesc (bs : List Byte) (index : Nat) : Desc :=
  { typ := numAt bs 0 1, flags := numAt bs 1 1, reserved := numAt bs 2 2, payloadLen := numAt bs 4 4,
    payloadAddr := numAt bs 8 8, outputAddr := numAt bs 0x10 8, outputLen := numAt bs 0x18 4, cookie := numAt bs 0x1C 4,
    metadata := bytesAt bs 0x20 32, index := index }

/-- The length limit of a descriptor (R57). -/
def Lane.lengthLimit (l : Lane) (c : Desc) : Nat :=
  if c.typ = 1 then Nat.min l.regs.maxUnit (l.capacity * 8192) else 524432

/-- Descriptor checks, in order (R56). -/
def Lane.descCheck (l : Lane) (x : Nat) (c : Desc) : Option Status :=
  let k := l.ctx x
  let seals := c.typ == 1
  firstBad
    [(c.typ != 1 && c.typ != 2, .badDescType),
     (if seals then decide (k.dir ≠ .seal) else decide (k.dir ≠ .verifyChain) && decide (k.dir ≠ .verifyOpen), .wrongDirection),
     (decide (2 ≤ c.flags) || c.reserved != 0 || (!seals && c.metadata != zeros 32)
       || (((seals && decide (k.policy = .storeOnly)) || decide (k.dir = .verifyChain)) && (c.outputAddr != 0 || c.outputLen != 0)),
      .badDesc),
     (c.payloadLen == 0, .badLength),
     (decide (l.lengthLimit c < c.payloadLen), .lenTooLarge),
     (seals && decide (k.policy ≠ .storeOnly) && decide (c.outputLen < c.payloadLen + 144), .outTooSmall),
     (decide (2 ^ 64 < c.payloadAddr + c.payloadLen) || decide (2 ^ 64 < c.outputAddr + c.outputLen) || c.outputAddr % 16 != 0,
      .badAddr),
     (seals && decide (0xFFFFFFFFFFFF < k.nextSeq), .seqExhausted)]

/-- A descriptor is read and checked; one that passes waits for pages or for the engine (R55, R56, R67). The bytes are
those that host memory holds, or the read fails. -/
def Dev.readDesc (d : Dev) (n x : Nat) (bytes : List Byte) (ok : Bool) : Dev :=
  let l := d.lane n
  if !(decide (n < d.nLanes) && decide (x ≤ 1) && l.mayRead x) then d
  else if !ok then (d.onRing n x fun r => { r with dead := true }).ringErr n x 3
  else
    let c := parseDesc bytes (l.ring x).inHead
    let d := (d.onLane n fun l => l.granted (3 + x)).onRing n x fun r => { r with inHead := idxAdd r.inHead 1 }
    match l.descCheck x c with
    | some st =>
      let d := ((d.laneIrq n 4).postError n x c st).settle n
      if st = .seqExhausted then d.laneIrq n 2 else d
    | none =>
      if c.typ = 1 then d.onCtx n x fun k => { k with cur := some { desc := c } }
      else (d.onCtx n x fun k => { k with job := some c, jobFailed := false, jobUntil := 0, jobAt := 0 }).settle n

/-- The payload fetch starts, or the second length check fails (R53, R57, R86). DESIGN CHOICE (log entry 80): the second check sets
LANE_IRQ_STATUS.DESC_REJECT as the first does; R57 names the ERROR entry only. -/
def Dev.fetchStart (d : Dev) (n : Nat) : Dev :=
  let l := d.lane n
  match l.ctx0.cur with
  | some u =>
    if !(decide (u.st = .checked) && decide (l.st = .active) && l.ring0.flows) then d
    else if l.lengthLimit u.desc < u.desc.payloadLen then
      (((d.onCtx n 0 fun k => { k with cur := none }).laneIrq n 4).postError n 0 u.desc .lenTooLarge).settle n
    else if pagesFor u.desc.payloadLen ≤ l.freePages then
      let until_ := d.clk + (d.port l.ring0.port).pcie.cplLimit
      let d := (d.onCtx n 0 fun k => { k with cur := some { u with st := .fetching, fetchUntil := until_ } }).settle n
      d.readRequests l.ring0.port u.desc.payloadAddr u.desc.payloadLen
    else d
  | none => d

/-- The fetch is judged when every request has completed or failed (R86). -/
def Dev.fetchDone (d : Dev) (n : Nat) (data : List Byte) (ok : Bool) : Dev :=
  let l := d.lane n
  match l.ctx0.cur with
  | some u =>
    if !(decide (u.st = .fetching) && decide (l.st = .active)) then d
    else
    let d := d.onLane n fun l => l.granted 0
    if ok && !u.failed then
      d.onCtx n 0 fun k => { k with cur := some { u with st := .resident, payload := fitBytes u.desc.payloadLen data } }
    else (((d.onCtx n 0 fun k => { k with cur := none }).laneErr n 2).postError n 0 u.desc .dmaFault).settle n
  | none => d

/-- A request of a fetch has not completed when its timeout expires; a completion in the expiry cycle is accepted
(R86, R276). -/
def Dev.fetchTimeout (d : Dev) (n x : Nat) : Dev :=
  d.onCtx n x fun k =>
    { k with cur := k.cur.map fun u => if u.st = .fetching && d.past u.fetchUntil then { u with failed := true } else u,
             jobFailed := k.jobFailed || (k.job.isSome && k.running && d.past k.jobUntil) }

/-- A request that has waited LANE_ARB_AGE is promoted one class, never into CLOSE, and counted; a grant in the expiry cycle stands
(R85, R94). A request of class URGENT stays there. -/
def Request.promote (r : Request) : Request := { r with cls := if 1 < r.cls then r.cls - 1 else r.cls, at_ := none }

/-- The request is past its age. -/
def Request.aged (r : Request) (clk : Nat) : Bool := match r.at_ with | some t => decide (t < clk) | none => false

/-- A tile or the store controller, whose traffic is NORMAL (R84): numbers 64 to 71 and 72 of ARB_AGE_EXPIRY. DESIGN CHOICE (log entry
58): a transfer's wait there stands in no state, so its row says that it has come. -/
def Dev.otherWaits (d : Dev) (n : Nat) : Bool :=
  if n = 72 then decide (d.power.mode ≠ .close) && d.store.pages.any fun j => j.started && !j.done
  else (d.tile (n - 64)).running.isSome

/-- ARB_AGE_EXPIRY: the first request of the lane that is past its age, or one of another requester (R85). -/
def Dev.promote (d : Dev) (n : Nat) : Dev :=
  let count := fun (d : Dev) => { d with arb := { d.arb with promotions := satInc 16 d.arb.promotions } }
  if 64 ≤ n then (if d.otherWaits n then count d else d)
  else
    match (d.lane n).waits.find? fun r => (d.lane n).wants r.kind && r.aged d.clk with
    | some r =>
      let d := d.onLane n fun l => { l with waits := l.waits.map fun q => if q.kind = r.kind then q.promote else q }
      if 1 < r.cls then count d else d
    | none => d

/-- A doorbell or consumer write of port `p` on ring pair `x` reaches the ring: the context is open, and the port owns the
ring; another port's write sets WRONG_PORT (R65). The Bool says that it may act. -/
def Dev.ringWrite (d : Dev) (p n x : Nat) : Bool × Dev :=
  let r := (d.lane n).ring x
  if !(decide (n < d.nLanes) && decide (x ≤ 1) && r.valid) then (false, d)
  else if r.port = p then (true, d) else (false, d.ringErr n x 2)

/-- A doorbell takes effect. One of ring 1 in the expiry cycle of SUSP_MAX counts as before it (R94). -/
def Lane.rung (l : Lane) (x v clk : Nat) : Lane :=
  let l := l.onRing x fun r => { r with inTail := v % 2 ^ 32 }
  match l.parked with
  | some p =>
    if x = 1 && decide (clk = p.at_ + l.regs.suspMax * 1000) then { l with parked := some { p with tie := some (v % 2 ^ 32) } } else l
  | none => l

/-- RING_INx_TAIL (R64). -/
def Dev.ringTail (d : Dev) (p n x v : Nat) : Dev :=
  let w := d.ringWrite p n x
  let r := (d.lane n).ring x
  if !w.1 then w.2
  else if idxDiff v r.inHead ≤ 2 ^ r.inSize then (w.2.onLane n fun l => l.rung x v d.clk).settle n
  else w.2.ringErr n x 0

/-- RING_CMPx_HEAD (R64). -/
def Dev.cmpHeadWrite (d : Dev) (p n x v : Nat) : Dev :=
  let w := d.ringWrite p n x
  let r := (d.lane n).ring x
  if !w.1 then w.2
  else if idxDiff r.cmpTail v ≤ 2 ^ r.cmpSize then (w.2.onRing n x fun r => { r with cmpHead := v % 2 ^ 32 }).settle n
  else w.2.ringErr n x 1

/-- A segment or entry write fails at the port: the context stops accepting and the ring stands (R87). -/
def Dev.outFault (d : Dev) (n x : Nat) : Dev :=
  let l := d.lane n
  if !((l.ring x).flows && l.runs) then d
  else
    let d := (d.onRing n x fun r => { r with faulted := true }).onCtx n x fun k => { k with stopped := true }
    ((d.laneErr n 3).laneIrq n 1).laneFault n x

/-- Erased close-reserve blocks: those of the initial allocation less the listed ones that are not, and replacements
(R187). -/
def Dev.crErased (d : Dev) : Nat :=
  256 - (d.store.blocks.filter fun b => decide (b.1 < 256) && !(decide (b.2.region = .closeReserve) && b.2.erased)).length
    + (d.store.blocks.filter fun b => decide (256 ≤ b.1) && decide (b.2.region = .closeReserve) && b.2.erased).length

/-- STOR_STATUS.FLOOR_OK (R187). -/
def Dev.floorOk (d : Dev) : Bool := decide (12 ≤ d.crErased)

/-- The lane may accept now: RUN is set, intake has not stopped, and the conditions of R15 hold (R15, R24, R67, R87, R156). -/
def Dev.mayAccept (d : Dev) (n : Nat) : Bool :=
  let l := d.lane n
  decide (l.st = .active) && decide (l.ctx0.dir = .seal) && !l.ctx0.stopped && (d.power.mode = .record || d.power.mode = .ingest)
    && d.time.servo.run && !l.stream.ended && d.floorOk && (!d.store.fullLanes.contains n || l.ctx0.policy = .host) && decide (l.acceptAt ≤ d.clk)

/-- UNIT_ACCEPT: the custody table entry is committed, with its timestamp and sequence number, and the token is queued
(R14 to R17). -/
def Dev.accept (d : Dev) (n : Nat) : Dev :=
  let l := d.lane n
  match l.ctx0.cur with
  | some u =>
    if !(decide (u.st = .resident) && d.mayAccept n) then d
    else
      let k := l.ctx0
      let u := { u with st := .accepted, seq := k.nextSeq, time := d.now, uncertain := d.time.servo.uncertain }
      let d := d.onLane n fun l =>
        { l with units := l.units ++ [u], acceptAt := d.clk + 8, ctx0 := { l.ctx0 with cur := none, nextSeq := k.nextSeq + 1 } }
      (d.queuePost n 0
        { entry := entryBytes 1 0 u.desc.index k.stream u.seq u.time u.desc.payloadLen u.desc.cookie
            (le 4 (d.lane n).owedBytes ++ le 2 n), seq := u.seq }).settle n
  | none => d

/-- The next unit of context 0 that the engine may start: every earlier one is appended (R69). -/
def Lane.nextUnit (l : Lane) : Option MediaUnit :=
  match l.units.find? fun u => decide (u.st ≠ .appended) with
  | some u => if u.st = .accepted then some u else none
  | none => none

/-- ENGINE_START: the unit enters ENCRYPTING under the key then current (R28, R69, R72). -/
def Dev.engineStart (d : Dev) (n : Nat) : Dev :=
  let l := d.lane n
  match l.nextUnit, l.key with
  | some u, some k =>
    if (l.runs || (decide (l.st = .schuss) && l.slot)) && !l.engineBusy && l.parked.isNone then
      d.onLane n fun l => l.onUnit u.seq fun u => { u with st := .encrypting, key := k }
    else d
  | _, _ => d

/-- The unit in ENCRYPTING whose tag is not yet formed. -/
def Lane.inEngine (l : Lane) : Option MediaUnit :=
  l.units.find? fun u => decide (u.st = .encrypting) && u.segment.isEmpty

/-- GCM_TAG_FORMED: the segment is complete, and the previous-key register is cleared if the unit used it (R71, R72). -/
def Dev.formTag (d : Dev) (n : Nat) : Dev :=
  let l := d.lane n
  match l.inEngine with
  | some u =>
    if !(l.runs || l.st = .schuss) then d
    else
      let seg := sealUnit n l.ctx0.stream u (decide (l.st = .schuss))
      (d.onLane n fun l =>
        { (l.onUnit u.seq fun u => { u with segment := seg }) with prev := if l.usesPrev u then none else l.prev }).settle n
  | none => d

/-- Bytes of MAC-reserved staging capacity in data pages of 4 KiB (R206, R210). -/
def Staging.capPages (s : Staging) : Nat :=
  let gib := (match s.density with | 0 => 8 | 1 => 12 | _ => 16) * (if s.ranks = 1 then 2 else 1)
  let chans := match s.channels with | 0 => 1 | 1 => 2 | _ => 4
  chans * gib * 1024 * 127 / 128 * 256

/-- Staged pages of a lane and of all lanes (R208, R210). -/
def Lane.stagedPages (l : Lane) : Nat := ((l.units.filter fun u => u.staged).map fun u => ceilDiv u.segment.length 4096).sum
def Dev.stagedPages (d : Dev) : Nat := (d.lanes.toList.map Lane.stagedPages).sum
def Dev.stagedSegs (d : Dev) : Nat := (d.lanes.toList.map fun l => (l.units.filter fun u => u.staged).length).sum

/-- The lowest indices in staging that no page uses, `k` of them. -/
def Staging.freeIndices (s : Staging) (k : Nat) : List Nat :=
  ((List.range (s.pages.length + k)).filter fun i => !s.pages.any fun p => p.index == i).take k

/-- The pages of a staged segment: 4 KiB each, the last padded with zeros, encrypted under the index and with a MAC over index,
position and ciphertext (R210). Which free indices they take is the model's choice (log entry 75). -/
def Staging.pagesOf (s : Staging) (n : Nat) (u : MediaUnit) : List StagedPage :=
  let ps := (pieces 4096 u.segment).map (fitBytes 4096)
  (ps.zip (s.freeIndices ps.length)).zipIdx.map fun p =>
    let pos := ((s.position[n]?).getD 0 + p.2) % 2 ^ 64
    let text := xts (s.keys.getD []) (le 16 p.1.2) p.1.1
    { lane := n, seq := u.seq, index := p.1.2, position := pos, text := text,
      mac := stagingMac (s.keys.getD []) (le 8 p.1.2 ++ le 8 pos ++ text) }

/-- Pages of segments that are still staged. -/
def Dev.stagedStore (d : Dev) : List StagedPage :=
  d.staging.pages.filter fun p => (d.lane p.lane).units.any fun u => u.staged && u.seq == p.seq

/-- An earlier segment of the lane is staged, but not the one just before this: staged segments are consecutive (R141; log entry 88). -/
def Lane.stagingGap (l : Lane) (u : MediaUnit) : Bool :=
  let before := l.units.filter fun v => decide (v.seq < u.seq)
  (before.any fun v => v.staged) && !(before.getLast?.any fun v => v.staged)

/-- At its append edge, a segment of a HOST stream is staged when its ring has no free slot for its entry or an earlier
segment of the lane is staged, if staging has room (R208, R209). -/
def Dev.stage (d : Dev) (n : Nat) (u : MediaUnit) : Dev :=
  let l := d.lane n
  let pages := ceilDiv u.segment.length 4096
  if !(decide (d.staging.st = .ready) && d.staging.en && decide (l.ctx0.policy = .host)
      && (decide (l.ring0.room < l.ring0.queued) || l.units.any fun v => v.staged)) || l.stagingGap u then d
  else if l.stagedPages + pages ≤ d.staging.laneMax && d.stagedPages + pages ≤ d.staging.capPages then
    let s := { d.staging with pages := d.stagedStore }
    let d := d.onLane n fun l => l.onUnit u.seq fun u => { u with staged := true }
    { d with staging := { s with pages := s.pages ++ s.pagesOf n u, position := vupd d.staging.position n fun p => (p + pages) % 2 ^ 64 } }
  else { d with staging := { d.staging with err := setBit d.staging.err 4 } }

/-- A record of a lane's stream joins the queue of the container writer where its policy stores it, and in SCHUSS that of
the close reserve whatever the policy (R37, R180). -/
def Dev.queueStore (d : Dev) (n kind seq : Nat) (body : List Byte) : Dev :=
  if (d.lane n).ctx0.policy = .host && !decide ((d.lane n).st = .schuss) then d
  else d.onLane n fun l => { l with storeQ := l.storeQ ++ [{ kind := kind, lane := n, seq := seq, body := body, era := d.store.era }] }

/-- The lane epoch that holds a custody time: its boundary value, b_k of R110 over the epoch period. -/
def boundaryOf (k periodMs : Nat) : Nat := ceilDiv (k * periodMs * 2 ^ 32) 1000

/-- The index of the last boundary at or before a custody time. -/
def lastBoundary (t periodMs : Nat) : Nat := t * 1000 / (periodMs * 2 ^ 32)

/-- The value of the last boundary at or before now, and of the next one (R110). -/
def Dev.boundaryNow (d : Dev) (p : Nat) : Nat := boundaryOf (lastBoundary d.now p) p
def Dev.boundaryNext (d : Dev) (p : Nat) : Nat := boundaryOf (lastBoundary d.now p + 1) p

/-- The sequencer runs: EN is set in IDLE, RECORD or INGEST, the debug level is not FULL and the life-cycle state
has receipts (R110, R113, R124, R452, R455). -/
def Dev.hiveRuns (d : Dev) : Bool :=
  d.hive.en && (d.power.mode = .idle || d.power.mode = .record || d.power.mode = .ingest) && decide (d.dbg.level ≠ .full)
    && !d.hive.unsigned && (d.life.st = .fleet || d.life.st = .service)

/-- A hive boundary edge has come whose snapshot is not taken yet (R110). -/
def Dev.hiveDue (d : Dev) : Bool :=
  d.time.servo.run && d.hiveRuns && decide (d.hive.st ≠ .idle) && decide (d.hive.st ≠ .stopped)
    && decide (d.hive.lastBoundary < d.boundaryNow d.hive.period)

/-- A lane's epoch boundary edge has come whose values are not captured yet (R117). -/
def Dev.epochDue (d : Dev) (n : Nat) : Bool :=
  let l := d.lane n
  d.time.servo.run && decide (l.ctx0.dir = .seal) && !l.stream.ended && decide (l.stream.epochStart < d.boundaryNow d.hive.epoch)

/-- On a boundary edge the capture goes ahead of every append (R26, R106, R117). -/
def Dev.boundaryDue (d : Dev) (n : Nat) : Bool := d.hiveDue || d.epochDue n

/-- SEGMENT_APPEND: the chain head moves on one edge; the segment goes to its destinations (R21, R73, R74). No segment is
appended between an epoch boundary and its link, nor on a boundary edge before its capture, nor ahead of a finished epoch
signature (R26, R75, R117). DESIGN CHOICE (log entry 81): a finished signature goes first also where the segment was ready on an earlier
edge; R75 orders what becomes ready on one edge. -/
def Dev.appendSegment (d : Dev) (n : Nat) : Dev :=
  let l := d.lane n
  match l.units.find? fun u => decide (u.st = .encrypting) && !u.segment.isEmpty with
  | none => d
  | some u =>
    if !l.caps.isEmpty || d.boundaryDue n || (l.stream.signed.isSome && l.runs) || !(l.runs || l.st = .schuss) then d
    else
      let k := l.ctx0
      let u := { u with st := .appended }
      let d := d.onLane n fun l =>
        { (l.onUnit u.seq fun _ => u) with
          ctx0 := { k with head := chainNext k.head u.segment, elements := k.elements + 1, lastSeq := u.seq },
          stream := { l.stream with firstSeq := if l.stream.firstSeq = 0 then u.seq else l.stream.firstSeq, lastSeq := u.seq } }
      if l.st = .schuss then d.queueStore n 0x10 u.seq u.segment
      else
        let d := d.queuePost n 0
          { entry := entryBytes 2 0 u.desc.index k.stream u.seq u.time u.desc.payloadLen u.desc.cookie
              (gcmNonce u.key.salt u.seq n ++ le 4 u.segment.length
                ++ le 2 (b2n u.truncated + b2n (decide (k.policy = .storeOnly)) * 2)),
            irq := u.desc.flags.testBit 0, seq := u.seq }
        let d := d.queueStore n 0x10 u.seq u.segment
        let d := if l.ring0.flows then d.writeSegment n u.seq else d
        (d.stage n u).settle n

/-- A non-segment element is appended to context 0's chain, posted to the ring and queued for the store (R73, R75). -/
def Dev.appendElement (d : Dev) (n kind schuss time : Nat) (body : List Byte) (ends : Option WaitFor) : Dev :=
  let k := (d.lane n).ctx0
  let e := element kind (b2n d.time.servo.uncertain * 4 + schuss * 8) k.stream time body
  let d := d.onCtx n 0 fun k => { k with head := chainNext k.head e, elements := k.elements + 1 }
  if schuss = 1 then d.queueStore n kind 0 e else (d.postElement n e ends).queueStore n kind 0 e

/-- The slot and identity of the KEK that serves a lane epoch: the previous one while it lasts, for an epoch that began
before the current one's (R375). -/
def Dev.kekFor (d : Dev) (epochStart : Nat) : Nat × Kek :=
  let q := d.keys
  if epochStart < q.kekEpoch && (d.keySlot 66).full then
    (66, { epoch := q.prevEpoch, id := q.prevId, auth := q.prevAuth, encap := q.prevEncap })
  else (65, { epoch := q.kekEpoch, id := q.kekId, auth := q.kekAuth, encap := q.encap })

/-- The WRAPPED_KEY element of a content key, with the encapsulation where the stream has none of its kek_id (R132). A KEK
older than the key epoch's is late (R375). -/
def Dev.appendWrapped (d : Dev) (n : Nat) (k : ContentKey) (ends : Option WaitFor) (schuss : Nat) : Dev :=
  let e := d.kekFor k.epoch
  let encap := if (d.lane n).stream.kekId = e.2.id then [] else e.2.encap
  let d := d.onLane n fun l => { l with stream := { l.stream with kekId := e.2.id } }
  let due := d.keyEpochOf k.epoch
  let d := if e.2.epoch < due then d.logEvent 0x0C2 2 (le 8 due) else d
  d.appendElement n 3 schuss d.now (wrappedBody k.epoch e.2.epoch e.2.id e.2.auth (d.keySlot e.1).key k encap) ends

/-- The attribute word of a lane's content key: of the seal direction generated, encrypt-only and WRAP_OUT 1, of the verify direction
delivered and decrypt-only (R358, R375). DESIGN CHOICE (log entry 97): its LC_BIND is 0. -/
def contentAttr (n : Nat) (sealing : Bool) : Nat :=
  mkAttr 1 (if sealing then 1 else 2) (if sealing then 0 else 1) sealing 0 false (1 + n / 8) 1

/-- A content key enters its slot (R358, R375). DESIGN CHOICE (log entry 97): it stays there until the next one comes or the class is
destroyed; R72 and R301 clear the lane's registers. -/
def Dev.contentSlot (d : Dev) (n slot : Nat) (sealing : Bool) (key : List Byte) : Dev :=
  d.setKey slot { attr := contentAttr n sealing, key := key, tag := zeros 16, created := d.now, pcyc := d.time.aon.pcyc, meas := d.keys.meas.mS }

/-- A fresh content key and salt from the comb's instance, which reseeds first: into the lane's current slot and its key register
(R70, R375, R394). -/
def Dev.installKey (d : Dev) (n epoch : Nat) : Dev :=
  let r := d.randDraw (1 + n / 8) 36 true
  (r.2.contentSlot n (128 + 2 * n) true (r.1.take 32)).onLane n fun l => { l with key := some { key := r.1.take 32, salt := unle (r.1.drop 32), epoch := epoch } }

/-- Intake stops: a descriptor that is read but not accepted counts as unconsumed (R67). -/
def Lane.stopIntake (l : Lane) (x : Nat) : Lane :=
  match (l.ctx x).cur with
  | some u => ((l.onCtx x fun k => { k with cur := none }).onRing x fun r => { r with inHead := u.desc.index }).granted 0
  | none => l

/-- LANE_DRAIN: the lane accepts nothing more (R90, R298). The request is taken in ACTIVE, before the stream has its CLOSE
element, and is dropped otherwise. DESIGN CHOICE (log entry 72). -/
def Dev.drain (d : Dev) (n : Nat) : Dev :=
  let l := d.lane n
  if l.st = .active && !(decide (l.ctx0.dir = .seal) && l.stream.ended) then
    (d.onLane n fun l => { (l.stopIntake 0) with st := .drain, regs := { l.regs with drain := true } }).settle n
  else d

/-- The CLOSE element: reason 3 where the stream had reached its last sequence number before the command, else 1
(R134, R298). -/
def Dev.appendClose (d : Dev) (n reason schuss : Nat) : Dev :=
  let k := (d.lane n).ctx0
  let d := d.appendElement n 4 schuss d.now (closeBody k.lastSeq k.elements reason k.head) (some (.closed n))
  d.onLane n fun l => { l with stream := { l.stream with ended := true } }

/-- The answer of a STREAM_CLOSE, once the CLOSE element is appended (R298). -/
def Dev.closeAnswer (d : Dev) (n : Nat) : List Byte :=
  let l := d.lane n
  le 8 l.ctx0.lastSeq ++ le 8 l.ctx0.elements ++ fitBytes 64 l.ctx0.head ++ le 4 l.ring0.inHead ++ zeros 4

/-- A waiting command's body is known. -/
def Dev.setBody (d : Dev) (w : WaitFor) (b : List Byte) : Dev :=
  { d with waits := d.waits.map fun c => if c.for_ = w then { c with body := b } else c }

/-- The drain may append its CLOSE element: nothing is owed, no segment is staged and no link is pending (R90, R117). -/
def Lane.drained (l : Lane) : Bool := l.units.isEmpty && l.caps.isEmpty

/-- An element of the verify direction parses: its magic, version, kind and length agree with the bytes (R76, R125). -/
def elementOk (bs : List Byte) : Bool :=
  let k := numAt bs 5 1
  numAt bs 4 1 == 1 && numAt bs 8 4 == bs.length
    && ((bytesAt bs 0 4 == ascii "QSEG" && k == 0x10 && decide (144 < bs.length))
      || (bytesAt bs 0 4 == ascii "QELM" && inRange 1 5 k && inRange 32 4096 bs.length))

/-- The chain head recorded in an EPOCH_LINK or CLOSE equals the computed one (R76). -/
def headAgrees (bs head : List Byte) : Bool :=
  match numAt bs 5 1 with
  | 2 => bytesAt bs 0x50 64 == fitBytes 64 head
  | 4 => bytesAt bs 0x38 64 == fitBytes 64 head
  | _ => true

/-- The key of a WRAPPED_KEY element, unwrapped by lane `n`'s comb controller with the authority slot, which must admit that use (R132,
R133, R300, R360): the KEK by its kek_id and the content key. -/
def Dev.unwrapElement (d : Dev) (n : Nat) (k : Ctx) (bs : List Byte) : Ctx :=
  let id := bytesAt bs 0x30 16
  let ct := bytesAt bs 0xB0 (numAt bs 0xAC 2)
  let kek :=
    if ct.isEmpty then k.kek
    else if !d.mayUse (1 + n / 8) k.authSlot 2 then none
    else
      let ss := fitBytes 32 (Config.kemDecaps (d.keySlot k.authSlot).key ct)
      some (shake ct 16, shake (ascii "QKEK" ++ ss ++ le 8 (numAt bs 0x28 8) ++ fitBytes 64 k.ident) 32)
  match kek with
  | some (i, q) =>
    if i = id then
      match kwInv q (bytesAt bs 0x80 40) with
      | some c => { k with kek := kek, key := some (numAt bs 0x20 8, c) }
      | none => { k with kek := kek }
    else { k with kek := kek }
  | none => k

/-- The outcome of a verify job on its element's bytes: status, what is written at output_addr one after another, and the
context after it. Plaintext is written as it is decrypted, ahead of the tag's check (R76, R77, R79). -/
def Dev.verifyJudge (d : Dev) (lane : Nat) (k : Ctx) (c : Desc) (bs : List Byte) : Status × List (List Byte) × Ctx :=
  let seg := numAt bs 5 1 == 0x10
  let seq := numAt bs 0x18 8
  if !(elementOk bs && numAt bs 0x10 8 == k.stream) then (.badElement, [], { k with broken := true })
  else if (seg && seq != k.nextSeq) || !headAgrees bs k.head then (.chainBreak, [], { k with broken := true })
  else
    let k := { k with head := chainNext k.head bs, elements := k.elements + 1, verified := k.verified + 1,
                      nextSeq := if seg then seq + 1 else k.nextSeq, lastSeq := if seg then seq else k.lastSeq }
    if k.dir = .verifyChain then (.ok, [], k)
    else if numAt bs 5 1 = 3 then (.ok, [], d.unwrapElement lane k bs)
    else if !seg then (.ok, [], k)
    else
      match k.key with
      | none => (.noKey, [], k)
      | some (epoch, key) =>
        let n := bs.length - 144
        if epoch ≠ numAt bs 0x28 8 then (.noKey, [], k)
        else if c.outputLen < n then (.outTooSmall, [], k)
        else
          let text := bytesAt bs 128 n
          match gcmOpen key (bytesAt bs 0x30 12) (bs.take 128) text (bytesAt bs (128 + n) 16) with
          | some p => (.ok, [p], k)
          | none => (.tagFail, [gcmText key (bytesAt bs 0x30 12) (bs.take 128) text, zeros c.outputLen], k)

/-- A content key that a verify context has unwrapped enters the context's slot too (R358, R375). -/
def Dev.unwrappedSlot (d : Dev) (n x : Nat) (old new : Option (Nat × List Byte)) : Dev :=
  match new with
  | some k => if new = old then d else d.contentSlot n (256 + 2 * n + x) false k.2
  | none => d

/-- VERIFY_COMPLETE: the job's element is read and judged, plaintext or zeros are written, and VERIFIED is posted
(R76 to R79). The element-kind byte of an element that does not parse is 0. DESIGN CHOICE (log entry 73): R59 names the
identifier, the sequence number and the time only. -/
def Dev.verifyComplete (d : Dev) (n x : Nat) (data : List Byte) (ok : Bool) : Dev :=
  let l := d.lane n
  let k := l.ctx x
  match k.job with
  | none => d
  | some c =>
    if !(k.running && l.runs && (l.ring x).flows) then d
    else
      let d := d.onLane n fun l => (l.onCtx x fun k => { k with job := none, running := false, jobFailed := false, jobUntil := 0, jobAt := 0 }).granted (1 + x)
      let d :=
        if !ok || k.jobFailed then (d.laneErr n 2).postError n x c .dmaFault
        else
          let bs := fitBytes c.payloadLen data
          let r := d.verifyJudge n k c bs
          let d := d.onCtx n x fun q => { r.2.2 with job := q.job, running := q.running, jobFailed := q.jobFailed, jobUntil := 0, jobAt := 0 }
          let d := d.unwrappedSlot n x k.key r.2.2.key
          let d := d.each r.2.1 fun d w => d.send (.hostWrite (l.ring x).port c.outputAddr w)
          let parsed := elementOk bs
          let d := d.queuePost n x
            { entry := entryBytes 3 r.1.code c.index (if parsed then numAt bs 0x10 8 else 0)
                (if parsed && numAt bs 5 1 == 0x10 then numAt bs 0x18 8 else 0)
                (if parsed then (if numAt bs 5 1 = 0x10 then numAt bs 0x20 8 else numAt bs 0x18 8) else 0)
                c.payloadLen c.cookie
                (le 4 (if r.1 = .ok then r.2.1.flatten.length else 0) ++ [u8 (if parsed then numAt bs 5 1 else 0)]),
              irq := c.flags.testBit 0 }
          match r.1 with
          | .tagFail => d.laneErr n 4
          | .badElement | .chainBreak => ((d.laneErr n 5).laneIrq n 3).laneNotice n x
          | _ => d
      (d.settle n).verifyEnded n x

/-- The saved context of a parked unit or job (R81). DESIGN CHOICE (log entry 82): the block counter is that of the next block, zero for
a job that decrypts nothing, and the custody table entry index is the unit's place among the held units; R81 says neither. -/
def savedContext (done counter : Nat) (ghash nonce : List Byte) (entry ring inAddr outAddr : Nat) (prev : Bool) (dir : Dir) : List Byte :=
  let b := le 4 done ++ le 4 counter ++ fitBytes 16 ghash ++ fitBytes 12 nonce ++ le 2 entry
    ++ le 2 (b2n prev + dir.code * 2) ++ le 8 inAddr ++ le 8 outAddr ++ le 4 ring
  b ++ le 4 (crc32 b)

/-- A unit's entry in the custody table. -/
def Lane.entryOf (l : Lane) (u : MediaUnit) : Nat := l.units.findIdx fun v => v.seq == u.seq

/-- Park the engine's context-0 work at a block boundary (R80, R81, R88). The first bytes of a verify job's element, which give
its nonce, are what the reads of host memory returned: a free value. -/
def Dev.park (d : Dev) (n done : Nat) (freeze : Bool) : Dev :=
  let l := d.lane n
  match l.inEngine with
  | some u =>
    let nonce := gcmNonce u.key.salt u.seq n
    let h := segHeader n l.ctx0.stream u false
    let saved := savedContext done (2 + done / 16) (Config.ghash u.key.key h (gcm u.key.key nonce h (u.payload.take done)).1) nonce (l.entryOf u)
      u.desc.index (u.desc.payloadAddr + done) (u.desc.outputAddr + 128 + done) (l.usesPrev u) l.ctx0.dir
    d.onLane n fun l =>
      { (l.onUnit u.seq fun u => { u with st := .suspended, done := done }) with
        parked := some { at_ := d.clk, freeze := freeze, saved := saved } }
  | none =>
    match l.ctx0.job with
    | some c =>
      if !l.ctx0.running then d
      else
        let key := match l.ctx0.key with | some k => k.2 | none => []
        let f := d.draw done
        let seen := f.1
        let opens := decide (l.ctx0.dir = .verifyOpen) && numAt seen 5 1 == 0x10
        let text := if opens then Nat.min (done - 128) (c.payloadLen - 144) else 0
        let saved := savedContext done (if opens then 2 + text / 16 else 0) (if opens then Config.ghash key (seen.take 128) ((seen.take done).drop 128) else [])
          (if opens then bytesAt seen 0x30 12 else []) 0 c.index (c.payloadAddr + done) (if opens then c.outputAddr + text else 0) false l.ctx0.dir
        let keyed := match l.ctx0.key with | some k => decide (k.1 = numAt seen 0x28 8) && decide (c.payloadLen ≤ c.outputLen + 144) | none => false
        f.2.onLane n fun l =>
          { l with ctx0 := { l.ctx0 with running := false, jobUntil := 0, jobAt := done },
                   parked := some { at_ := d.clk, freeze := freeze, verify := true, saved := saved, written := if keyed then text else 0 } }
    | none => d

/-- The context-0 payload in the engine, and whether it may be suspended as far as its key goes (R80). -/
def Lane.suspendable (l : Lane) : Option Nat :=
  match l.inEngine with
  | some u => if l.usesPrev u then none else some u.desc.payloadLen
  | none => match l.ctx0.job with
    | some c => if l.ctx0.running then some c.payloadLen else none
    | none => none

/-- UNIT_SUSPEND (R80). -/
def Dev.suspend (d : Dev) (n done : Nat) : Dev :=
  let l := d.lane n
  match l.suspendable with
  | some len =>
    if l.regs.suspEn && l.ctx1.job.isSome && !l.ctx1.running && l.parked.isNone && l.runs && done % 16 = 0 && done < len
        && decide (l.regs.suspMin * 4096 ≤ len - done) then
      (d.park n done false).settle n
    else d
  | none => d

/-- The parked unit may resume: context 1 has no checked descriptor, or SUSP_MAX has passed, or the unit uses the
previous-epoch key (R82); a descriptor rung by the expiry cycle runs first (R94). -/
def Lane.mayResume (l : Lane) (p : Parked) : Bool :=
  !l.ctx1.running && !p.freeze && ((l.ctx1.job.isNone && !l.tied p) || l.parkedFirst)

/-- Give the engine back to the parked unit. -/
def Lane.resume (l : Lane) : Lane :=
  match l.parked with
  | none => l
  | some p =>
    if p.verify then { l with parked := none, ctx0 := { l.ctx0 with running := true } }
    else { l with parked := none, units := l.units.map fun u => if u.st = .suspended then { u with st := .encrypting } else u }

/-- A word-code fault puts the lane into FAULT; a lane that stands in OFF, FROZEN or SCHUSS keeps its state (R90, R409). -/
def Dev.laneFaults (d : Dev) (n : Nat) : Dev :=
  let s := (d.lane n).st
  if s = .idle || s = .active || s = .drain then (d.onLane n fun l => { l with st := .fault }).laneFault n 0 else d

/-- UNIT_RESUME: a CRC mismatch is a word-code fault, which puts the lane into FAULT (R82, R90). The Bool says so. -/
def Dev.resume (d : Dev) (n : Nat) (crcOk : Bool) : Bool × Dev :=
  let l := d.lane n
  match l.parked with
  | some p =>
    if !(l.runs && l.mayResume p) then (false, d)
    else if crcOk then (false, (d.onLane n Lane.resume).settle n)
    else (true, d.laneFaults n)
  | none => (false, d)

/-- SUSP_MAX runs out: the parked unit resumes after the context-1 job now running (R94). -/
def Dev.suspExpiry (d : Dev) (n : Nat) : Dev :=
  d.onLane n fun l =>
    match l.parked with
    | some p => if d.past (p.at_ + l.regs.suspMax * 1000) then { l with parked := some { p with late := true } } else l
    | none => l

/-- A lane's reset state: registers, contexts and rings (R91). A key, a stream and custody it has none. -/
def Lane.afterReset (l : Lane) : Lane := { shadow := l.shadow, storeQ := l.storeQ }

/-- R91 lets the lane reset. -/
def Lane.resettable (l : Lane) : Bool := l.units.isEmpty && l.ctx0.dir = .closed && l.ctx1.dir = .closed

/-- Active combs that the mode allows (R217). -/
def Dev.combsMax (d : Dev) : Nat :=
  match d.power.mode with
  | .record => 2
  | .ingest => d.nCombs
  | .close => (List.range d.nCombs).countP fun c => (d.comb c).clkEn
  | _ => 0

/-- Combs whose clock runs. -/
def Dev.combsOn (d : Dev) : Nat := (List.range d.nCombs).countP fun c => (d.comb c).clkEn

/-- A lane of comb `c` has a context open or owed units. -/
def Dev.combUsed (d : Dev) (c : Nat) : Bool :=
  (List.range 8).any fun i =>
    let l := d.lane (8 * c + i)
    decide (l.ctx0.dir ≠ .closed) || decide (l.ctx1.dir ≠ .closed) || !l.units.isEmpty

/-- The clock of a comb starts or is gated; its lanes leave or enter OFF (R90, R218). DESIGN CHOICE (log entry 83): a FAULT lane, which
holds no context then, goes to OFF too, as the OFF row of R90 has it; the FAULT row names a lane reset. -/
def Dev.combClock (d : Dev) (c : Nat) (on : Bool) : Dev :=
  let d := d.onComb c fun b => { b with clkEn := on }
  d.each (List.range 8) fun d i => d.onLane (8 * c + i) fun l =>
    if on then (if l.regs.en && decide (l.st = .off) then l.rest else l)
    else if l.st = .frozen || l.st = .schuss then l else { l with st := .off }

/-- The end of a drain: the bit is cleared, DRAIN_DONE is set and the lane leaves DRAIN (R90, R96). -/
def Dev.drainEnds (d : Dev) (n : Nat) : Dev :=
  (d.onLane n fun l => { l with regs := { l.regs with drain := false } }.rest).laneIrq n 0

/-- A drain has nothing owed left: the CLOSE element of the STREAM_CLOSE is appended, and the drain is over. A drain that a register
write began stands until that command comes: no other closes a stream (R90, R91, R134, R298). DESIGN CHOICE (log entry 72): on a lane
without a seal stream the drain ends with nothing to append. -/
def Dev.drainComplete (d : Dev) (n : Nat) : Dev :=
  let l := d.lane n
  if l.st ≠ .drain then d
  else if l.ctx0.dir ≠ .seal then d.drainEnds n
  else if !(l.drained && l.stream.closing) || l.stream.ended || d.boundaryDue n then d
  else
    let reason := if 0xFFFFFFFFFFFF < l.ctx0.nextSeq then 3 else 1
    let d := (d.appendClose n reason 0).drainEnds n
    d.setBody (.closed n) (d.closeAnswer n)

/-- LANE_CTRL.LANE_RESET (R91). -/
def Dev.laneReset (d : Dev) (n : Nat) : Dev :=
  if (d.lane n).resettable then d.onLane n Lane.afterReset else d.laneErr n 1

/-- LANE_CMB_CTRL.CLK_EN (R96, R218). -/
def Dev.combWrite (d : Dev) (c : Nat) (on : Bool) : Dev :=
  if d.nCombs ≤ c || (d.comb c).clkEn = on then d
  else if on then
    if d.combsOn < d.combsMax then d.combClock c true else d.onComb c fun b => { b with modeLimit := true }
  else if d.combUsed c then d.onComb c fun b => { b with clkRefused := true }
  else d.combClock c false

/-- Every comb clock is gated (R218). -/
def Dev.gateAll (d : Dev) : Dev := d.each (List.range d.nCombs) fun d c => d.combClock c false

end Sys2Proof.Machine
end

