-- ==== Sys2Proof/Machine/StoreOps.lean ====
section
/-! DEFINITION. The sealed store: geometry, retirement, the journal, the container writer, the close reserve, holds and
the index (R176 to R205). -/
namespace Sys2Proof.Machine

/-- Change the store. -/
def Dev.onStore (d : Dev) (f : Store → Store) : Dev := { d with store := f d.store }

/-- Store blocks, first block and blocks of the container ring, spares (R177). -/
def Variant.blocks : Variant → Nat | .vtz8064 => 16384 | .vtz8032 => 8192
def Variant.ringFirst : Variant → Nat | .vtz8064 => 704 | .vtz8032 => 512
def Variant.ringLen : Variant → Nat | .vtz8064 => 15680 | .vtz8032 => 7680
def Variant.spareLen : Variant → Nat | .vtz8064 => 384 | .vtz8032 => 192
def Variant.dies : Variant → Nat | .vtz8064 => 4 | .vtz8032 => 2

/-- The hold limit (R178). -/
def Dev.holdLimit (d : Dev) : Nat := d.variant.ringLen / 2

/-- A block at production (R177). -/
def initBlock (v : Variant) (b : Nat) : Block :=
  if b < 256 then { region := .closeReserve, fast := true }
  else if b < 264 then { region := .eventLog, fast := true }
  else if b < 320 then { region := .journal, fast := true }
  else if b < v.ringFirst then { region := .spare }
  else if b < v.blocks then {}
  else { region := .retired }

/-- A block, and a change of it. -/
def Dev.blk (d : Dev) (b : Nat) : Block := spGet (initBlock d.variant) d.store.blocks b
def Dev.onBlk (d : Dev) (b : Nat) (f : Block → Block) : Dev :=
  d.onStore fun s => { s with blocks := spSet (initBlock d.variant) s.blocks b (f (d.blk b)) }

/-- Page size, and pages of a block in its mode (R176). -/
def pageBytes : Nat := 16384
def Block.count (b : Block) : Nat := if b.fast then 256 else 1024

/-- A container stands in the block (R181). -/
def Block.holdsContainer (b : Block) : Bool := b.region = .container && b.seq != 0 && decide (0 < b.readable)

/-- Blocks that hold a container, with their numbers, in container order. -/
def Dev.containers (d : Dev) : List (Nat × Block) :=
  sortBy (fun a b => decide (a.2.seq ≤ b.2.seq)) (d.store.blocks.filter fun b => b.2.holdsContainer)

/-- Blocks whose container has been opened, also those of which no page counts yet, in container order (R181, R195). -/
def Dev.opened (d : Dev) : List (Nat × Block) :=
  sortBy (fun a b => decide (a.2.seq ≤ b.2.seq)) (d.store.blocks.filter fun b => decide (b.2.region = .container) && b.2.seq != 0)

/-! ### Dies -/

/-- The die of a page (R176). -/
def Dev.dieOf (d : Dev) (page : Nat) : Nat := page % d.variant.dies

/-- The class in which a die serves a page program: the flush of a custody close, then the close reserve, containers, the journal
and the event log (R185, R202). -/
def Dev.pageClass (d : Dev) (j : PageJob) : Nat :=
  match j.owner with
  | .writer => if d.store.flush = some (j.block, j.page) then 1 else 3
  | .closeReserve => 2
  | .queue _ => if (d.blk j.block).region = .closeReserve then 2 else 4
  | _ => 4

/-- The journal's page goes ahead of a program of a class on a die (R185, R202). -/
def Dev.journalFirst (d : Dev) (die : Nat) : Bool :=
  decide (d.store.st = .close) && !d.store.journal.inFlight.isEmpty && d.dieOf (d.blk d.store.journal.block).next == die

/-- A die that programs no page begins the first pending one of the best class; pages of one class go in the order in which they
were queued (R202). -/
def Dev.serveDie (d : Dev) (die : Nat) : Dev :=
  let mine := d.store.pages.filter fun j => !j.done && d.dieOf j.page == die
  if mine.any fun j => j.started then d
  else
    match sortBy (fun a b => decide (d.pageClass a ≤ d.pageClass b)) mine with
    | [] => d
    | j :: _ =>
      if d.journalFirst die && decide (d.pageClass j ≠ 1) then d
      else d.onStore fun s =>
        { s with pages := s.pages.map fun q => if q.block = j.block && q.page = j.page then { q with started := true } else q }

/-- Every die takes its next page. -/
def Dev.serve (d : Dev) : Dev := d.each (List.range d.variant.dies) Dev.serveDie

/-- Pages join the pending programs. -/
def Dev.enqueue (d : Dev) (js : List PageJob) : Dev := (d.onStore fun s => { s with pages := s.pages ++ js }).serve

/-- A journal or log page that goes to a page of a block does not complete while its die programs another page. -/
def Dev.dieTaken (d : Dev) (page : Nat) : Bool := d.store.pages.any fun j => j.started && !j.done && d.dieOf j.page == d.dieOf page

/-- A journal page waits that has a page to go to, and a log page (R202, R433). -/
def Dev.journalWaits (d : Dev) : Bool := !d.store.journal.inFlight.isEmpty && decide ((d.blk d.store.journal.block).next < 256)
def Dev.logWaits (d : Dev) : Bool :=
  d.log.current.isSome && decide (d.log.openPages < logBlockPages) && d.log.open_ && !d.log.frozen && !d.log.closing

/-- An erase stands suspended while a program waits or a read is in progress (R202). -/
def Dev.eraseSuspended (d : Dev) : Bool :=
  (d.store.pages.any fun j => !j.done) || d.journalWaits || d.logWaits || d.store.queue.running.any fun o => o.op == 1

/-- A block is free again: the lanes that waited for one go on (R24). -/
def Dev.unstall (d : Dev) : Dev := d.onStore fun s => { s with fullLanes := [] }

/-- Rated erases (R204). -/
def Block.rated (b : Block) : Nat := if b.fast then 30000 else 3000

/-- A store error bit. -/
def Dev.storeErr (d : Dev) (n : Nat) : Dev := d.onStore fun s => { s with err := setBit s.err n }

/-! ### The journal -/

/-- A journal page's bytes. -/
def jbytes (rs : List JRec) : List Byte := padTo pageBytes (rs.flatMap fun r => frameOf r.kind 0xFF 0 r.body)

/-- Bytes that journal records need in a page. -/
def jlen (rs : List JRec) : Nat := (rs.map fun r => framedLen r.body.length).sum

/-- The open page goes to programming (R190). -/
def Journal.flush (j : Journal) : Journal :=
  if j.page.isEmpty then j else { j with inFlight := j.inFlight ++ [j.page], page := [] }

/-- A record joins the journal; one that must persist is programmed at once (R190). -/
def Journal.put (j : Journal) (r : JRec) (persist : Bool) : Journal :=
  let j := if pageBytes < jlen j.page + framedLen r.body.length then j.flush else j
  let j := { j with page := j.page ++ [r] }
  if persist then j.flush else j

/-- A record joins the journal of the device. -/
def Dev.journal (d : Dev) (kind : Nat) (body : List Byte) (persist : Bool) : Dev :=
  d.onStore fun s => { s with journal := s.journal.put { kind := kind, body := body } persist }

/-- A record is programmed or on its way: the newest of those that meet a condition. -/
def Journal.newest (j : Journal) (p : JRec → Bool) : Option JRec :=
  (j.page.reverse.find? p) <|> (j.inFlight.reverse.flatMap List.reverse).find? p <|> ((j.records.find? fun r => p r.2).map Prod.snd)

/-- The newest persistent record that meets a condition. -/
def Journal.programmed (j : Journal) (p : JRec → Bool) : Option JRec := (j.records.find? fun r => p r.2).map Prod.snd

/-- The close opening digest that a RECON_START, a reconciliation loss report or a RECONCILIATION record names (R189). -/
def JRec.opening (r : JRec) : List Byte :=
  if r.kind = 0x52 then bytesAt r.body 64 64 else if r.kind = 0x31 then bytesAt r.body 0xA8 64 else bytesAt r.body 0 64

/-- The order in which receipts are issued: power cycle, then snapshot number (R136). -/
def JRec.issue (r : JRec) : Nat := numAt r.body 0x24 4 * 2 ^ 32 + numAt r.body 0x20 4

/-- Records of a journal block that are live (R190); `newer` are the records newer than it, `all` every record. -/
def Dev.journalLive (d : Dev) (newer all : List (Nat × JRec)) (r : JRec) : Bool :=
  match r.kind with
  | 0x50 => !(newer.any fun q => q.2.kind == 0x50 && numAt q.2.body 0 8 == numAt r.body 0 8)
      && !(all.any fun q => q.2.kind == 0x51 && numAt q.2.body 0 8 == numAt r.body 0 8)
  | 0x52 => !(newer.any fun q => q.2.kind == 0x52)
  | 0x20 =>
    let later := fun (p : JRec → Bool) => (newer.any fun q => q.2 == r)
      || all.any fun q => q.2.kind == 0x20 && p q.2 && decide (r.issue < q.2.issue)
    !later (fun _ => true) || (numAt r.body 5 1 == 1 && !later fun q => numAt q.body 5 1 == 1)
  | 0x31 => !(all.any fun q => q.2.kind == 0x52 && q.2.opening == r.opening)
  | 0x56 => !(all.any fun q => q.2.kind == 0x52 && q.2.opening == r.opening)
  | 0x53 => (d.blk (numAt r.body 8 4)).seq == numAt r.body 0 8
  | _ => false

/-- The live records of block `b` (R190), oldest first, by a pass over the records, newest first. -/
def Dev.liveOf (d : Dev) (b : Nat) (all : List (Nat × JRec)) : List (Nat × JRec) → List (Nat × JRec) → List JRec
  | _, [] => []
  | newer, r :: rest =>
    let tail := d.liveOf b all (newer ++ [r]) rest
    if r.1 = b && d.journalLive newer all r.2 then tail ++ [r.2] else tail

/-- Journal blocks in the order of their ring. -/
def Dev.journalRing (d : Dev) : List Nat :=
  ((List.range 56).map (· + 264)).filter (fun b => (d.blk b).region = .journal)
    ++ (d.store.blocks.filter fun b => decide (b.2.region = .journal) && !(decide (264 ≤ b.1) && decide (b.1 < 320))).map Prod.fst

/-- The element after `b` in a ring of blocks. -/
def ringAfter (l : List Nat) (b : Nat) : Nat :=
  match l.find? fun x => decide (b < x) with
  | some x => x
  | none => l.headD b

/-- The erase commit edge of a block that does not retire. -/
def Dev.eraseBlock (d : Dev) (b : Nat) : Dev :=
  d.onBlk b fun k => { region := k.region, fast := k.fast, ecnt := k.ecnt, erased := false, erasing := true }

/-- The block after the open one is kept erased: its live records are appended again, and once they are programmed, and no READ pins
it, it is erased (R190, R202). -/
def Dev.journalAhead (d : Dev) : Dev :=
  let j := d.store.journal
  let nb := ringAfter d.journalRing j.block
  let k := d.blk nb
  match j.taking with
  | none =>
    if k.erased || k.erasing || nb == j.block then d
    else
      let keep := d.liveOf nb j.records [] j.records
      d.onStore fun s => { s with journal := { (keep.foldl (fun j r => j.put r false) s.journal).flush with taking := some nb } }
  | some b =>
    if !j.inFlight.isEmpty || decide (0 < (d.blk b).readPins) then d
    else (d.eraseBlock b).onStore fun s =>
      { s with journal := { s.journal with taking := none, records := s.journal.records.filter fun r => r.1 != b } }

/-- A journal block that is full or retired gives way to the next erased one of the ring. -/
def Dev.journalNext (d : Dev) : Dev :=
  let b := d.store.journal.block
  if decide ((d.blk b).region = .journal) && decide ((d.blk b).next < 256) then d
  else
    let l := d.journalRing
    match ((l.filter fun x => decide (b < x)) ++ l).find? fun x => (d.blk x).erased with
    | some nb => (d.onStore fun s => { s with journal := { s.journal with block := nb } }).journalAhead
    | none => d

/-! ### Retirement -/

/-- Spares used, and the next one (R205). -/
def Dev.sparesUsed (d : Dev) : Nat :=
  (d.store.blocks.filter fun b => decide (320 ≤ b.1) && decide (b.1 < d.variant.ringFirst) && decide (b.2.region ≠ .spare)).length
def Dev.spares (d : Dev) : Nat := d.variant.spareLen - d.sparesUsed

/-- Container blocks in the ring. -/
def Dev.ringBlocks (d : Dev) : Nat :=
  d.variant.ringLen
    - (d.store.blocks.filter fun b => decide (d.variant.ringFirst ≤ b.1) && decide (b.2.region ≠ .container)).length
    + (d.store.blocks.filter fun b => decide (b.1 < d.variant.ringFirst) && decide (b.2.region = .container)).length

/-- The block whose container is the oldest of those neither held, read-pinned nor open; a block left over from a
container that never was comes first (R181, R184). -/
def Dev.victim (d : Dev) : Option Nat :=
  let c := d.store.blocks.filter fun b =>
    decide (b.2.region = .container) && !b.2.erased && !b.2.erasing && b.2.holds == 0 && b.2.readPins == 0 && !b.2.open_
  ((sortBy (fun a b => decide (a.2.seq ≤ b.2.seq)) c).head?).map Prod.fst

/-- The block that takes the place of a retired one: a spare, or for a fast region the oldest unheld container block (R205). -/
def Dev.replacement (d : Dev) (region : Region) : Option Nat :=
  if 0 < d.spares then some (320 + d.sparesUsed) else if region = .container then none else d.victim

/-- An erase of a block is over: the count is in 24 bits, and passing the rated endurance is logged (R204). -/
def Dev.eraseCounted (d : Dev) (b : Nat) (region : Region) (fast : Bool) : Dev :=
  let n := ((d.blk b).ecnt + 1) % 2 ^ 24
  let d := d.onBlk b fun _ => { region := region, fast := fast, ecnt := n, erased := true }
  if n = (d.blk b).rated + 1 then d.logEvent 0x047 1 (le 2 b ++ le 4 n) else d

/-- The ring has lost a block (R205). -/
def Dev.ringShrinks (d : Dev) : Dev := (d.storeErr 7).logEvent 0x049 2 (le 2 d.ringBlocks)

/-- A spare takes the place of a retired block, erased again where its region wants the other mode; a fast region without a spare
takes the oldest unheld container block, and the ring shrinks there and where nothing can be had (R205). -/
def Dev.replaceBlock (d : Dev) (region : Region) : Dev :=
  match d.replacement region with
  | none => if region = .container then d.ringShrinks else d
  | some b =>
    if 0 < d.spares then
      let d := if region = .container then
          ((d.onBlk b fun k => { region := region, ecnt := k.ecnt }).onStore fun s => { s with erasedRing := s.erasedRing ++ [b] }).unstall
        else d.eraseCounted b region true
      if d.spares = 32 then (d.storeErr 6).logEvent 0x048 2 (le 2 32) else d
    else (d.eraseCounted b region true).ringShrinks

/-- A block retires: cause 1 an erase, 2 a program (R205). -/
def Dev.retireBlock (d : Dev) (b cause : Nat) : Dev :=
  let k := d.blk b
  let d := d.onBlk b fun k =>
    { region := .retired, fast := k.fast, ecnt := k.ecnt, erased := false, pages := k.pages, next := k.next, readable := k.readable }
  let d := d.journal 0x55 (le 4 b ++ le 4 k.region.code ++ le 4 k.ecnt ++ le 4 cause) false
  let d := d.logEvent 0x046 1 (le 2 b ++ [u8 k.region.code, u8 cause] ++ le 4 k.ecnt)
  d.replaceBlock k.region

/-- A journal page counts as programmed, and the commands that wait for its records are answered; or it fails, its block retires, and
the page is written again in another block (R190, R193, R205). While the open block has no page left, it waits for the next block's
erase. -/
def Dev.journalDone (d : Dev) (ok : Bool) : Dev :=
  let b := d.store.journal.block
  match d.store.journal.inFlight with
  | [] => d
  | rs :: rest =>
    if d.dieTaken (d.blk b).next || decide (256 ≤ (d.blk b).next) then d
    else if !ok then ((d.storeErr 2).retireBlock b 2).journalNext
    else
      let ps := pieces pageBytes (jbytes rs)
      let d := d.onBlk b fun k =>
        { k with erased := false, pages := k.pages ++ ps, next := k.next + ps.length, readable := k.readable + ps.length }
      let d := d.onStore fun s =>
        { s with journal := { s.journal with inFlight := rest, records := (rs.reverse.map fun r => (b, r)) ++ s.journal.records } }
      d.journalNext.journalAhead.serve.each rs fun d r =>
        match r.kind with
        | 0x50 => d.finish (.hold (numAt r.body 0 8) (numAt r.body 0x34 4)) id
        | 0x51 => d.finish (.release (numAt r.body 0 8)) id
        | _ => d

/-! ### Holds -/

/-- A HOLD body (R191). -/
def Hold.body (h : Hold) : List Byte :=
  le 8 h.id ++ le 8 h.start ++ le 8 h.stop ++ le 8 h.heldFrom ++ le 8 h.firstSeq ++ le 8 h.lastSeq
    ++ [u8 h.origin, u8 h.source] ++ le 2 (b2n h.truncated + b2n h.postOpen * 2) ++ le 4 h.revision
    ++ le 4 h.blocks.length ++ le 4 h.preRoll

/-- A block's span overlaps a window, ends included (R194). -/
def Block.overlaps (b : Block) (start stop : Nat) : Bool := decide (b.first ≤ stop) && decide (start ≤ b.last)

/-- Container blocks that hold one. -/
def Dev.heldBlocks (d : Dev) : Nat := (d.store.blocks.filter fun b => 0 < b.2.holds).length

/-- Pin a block for a hold, and take a hold from it: with its last hold the block is free (R24). -/
def Dev.pin (d : Dev) (b : Nat) : Dev := (d.onBlk b fun k => { k with holds := k.holds + 1 })
def Dev.unpin (d : Dev) (b : Nat) : Dev :=
  let e := d.onBlk b fun k => { k with holds := k.holds - 1 }
  if (d.blk b).holds = 1 then e.unstall else e

/-- The pin fits the limits of R178 and R196. -/
def Dev.canPin (d : Dev) (b : Nat) : Bool :=
  decide ((d.blk b).holds < 255) && (decide (0 < (d.blk b).holds) || decide (d.heldBlocks < d.holdLimit))

/-- Lowest and highest container number and the earliest time held of a hold's blocks (R31, R191). -/
def Dev.holdSpan (d : Dev) (h : Hold) : Hold :=
  let ks := h.blocks.map d.blk
  match sortBy (fun a b => decide (a.seq ≤ b.seq)) ks with
  | [] => { h with heldFrom := 0xFFFFFFFFFFFFFFFF, firstSeq := 0, lastSeq := 0 }
  | k :: rest => { h with heldFrom := Nat.max h.start k.first, firstSeq := k.seq, lastSeq := ((rest.getLast?).getD k).seq }

/-- The blocks of a window, those nearest a time first; a container that has been opened counts before its first page does (R195). -/
def Dev.nearest (d : Dev) (start stop at_ : Nat) : List Nat :=
  let c := d.opened.filter fun b => b.2.overlaps start stop
  let dist := fun (k : Block) => if at_ < k.first then k.first - at_ else at_ - k.last
  (sortBy (fun a b => decide (dist a.2 ≤ dist b.2)) c).map Prod.fst

/-- Pin blocks in order as far as the limits go: those pinned, and those left. -/
def Dev.pinAll (d : Dev) : List Nat → List Nat × Nat × Dev
  | [] => ([], 0, d)
  | b :: bs =>
    if d.canPin b then
      let r := (d.pin b).pinAll bs
      (b :: r.1, r.2.1, r.2.2)
    else
      let r := d.pinAll bs
      (r.1, r.2.1 + 1, r.2.2)

/-- A hold in a new revision: its record is journalled at once (R190, R191). -/
def Dev.reviseHold (d : Dev) (h : Hold) : Dev :=
  let h := d.holdSpan h
  (d.onStore fun s => { s with holds := s.holds.filter (fun x => x.id != h.id) ++ [h] }).journal 0x50 h.body true

/-- The next hold identifier (R191). -/
def Dev.nextHold (d : Dev) : Nat × Dev :=
  (d.time.aon.pcyc * 2 ^ 32 + (d.store.holdCount + 1), d.onStore fun s => { s with holdCount := s.holdCount + 1 })

/-- A trigger hold at its placement edge: it pins from the trigger time outwards, and an open post-roll waits for more
(R30, R32, R195). -/
def Dev.triggerHold (d : Dev) (line t pre post : Nat) : Dev :=
  let start := t - pre * 2 ^ 32
  let stop := t + post * 2 ^ 32
  let r := d.pinAll (d.nearest start stop t)
  let i := r.2.2.nextHold
  let h : Hold :=
    { id := i.1, start := start, stop := stop, origin := 1, source := line, truncated := decide (0 < r.2.1),
      postOpen := decide (d.now < stop), preRoll := pre, blocks := r.1 }
  let d := (i.2.reviseHold h).logEvent 0x041 1 (le 8 i.1 ++ le 4 r.1.length)
  if 0 < r.2.1 then d.logEvent 0x043 3 (le 8 i.1 ++ le 4 r.2.1) else d

/-- Blocks that a command hold over a window would pin (R32, R309). -/
def Dev.holdWants (d : Dev) (start stop : Nat) : List Nat := (d.containers.filter fun b => b.2.overlaps start stop).map Prod.fst

/-- A command hold would exceed a limit (R32, R196). -/
def Dev.holdExceeds (d : Dev) (bs : List Nat) : Bool :=
  (bs.any fun b => decide (255 ≤ (d.blk b).holds))
    || decide (d.holdLimit < d.heldBlocks + (bs.filter fun b => (d.blk b).holds == 0).length)

/-- A container opened after the placement edge is pinned by every hold whose post-roll is open; the first one opened
after the window ends it (R195). At the limit of R178 the hold gives up the farthest block before the trigger that no other hold keeps, where
that makes room (R32). -/
def Dev.pinLater (d : Dev) (b created : Nat) (h : Hold) : Dev :=
  if h.stop < created then d.reviseHold { h with postOpen := false, revision := h.revision + 1 }
  else if d.canPin b then
    (d.pin b).reviseHold { h with blocks := h.blocks ++ [b], revision := h.revision + 1 }
  else
    let t := h.start + h.preRoll * 2 ^ 32
    let before := h.blocks.filter fun k => decide ((d.blk k).last < t) && (d.blk k).holds == 1 && (d.unpin k).canPin b
    match (sortBy (fun a c => decide ((d.blk a).first ≤ (d.blk c).first)) before).head? with
    | some k =>
      (((d.unpin k).pin b).reviseHold
        { h with blocks := h.blocks.filter (· != k) ++ [b], truncated := true, revision := h.revision + 1 }).logEvent
          0x043 3 (le 8 h.id ++ le 4 1)
    | none => (d.reviseHold { h with truncated := true, revision := h.revision + 1 }).logEvent 0x043 3 (le 8 h.id ++ le 4 1)
def Dev.pinOpened (d : Dev) (b created : Nat) : Dev :=
  d.each (d.store.holds.filter fun h => h.postOpen) fun d h => d.pinLater b created h

/-- A hold is released: UNPIN, then the RELEASE record (R34, R196). -/
def Dev.releaseHold (d : Dev) (h : Hold) (port role : Nat) : Dev :=
  let d := d.each h.blocks fun d b => d.unpin b
  let d := d.onStore fun s => { s with holds := s.holds.filter fun x => x.id != h.id }
  (d.journal 0x51 (le 8 h.id ++ le 8 d.now ++ [u8 port, u8 role] ++ zeros 6) true).logEvent 0x042 1 (le 8 h.id ++ [u8 port])

/-! ### The container writer -/

/-- Blocks of the ring that are erased (R184, R214). -/
def Dev.ringErased (d : Dev) : Nat := d.variant.ringLen - d.store.fresh + d.store.erasedRing.length

/-- The oldest erased container block (R184). -/
def Dev.nextRingBlock (d : Dev) : Option Nat :=
  if d.store.fresh < d.variant.ringLen then some (d.variant.ringFirst + d.store.fresh) else d.store.erasedRing.head?

/-- It is taken. -/
def Dev.useRingBlock (d : Dev) : Dev :=
  d.onStore fun s =>
    if s.fresh < d.variant.ringLen then { s with fresh := s.fresh + 1 } else { s with erasedRing := s.erasedRing.drop 1 }

/-- Full pages of the page buffer go to programming (R181). -/
def Dev.formPages (d : Dev) : Dev :=
  match d.store.container with
  | none => d
  | some c =>
    let n := (c.bytes.length - c.paged) / pageBytes
    let ps := pieces pageBytes ((c.bytes.drop c.paged).take (n * pageBytes))
    let jobs := ps.zipIdx.map fun p => ({ owner := .writer, block := c.block, page := c.paged / pageBytes + p.2, data := p.1 } : PageJob)
    ((d.onStore fun s => { s with container := some { c with paged := c.paged + n * pageBytes } }).onBlk
      c.block fun k => if n = 0 then k else { k with erased := false, next := c.paged / pageBytes + n }).enqueue jobs

/-- The custody time that a record stands for (R194): its own, or for a key statement the time it is taken. -/
def recTime (r : StoreRec) (now : Nat) : Nat :=
  match r.kind with
  | 0x10 => numAt r.body 0x20 8
  | 0x20 => numAt r.body 0x10 8
  | 0x21 => numAt r.body 8 8
  | 0x30 => numAt r.body 0x10 8
  | 0x31 => numAt r.body 0x10 8
  | 0x32 => numAt r.body 0x10 8
  | 0x40 => now
  | _ => numAt r.body 0x18 8

/-- A whole record stands in the container: it waits for its last page. -/
def Dev.recTaken (d : Dev) (r : StoreRec) (start : Nat) : Dev :=
  match d.store.container with
  | none => d
  | some c =>
    (d.onStore fun s =>
      { s with container := some { c with records := c.records + 1, cur := none },
               taken := s.taken ++ [{ cseq := c.seq, block := c.block, start := start, stop := start + 16 + r.body.length,
                                      time := recTime r d.now, rec_ := r }] }).onBlk c.block fun k =>
      if c.records = 0 then { k with first := recTime r d.now, last := recTime r d.now } else k

/-- A whole record goes into the container at once. -/
def Dev.putRecord (d : Dev) (r : StoreRec) : Dev :=
  match d.store.container with
  | none => d
  | some c =>
    let d := d.onStore fun s =>
      { s with container := some { c with bytes := c.bytes ++ frameOf r.kind r.lane 0 r.body,
                                          stmt := if r.kind = 0x40 then r.body else c.stmt } }
    (d.recTaken r c.bytes.length).formPages

/-- The key statement of the receipt signing key in force, as a record (R148). -/
def Dev.statementRec (d : Dev) : Option StoreRec :=
  if (d.keySlot 1025).full then some { kind := 0x40, lane := 0xFF, seq := 0, body := (d.keySlot 1025).statement } else none

/-- A container opens in the oldest erased block; its header names the previous one, its first record is the key
statement (R145, R148, R181, R184). -/
def Dev.openContainer (d : Dev) (recon : Bool) : Option Dev :=
  match d.nextRingBlock with
  | none => none
  | some b =>
    let seq := d.store.nextSeq
    let h := d.containerHeader 1 seq d.time.aon.pcyc d.now d.store.prevDigest
    let d := d.useRingBlock.onBlk b fun k => { region := .container, ecnt := k.ecnt, seq := seq, open_ := true, first := d.now, last := d.now }
    let d := d.onStore fun s =>
      { s with container := some { seq := seq, block := b, created := d.now, bytes := h, forRecon := recon, era := s.era }, nextSeq := seq + 1 }
    let d := match d.statementRec with | some r => d.putRecord r | none => d
    some (d.pinOpened b d.now)

/-- A CONTAINER record (R189), its fields in the order that the rule names: number, block, first and last time, record count, and the
digest, or the readable length of a container that was cut. -/
def containerRec (seq block first last records : Nat) (tail : List Byte) : List Byte :=
  le 8 seq ++ le 4 block ++ le 8 first ++ le 8 last ++ le 4 records ++ fitBytes 64 tail ++ zeros 16

/-- The record of a container that its trailer ends. -/
def Dev.journalContainer (d : Dev) (c : OpenContainer) (dig : List Byte) : Dev :=
  let k := d.blk c.block
  let last := ((d.store.taken.filter fun t => t.cseq == c.seq).getLast?.map fun t => t.time).getD k.last
  d.journal 0x53 (containerRec c.seq c.block k.first last c.records dig) false

/-- The trailer ends the container, and its last page is programmed (R147, R181, R182). -/
def Dev.closeContainer (d : Dev) : Dev :=
  match d.store.container with
  | none => d
  | some c =>
    let dig := digest64 c.bytes
    let bytes := padTo pageBytes (c.bytes ++ trailer c.records c.bytes)
    let d := d.onStore fun s => { s with container := some { c with bytes := bytes, cur := none } }
    let d := (d.formPages.journalContainer c dig).onBlk c.block fun k => { k with open_ := false }
    d.onStore fun s => { s with container := none, prevDigest := dig }

/-- The records that the readable prefix of a container holds whole. -/
def Block.records (b : Block) : Nat := (frames ((b.pages.flatten).drop 256)).1.length

/-- A STORE_CUT record, the CONTAINER record with the readable length, the error bit and the event of a cut (R183, R189). -/
def Dev.noteCut (d : Dev) (b : Nat) : Dev :=
  let k := d.blk b
  let len := le 8 (k.readable * pageBytes)
  let d := (d.journal 0x53 (containerRec k.seq b k.first k.last k.records len) false).journal 0x54 (le 8 k.seq ++ len ++ zeros 8) true
  (d.storeErr 5).logEvent 0x044 2 (le 8 k.seq ++ le 4 k.readable)

/-- A block that a container took and no page was formed for is erased still, and stands in the ring again (R181, R184). -/
def Dev.backToRing (d : Dev) (b : Nat) : Dev :=
  if (d.blk b).erased && !(d.blk b).bad then (d.onStore fun s => { s with erasedRing := s.erasedRing ++ [b] }).unstall else d

/-- The cut containers of which no page is in programming any more: their readable length stands; one without a readable page never
was (R181, R183). -/
def Dev.settleCuts (d : Dev) : Dev :=
  let gone := d.store.cuts.filter fun c => !d.store.pages.any fun j => j.block == c.2 && j.owner == .writer
  let d := d.onStore fun s => { s with cuts := s.cuts.filter fun c => !gone.any fun o => o == c }
  let d := d.each gone fun d c =>
    if (d.blk c.2).readable = 0 then (d.onBlk c.2 fun k => { k with seq := 0 }).backToRing c.2 else d.noteCut c.2
  if gone.isEmpty then d else d.onStore fun s => { s with nextSeq := s.lastSeq + 1 }

/-- The next source that has a record, round-robin from the turn; the supervisor follows the last lane (R180). Records of an earlier
generation of stored streams go first, for they end its container (R182). -/
def Dev.writerSource (d : Dev) : Option Nat :=
  let n := d.nLanes + 1
  let heads := fun (i : Nat) => if i = d.nLanes then d.store.supQ.head? else (d.lane i).storeQ.head?
  let first := (List.range n).foldl (fun e i => match heads i with | some r => Nat.min e r.era | none => e) d.store.era
  ((List.range n).map fun i => (d.store.turn + i) % n).find? fun i => (heads i).any fun r => decide (r.era ≤ first)

/-- The record that the writer takes next, and the device without it. A record of a cut container comes first (R183). -/
def Dev.writerNext (d : Dev) : Option (StoreRec × Dev) :=
  match d.store.rewrite with
  | r :: rest => some (r, d.onStore fun s => { s with rewrite := rest })
  | [] =>
    match d.writerSource with
    | none => none
    | some i =>
      let turn := fun (d : Dev) => d.onStore fun s => { s with turn := (i + 1) % (d.nLanes + 1) }
      if i = d.nLanes then
        match d.store.supQ with
        | r :: rest => some (r, turn (d.onStore fun s => { s with supQ := rest }))
        | [] => none
      else
        match (d.lane i).storeQ with
        | r :: rest => some (r, turn (d.onLane i fun l => { l with storeQ := rest }))
        | [] => none

/-- The container holds a further record and a trailer of 88 bytes (R181). -/
def OpenContainer.fits (c : OpenContainer) (r : StoreRec) : Bool :=
  decide (c.bytes.length + framedLen r.body.length + 88 ≤ 1024 * pageBytes)

/-- A changed or first key statement that the open container does not carry (R148). -/
def Dev.statementDue (d : Dev) : Option StoreRec :=
  match d.store.container, d.statementRec with
  | some c, some r => if c.stmt == r.body then none else some r
  | _, _ => none

/-- Lanes with a segment that waits for the writer. -/
def Dev.waitingLanes (d : Dev) : List Nat :=
  (List.range d.nLanes).filter fun n =>
    ((d.lane n).storeQ.any fun r => r.kind == 0x10) || d.store.rewrite.any fun r => r.kind == 0x10 && r.lane == n

/-- No block is erased, none can be, and no erase is under way: the lanes whose units the store cannot take stop accepting, logged
once per hive period and lane (R24). -/
def Dev.noteFull (d : Dev) : Dev :=
  let going := d.store.blocks.any fun b => decide (b.2.region = .container) && b.2.erasing
  if going || d.victim.isSome || d.nextRingBlock.isSome then d
  else
    let ls := d.waitingLanes
    let d := d.onStore fun s => { s with fullLanes := ls }
    d.each ls fun d n =>
      if (d.lane n).stream.fullLogged then d
      else (d.onLane n fun l => { l with stream := { l.stream with fullLogged := true } }).logEvent 0x040 2 [u8 n]

/-- Copy bytes of the record being taken; with its last byte the record is taken. -/
def Dev.copyBytes (d : Dev) (n : Nat) : Dev :=
  match d.store.container with
  | some c =>
    match c.cur with
    | some (r, start, copied) =>
      let f := frameOf r.kind r.lane 0 r.body
      let part := (f.drop copied).take n
      let d := d.onStore fun s =>
        { s with container := some { c with bytes := c.bytes ++ part, cur := some (r, start, copied + part.length) } }
      let d := if copied + part.length = f.length then d.recTaken r start else d
      d.formPages
    | none => d
  | none => d

/-- A container for records of an era, where the ring has a block for it (R182). -/
def Dev.openEra (d : Dev) (era : Nat) : Dev :=
  match d.openContainer false with
  | some d => d.onStore fun s => { s with container := s.container.map fun c => { c with era := era } }
  | none => d

/-- The container in which a record and a key statement that is due fit: the open one, or a new one of the record's generation after its
trailer. Where no block can be had, there is none (R24, R148, R181, R182). -/
def Dev.writerRoom (d : Dev) (r : StoreRec) : Dev :=
  let extra := match d.statementDue with | some s => frameOf s.kind s.lane 0 s.body | none => []
  match d.store.container with
  | some c => if c.fits { r with body := r.body ++ extra } && decide (r.era ≤ c.era) then d else d.closeContainer.openEra r.era
  | none => d.openEra r.era

/-- The record becomes the one that the writer copies, after a key statement that is due. -/
def Dev.writerBegin (d : Dev) (r : StoreRec) : Dev :=
  let d := match d.statementDue with | some s => d.putRecord s | none => d
  (d.onStore fun s => { s with container := s.container.map fun c => { c with cur := some (r, c.bytes.length, 0) } }).unstall

/-- CONTAINER_WRITER_TAKE: up to `n` bytes of the next record enter the page buffer, in a container that holds it; after
the last stored stream of a generation, the container ends. A container that a failed page has ended is settled first (R180 to
R183). -/
def Dev.writerTake (d : Dev) (n : Nat) : Dev :=
  if !(d.store.st = .ready && d.store.writerEn && d.store.cuts.isEmpty) then d
  else
    match d.store.container.bind fun c => c.cur with
    | some _ => d.copyBytes n
    | none =>
      match d.writerNext with
      | none => if d.store.container.any fun c => decide (c.era < d.store.era) || d.power.target == some .standby then d.closeContainer else d
      | some (r, _) =>
        let e := d.writerRoom r
        match e.store.container, e.writerNext with
        | some _, some (_, e) => (e.writerBegin r).copyBytes n
        | _, _ => e.noteFull

/-- A page of a container fails: the container ends at its readable prefix, its block will retire, and every record with
a byte in that page or later is written again, in a container whose prev_container is zero. Earlier pages in programming go on. A
later container in programming is cut as well, so that the records of a stream stay in order (R183). -/
def Dev.cutContainer (d : Dev) (b page : Nat) (failed : Bool) : Dev :=
  let seq := (d.blk b).seq
  let gone := d.store.taken.filter fun t => decide (seq < t.cseq) || (t.cseq == seq && decide (page * pageBytes < t.stop))
  let cur := match d.store.container.bind fun c => c.cur with | some (r, _, _) => [r] | none => []
  let cut := (d.store.blocks.filter fun k => decide (seq ≤ k.2.seq) && decide (k.2.region = .container)).map Prod.fst
  let recs := (gone.map Taken.rec_).filter fun r => r.kind != 0x40
  let d := if failed then (d.storeErr 2).onBlk b fun k => { k with bad := true } else d
  let d := d.onStore fun s =>
    { s with container := none, prevDigest := zeros 64, rewrite := recs ++ cur ++ s.rewrite,
             taken := s.taken.filter fun t => !gone.any fun g => g == t,
             pages := s.pages.filter (fun j => !(j.owner == .writer && cut.contains j.block && (j.block != b || decide (page ≤ j.page)))),
             cuts := s.cuts.filter (fun c => !cut.contains c.2) ++ cut.map fun k => ((d.blk k).seq, k) }
  (d.each cut fun d k => d.onBlk k fun q => { q with open_ := false }).settleCuts.serve

/-- A page that a descriptor programs counts: DONE of its own descriptor (R201). -/
def Store.credit (s : Store) (tag : Nat) : Store :=
  { s with queue := { s.queue with running := s.queue.running.map fun o => if o.tag = tag && o.op = 2 then { o with done := o.done + 1 } else o } }

/-- Jobs of a block that are done count in order (R179). -/
def Dev.countPages (d : Dev) (b : Nat) : Nat → Dev
  | 0 => d
  | fuel + 1 =>
    let k := d.blk b
    match d.store.pages.find? fun j => j.block == b && j.page == k.readable && j.done with
    | none => d
    | some j =>
      let d := d.onBlk b fun k => { k with pages := k.pages ++ [j.data], readable := k.readable + 1, erased := false }
      let d := d.onStore fun s =>
        let s := { s with pages := s.pages.filter fun q => !(q.block == b && q.page == j.page) }
        match j.owner with | .queue t => s.credit t | _ => s
      d.countPages b fuel

/-- Records of container blocks that now count as programmed: segments are taken by the store (R21, R179). -/
def Dev.settleTaken (d : Dev) (b : Nat) : Dev :=
  let k := d.blk b
  let now := d.store.taken.filter fun t => t.block == b && decide (t.stop ≤ k.readable * pageBytes)
  let d := d.onStore fun s =>
    { s with taken := s.taken.filter (fun t => !(t.block == b && decide (t.stop ≤ k.readable * pageBytes))),
             lastSeq := if 0 < k.readable then Nat.max s.lastSeq k.seq else s.lastSeq }
  let d := d.onBlk b fun k => { k with last := (now.getLast?.map fun t => t.time).getD k.last }
  d.each now fun d t => if t.rec_.kind = 0x10 then d.storeTakes t.rec_.lane t.rec_.seq else d

/-! ### Erasing -/

/-- The erase commit edge of a container block: from it on its containers do not exist; a block that a program has
failed in retires instead, and one that a READ pins waits (R183, R184, R202, R205). -/
def Dev.beginErase (d : Dev) (b : Nat) : Dev :=
  if 0 < (d.blk b).readPins then d.onBlk b fun k => { k with eraseDue := true }
  else if (d.blk b).bad then d.retireBlock b 2
  else d.eraseBlock b

/-- RING_PREERASE (R184); reconciliation that waits for a block has one erased before the writer runs (R188). -/
def Dev.preErase (d : Dev) : Dev :=
  let going := (d.store.blocks.filter fun b => decide (b.2.region = .container) && b.2.erasing).length
  if !(d.store.st = .ready && (d.store.writerEn || d.power.startStep = .reconcile) && decide (d.ringErased + going < d.store.preerase)) then d
  else match d.victim with
    | some b => d.beginErase b
    | none => d

/-- A block's erase completes, or fails and the block retires; a suspended one does neither (R202, R204, R205). -/
def Dev.eraseDone (d : Dev) (b : Nat) (ok : Bool) : Dev :=
  let k := d.blk b
  if !k.erasing || d.eraseSuspended then d
  else if !ok then (d.storeErr 3).retireBlock b 1
  else
    let d := d.eraseCounted b k.region k.fast
    match k.region with
    | .container => (d.onStore fun s => { s with erasedRing := s.erasedRing ++ [b] }).unstall
    | .journal => d.journalNext
    | _ => d

/-! ### The close reserve -/

/-- Close-reserve blocks in the order of their rotation (R186). -/
def Dev.reserveRing (d : Dev) : List Nat :=
  (List.range 256).filter (fun b => (d.blk b).region = .closeReserve)
    ++ (d.store.blocks.filter fun b => decide (b.2.region = .closeReserve) && decide (256 ≤ b.1)).map Prod.fst

/-- The next erased block of the rotation from a block on. -/
def Dev.reserveNext (d : Dev) : Option Nat :=
  let l := d.reserveRing
  let from_ := d.store.reserve.nextBlock
  ((l.filter fun b => decide (from_ ≤ b)) ++ l.filter fun b => decide (b < from_)).find? fun b => (d.blk b).erased

/-- The block tag: power cycle, ordinal, first block, opening digest, CRC. DESIGN CHOICE (log entry 85): 64 bytes have no room for the
whole digest beside the other fields, and its first 48 bytes stand there (R186). -/
def Dev.blockTag (d : Dev) (first : Nat) (opening : List Byte) : List Byte :=
  let b := le 4 d.time.aon.pcyc ++ le 4 d.store.reserve.blocks.length ++ le 4 first
    ++ (if d.store.reserve.blocks.isEmpty then zeros 48 else fitBytes 48 opening)
  fitBytes 60 b ++ le 4 (crc32 (fitBytes 60 b))

/-- A block of the rotation is taken for the close, with its tag. -/
def Dev.reserveBlock (d : Dev) (opening : List Byte) : Option Dev :=
  match d.reserveNext with
  | none => none
  | some b =>
    let tag := d.blockTag (d.store.reserve.blocks.headD b) opening
    some ((d.onBlk b fun k => { k with erased := false, inClose := true }).onStore fun s =>
      { s with reserve := { s.reserve with blocks := s.reserve.blocks ++ [b], nextBlock := b + 1, page := 0, buf := tag } })

/-- The page buffer of the close reserve goes to programming, padded with zeros. -/
def Dev.reserveEmit (d : Dev) : Dev :=
  let r := d.store.reserve
  match r.blocks.getLast? with
  | none => d
  | some b =>
    ((d.onStore fun s => { s with reserve := { r with page := r.page + 1, buf := [] } }).onBlk b fun k => { k with next := r.page + 1 }).enqueue
      [{ owner := .closeReserve, block := b, page := r.page, data := fitBytes pageBytes r.buf }]

/-- A block of the close reserve with a page left, if any. -/
def Dev.reserveRoom (d : Dev) (opening : List Byte) : Option Dev :=
  if d.store.reserve.blocks.isEmpty || 256 ≤ d.store.reserve.page then d.reserveBlock opening else some d

/-- Bytes fill the page being formed, which goes when it is full. -/
def Dev.reserveFill (d : Dev) (bs : List Byte) : Dev :=
  let d := d.onStore fun s => { s with reserve := { s.reserve with buf := s.reserve.buf ++ bs } }
  if pageBytes ≤ d.store.reserve.buf.length then d.reserveEmit else d

/-- Bytes go into the close reserve, page by page and block by block: the pages that take them, or nothing when no block is left. -/
def Dev.reserveBytes (d : Dev) (opening : List Byte) : Nat → List Byte → Option (List (Nat × Nat) × Dev)
  | 0, _ => some ([], d)
  | fuel + 1, bs =>
    if bs.isEmpty then some ([], d)
    else
      match d.reserveRoom opening with
      | none => none
      | some d =>
        let room := pageBytes - d.store.reserve.buf.length
        let at_ := (d.store.reserve.blocks.getLast?.getD 0, d.store.reserve.page)
        match (d.reserveFill (bs.take room)).reserveBytes opening fuel (bs.drop room) with
        | some r => some (at_ :: r.1, r.2)
        | none => none

/-- Bytes left in the present close-reserve block. -/
def Reserve.left (r : Reserve) : Nat := if r.blocks.isEmpty then 0 else (256 - r.page) * pageBytes - r.buf.length

/-- A segment or element would need the last erased block, which is kept for the records (R187). -/
def Dev.keepsLast (d : Dev) (r : ReserveRec) : Bool :=
  (r.kind ≤ 5 || r.kind == 0x10) && decide (d.store.reserve.left < framedLen r.body.length)
    && decide (d.crErased ≤ (framedLen r.body.length - d.store.reserve.left) / (256 * pageBytes) + 1)

/-- A record is given up: a segment's unit is LOST, cause STORE_FAULT (R187). -/
def Dev.abandonRec (d : Dev) (r : ReserveRec) : Dev :=
  if r.kind = 0x10 then
    d.onStore fun s => { s with reserve := { s.reserve with abandoned := s.reserve.abandoned ++ [(r.lane, r.seq)] } }
  else d

/-- A record enters the close reserve (R186, R187). -/
def Dev.reservePut (d : Dev) (opening : List Byte) (r : ReserveRec) : Dev :=
  if d.keepsLast r then d.abandonRec r
  else
    let f := frameOf r.kind r.lane 0 r.body
    match d.reserveBytes opening (f.length / pageBytes + 3) f with
    | none => d.abandonRec r
    | some (ps, d) =>
      let d := d.onStore fun s => { s with reserve := { s.reserve with queue := s.reserve.queue ++ [{ r with pages := ps }] } }
      if r.flush && !d.store.reserve.buf.isEmpty then d.reserveEmit else d

/-- Records all of whose pages count join the stored ones, in their order, once every record ahead of them has; a segment is taken for
its unit (R37, R179, R186). -/
def Dev.settleReserve (d : Dev) : Dev :=
  let v := d.store.reserve
  let isIn := fun (r : ReserveRec) => r.pages.all fun p => decide (p.2 < (d.blk p.1).readable)
  let now := v.queue.takeWhile isIn
  let d := d.onStore fun s =>
    { s with reserve := { v with queue := v.queue.dropWhile isIn,
                                 stored := v.stored ++ now.map fun r => { kind := r.kind, lane := r.lane, seq := r.seq, body := r.body } } }
  d.each now fun d r =>
    if r.kind = 0x10 then d.onLane r.lane fun l => l.onUnit r.seq fun u => { u with closeTook := true } else d

/-- A close-reserve page fails: the block retires, and the records of that page and the ones after them are written again in the
next block, from their first byte; earlier pages of the block go on. A third failure of a record's own page gives the record up
(R187, R205). -/
def Dev.reserveFail (d : Dev) (opening : List Byte) (b page : Nat) : Dev :=
  let v := d.store.reserve
  let safe := fun (r : ReserveRec) => r.pages.all fun p =>
    decide (p.2 < (d.blk p.1).readable) || (p.1 == b && decide (p.2 < page)) || !(v.blocks.dropWhile fun x => x != b).contains p.1
  let again := v.queue.dropWhile safe
  let stays := fun (j : PageJob) => j.owner != .closeReserve || !(v.blocks.dropWhile fun x => x != b).contains j.block
    || (j.block == b && decide (j.page < page))
  let d := (d.storeErr 2).onStore fun s =>
    { s with pages := s.pages.filter stays, reserve := { v with queue := v.queue.takeWhile safe, buf := [], page := 256 } }
  let d := (d.retireBlock b 2).serve
  d.each again fun d r =>
    let q : ReserveRec := { r with tries := r.tries + b2n (r.pages.contains (b, page)), pages := [] }
    if 3 ≤ q.tries then d.abandonRec q else d.reservePut opening q

/-! ### Page programs -/

/-- A page of a PROGRAM fails: that page and the later ones of the block do not count, and every descriptor with one of them ends
with PROGRAM_FAIL; earlier pages go on (R201). -/
def Dev.queueFail (d : Dev) (b page : Nat) : Dev :=
  let gone := fun (j : PageJob) => j.block == b && decide (page ≤ j.page)
  let hit := fun (o : StoreOp) => o.op == 2 && d.store.pages.any fun j => gone j && j.owner == .queue o.tag
  let mark := fun (o : StoreOp) => bif hit o then { o with status := Status.programFail.code } else o
  ((d.storeErr 2).onStore fun s =>
    { s with pages := s.pages.filter (fun j => !gone j), queue := { s.queue with running := s.queue.running.map mark } }).serve

/-- A page program of the writer, the close reserve or the queue completes (R179, R183, R187, R201). -/
def Dev.pageProgrammed (d : Dev) (opening : List Byte) (b page : Nat) (ok : Bool) : Dev :=
  match d.store.pages.find? fun j => j.block == b && j.page == page && !j.done && j.started with
  | none => d
  | some j =>
    let mark := (d.onStore fun s =>
      { s with pages := s.pages.map fun q => if q.block = b && q.page = page then { q with done := true } else q }).serve
    let counted := mark.countPages b d.store.pages.length
    match j.owner with
    | .closeReserve => if ok then counted.settleReserve else d.reserveFail opening b page
    | .queue _ => if ok then counted else (d.queueFail b page).retireBlock b 2
    | _ => if ok then (counted.settleTaken b).settleCuts else d.cutContainer b page true

/-! ### Closing and the index -/

/-- At the stop edge the writer ends its container: with a trailer on a record boundary, else by padding inside the
record, and the cut is journalled (R185). -/
def Dev.writerEnd (d : Dev) : Dev :=
  match d.store.container with
  | none => d
  | some c =>
    match c.cur with
    | none => d.closeContainer
    | some (r, _, copied) =>
      if copied = 0 then
        ((d.onStore fun s => { s with container := some { c with cur := none }, rewrite := r :: s.rewrite })).closeContainer
      else
        let d := d.onStore fun s => { s with container := some { c with bytes := padTo pageBytes c.bytes }, rewrite := r :: s.rewrite }
        let d := d.formPages.onBlk c.block fun k => { k with open_ := false }
        (d.onStore fun s => { s with container := none, prevDigest := zeros 64, cuts := s.cuts ++ [(c.seq, c.block)] }).settleCuts

/-- Its final page goes ahead of every other program of its die (R185, R202). -/
def Dev.writerFlush (d : Dev) : Dev :=
  match d.store.container with
  | none => d
  | some c =>
    let e := d.writerEnd
    let last := (e.store.pages.filter fun j => j.owner == .writer && j.block == c.block).getLast?
    e.onStore fun s => { s with flush := last.map fun j => (j.block, j.page) }

/-- What the store keeps without main power, and after a restart: blocks, programmed journal records, the close
reserve's stored records (R192). Pages in programming are lost; a block in the middle of an erase, or of a container that never
was, is erased again before any use, and one that was opened without a page goes back to the ring (R181). -/
def Store.powerUp (s : Store) (v : Variant) : Store :=
  { blocks := (s.blocks.map fun b =>
      (b.1, { b.2 with open_ := false, readPins := 0, erasing := false, inClose := false, holds := 0,
                       eraseDue := false, seq := if b.2.readable = 0 then 0 else b.2.seq, next := b.2.readable })).filter fun b => b.2 != initBlock v b.1,
    journal := { records := s.journal.records, block := s.journal.block },
    reserve := { nextBlock := s.reserve.nextBlock, blocks := s.reserve.blocks, stored := s.reserve.stored },
    fresh := s.fresh,
    erasedRing := s.erasedRing ++ (s.blocks.filter fun b => decide (b.2.region = .container) && b.2.erased && b.2.seq != 0).map Prod.fst,
    lastSeq := s.lastSeq, nextSeq := s.lastSeq + 1 }

/-- A hold as its latest journalled revision gives it, with the blocks that it names (R191, R192). -/
def Dev.holdFrom (d : Dev) (b : List Byte) : Hold :=
  let h : Hold :=
    { id := numAt b 0 8, start := numAt b 8 8, stop := numAt b 0x10 8, heldFrom := numAt b 0x18 8, firstSeq := numAt b 0x20 8,
      lastSeq := numAt b 0x28 8, origin := numAt b 0x30 1, source := numAt b 0x31 1, truncated := (numAt b 0x32 2).testBit 0,
      postOpen := (numAt b 0x32 2).testBit 1, revision := numAt b 0x34 4, preRoll := numAt b 0x3C 4 }
  { h with blocks := if numAt b 0x38 4 = 0 then []
      else (d.containers.filter fun k => decide (h.firstSeq ≤ k.2.seq) && decide (k.2.seq ≤ h.lastSeq) && k.2.overlaps h.start h.stop).map Prod.fst }

/-- Identifiers of the holds in the journal, oldest first, each once. -/
def Journal.holdIds (j : Journal) : List Nat :=
  (j.records.reverse.filter fun r => r.2.kind == 0x50).foldl
    (fun l r => let i := numAt r.2.body 0 8; if l.contains i then l else l ++ [i]) []

/-- A hold's HOLD_PLACE record is found again, and its blocks are pinned (R192). -/
def Dev.scanHold (d : Dev) (i : Nat) : Dev :=
  match d.store.journal.programmed fun r => r.kind == 0x50 && numAt r.body 0 8 == i with
  | none => d
  | some r =>
    let h := d.holdFrom r.body
    (d.each h.blocks fun d b => d.pin b).onStore fun s => { s with holds := s.holds ++ [h] }

/-- The container_digest that a trailer in the block gives (R147). -/
def Block.digest (b : Block) : Option (List Byte) :=
  ((frames ((b.pages.flatten).drop 256)).1.find? fun r => r.1 == 0x7F).map fun r => bytesAt r.2.2 8 64

/-- The digest of the newest container, or a cut where it has neither trailer nor STORE_CUT (R192). -/
def Dev.scanContainer (d : Dev) : Dev :=
  match d.containers.getLast? with
  | none => d.onStore fun s => { s with prevDigest := zeros 64 }
  | some k =>
    match k.2.digest with
    | some dig => d.onStore fun s => { s with prevDigest := dig }
    | none =>
      let d := d.onStore fun s => { s with prevDigest := zeros 64 }
      if (d.store.journal.programmed fun r => r.kind == 0x54 && numAt r.body 0 8 == k.2.seq).isSome then d else d.noteCut k.1

/-- The newest programmed receipt that meets a condition; one that was appended again stands by its issue (R190, R193). -/
def Journal.lastReceipt (j : Journal) (p : JRec → Bool) : Option JRec :=
  ((j.records.map Prod.snd).filter fun r => r.kind == 0x20 && p r).foldl
    (fun a r => match a with | some q => if q.issue < r.issue then some r else a | none => some r) none

/-- The proofs of a receipt among records, by lane (R138). -/
def proofsAmong (lanes : Nat) (rs : List (Nat × Nat × List Byte)) (dig : List Byte) : List (List Byte) :=
  (List.range lanes).map fun i =>
    ((rs.find? fun r => r.1 == 0x21 && r.2.1 == i && bytesAt r.2.2 16 64 == dig).map fun r => r.2.2).getD []

/-- The proofs of a receipt that the sealed store holds. -/
def Dev.proofsStored (d : Dev) (dig : List Byte) : List (List Byte) :=
  proofsAmong d.nLanes (d.containers.flatMap fun c => (frames (c.2.pages.flatten.drop 256)).1) dig

/-- HIVE_LAST_SIGNED and the last-receipt digest come from the journal (R193), and so do the receipts that HIVE_GET answers, of those
since the entry to FLEET (R308). -/
def Dev.scanReceipts (d : Dev) : Dev :=
  let j := d.store.journal
  let since := fun (r : JRec) => decide (d.life.fleetFrom < r.issue)
  let d := match j.lastReceipt fun r => numAt r.body 5 1 == 1 with
    | some r =>
      let d := { d with hive := { d.hive with lastSigned := numAt r.body 0x10 8, gapPower := true } }
      if since r then
        { d with receipts := { d.receipts with lastPeriodic := r.body, lastPeriodicProofs := d.proofsStored (digest64 r.body) } }
      else d
    | none => d
  match j.lastReceipt fun _ => true with
  | some r =>
    let d := { d with receipts := { d.receipts with lastDigest := digest64 r.body } }
    if since r then { d with receipts := { d.receipts with lastAny := r.body, lastAnyProofs := d.proofsStored (digest64 r.body) } } else d
  | none => d

/-- SCAN completes: holds are pinned again, a container without trailer or STORE_CUT gets its cut, and the journal gives
HIVE_LAST_SIGNED and the last-receipt digest (R192, R193). -/
def Dev.scanDone (d : Dev) : Dev :=
  let j := d.store.journal
  let live := j.holdIds.filter fun i => !j.records.any fun r => r.2.kind == 0x51 && numAt r.2.body 0 8 == i
  ((d.each live Dev.scanHold).scanContainer.scanReceipts).onStore fun s => { s with st := .ready }

/-- Bytes from the records' start to the end of the trailer, if there is one (R147). -/
def trailerEnd : List (Nat × Nat × List Byte) → Option Nat
  | [] => none
  | (k, _, b) :: rs => if k = 0x7F then some (framedLen b.length) else (trailerEnd rs).map (· + framedLen b.length)

/-- The bytes of a container for export: up to its trailer or its readable prefix, with HELD set in the header of a held
block (R145, R203). -/
def Block.exported (b : Block) : List Byte :=
  let all := b.pages.flatten
  let bs := match trailerEnd (frames (all.drop 256)).1 with | some n => all.take (256 + n) | none => all
  if 0 < b.holds then bs.take 6 ++ le 2 1 ++ bs.drop 8 else bs

/-- A word-code fault of the store controller (R215). -/
def Dev.storeFaults (d : Dev) : Dev :=
  if d.store.st = .scan || d.store.st = .ready || d.store.st = .close then d.onStore fun s => { s with st := .fault } else d

end Sys2Proof.Machine
end

