-- ==== Sys2Proof/Machine/TileOps.lean ====
section
/-! DEFINITION. The public-key tiles: job checks, dispatch, parking, execution and completion (R338 to R357). -/
namespace Sys2Proof.Machine

/-- What an operation takes (R338): the key's ALG and USE (0 none), bounds of IN, sizes of AUX, OUT and the ALG of the
result slot. -/
structure OpSpec where
  alg : Nat := 0
  use : Nat := 0
  inMin : Nat := 0
  inMax : Nat := 0
  aux : List Nat := []
  out : Nat := 0
  dst : List Nat := []
  /-- It needs random numbers (R346); what it draws beside its representation, and whether it generates a key (R394). -/
  rand : Bool := true
  draws : Nat := 0
  gen : Bool := false
  /-- Nominal time without compare mode, ns (R339). -/
  time : Nat := 0
  timeCmp : Nat := 0

/-- The operations (R338, R339). A 32-byte shared secret enters a slot of an AES-256 or derivation algorithm, a
P-384 x-coordinate one of 48 bytes. -/
def opSpec (op param : Nat) : Option OpSpec :=
  match op with
  | 0x01 => some { alg := 7, use := 5, inMin := 1, inMax := 262144, out := 1280, draws := 1024, time := 160000, timeCmp := 320000 }
  | 0x02 => some { inMin := 1, inMax := 262144, aux := [3073], rand := false, time := 24000, timeCmp := 48000 }
  | 0x03 => some { out := 1793, dst := [7], draws := algLen 7, gen := true, time := 150000000, timeCmp := 152000000 }
  | 0x10 => some { out := 1568, dst := [4], draws := 64, gen := true, time := 30000, timeCmp := 60000 }
  | 0x11 => some { inMin := 1568, inMax := 1568, out := 1568, dst := [1, 2], draws := 32, time := 35000, timeCmp := 70000 }
  | 0x12 => some { alg := 4, use := 2, inMin := 1568, inMax := 1568, dst := [1, 2], time := 45000, timeCmp := 90000 }
  | 0x20 => some { alg := 5, use := 5, inMin := 1, inMax := 262144, out := 96, draws := 64, time := 180000, timeCmp := 360000 }
  | 0x21 => some { inMin := 1, inMax := 262144, aux := [193], rand := false, time := 240000, timeCmp := 480000 }
  | 0x22 => some { out := 97, dst := [5], draws := 48, gen := true, time := 170000, timeCmp := 340000 }
  | 0x23 => some { alg := 5, use := 6, inMin := 97, inMax := 97, dst := [5], time := 170000, timeCmp := 340000 }
  | 0x30 => some { alg := 6, use := 6, inMin := 32, inMax := 32, dst := [1, 2], time := 60000, timeCmp := 120000 }
  | 0x31 => some { out := 32, dst := [6], draws := 32, gen := true, time := 60000, timeCmp := 120000 }
  | 0x40 =>
    some { inMin := 1, inMax := 262144, aux := [if param % 2 = 0 then 772 else 1028], rand := false,
           time := if param % 2 = 0 then 40000 else 65000, timeCmp := if param % 2 = 0 then 80000 else 130000 }
  | _ => none

/-- A tile job descriptor's fields from its eight words (R341). -/
def parseJob (sub : Nat) (w : List Nat) : Job :=
  let f := fun i lo n => w.getD i 0 >>> lo % 2 ^ n
  { sub := sub, op := f 0 0 8, compare := f 0 8 1 == 1, irq := f 0 9 1 == 1, cls := f 0 10 2, param := f 0 12 4, tag := f 0 32 16,
    key := f 1 0 11, dst := f 1 16 11, inAddr := f 2 0 32, inLen := f 3 0 24, auxAddr := f 4 0 32, auxLen := f 5 0 24,
    outAddr := f 6 0 32, outLen := f 7 0 24 }

/-- Reserved bits of a tile job descriptor are zero (R341). -/
def jobReserved (w : List Nat) : Bool :=
  let g := fun i => w.getD i 0
  g 0 >>> 16 % 65536 == 0 && g 1 >>> 11 % 32 == 0 && g 1 >>> 27 == 0 && g 2 >>> 32 == 0 && g 3 >>> 24 == 0 && g 4 >>> 32 == 0
    && g 5 >>> 24 == 0 && g 6 >>> 32 == 0 && g 7 >>> 24 == 0

/-- A slot is short or long as the key's algorithm asks: Falcon-1024 alone stands in a long slot (R338). -/
def lengthFits (alg slot : Nat) : Bool := (alg == 7) == decide (1024 ≤ slot)

/-- The checks of a descriptor, in order (R342). A submitter is the core whose data SRAM it uses: 0 the supervisor, 1 + c comb
controller c. PARAM is a field that only RSA_VERIFY uses (check 2); OUT is all of OUT_LEN (check 7). -/
def Dev.jobCheck (d : Dev) (w : List Nat) (j : Job) : Option Status :=
  match opSpec j.op j.param with
  | none => some .badDescType
  | some o =>
    let k := d.keySlot j.key
    let dst := d.keySlot j.dst
    let auxSize := o.aux.headD 0
    firstBad
      [(!jobReserved w || (o.alg == 0 && j.key != 0x7FF) || (o.dst.isEmpty && j.dst != 0x7FF)
          || (o.inMax == 0 && (j.inAddr != 0 || j.inLen != 0)) || (o.aux.isEmpty && (j.auxAddr != 0 || j.auxLen != 0))
          || (o.out == 0 && (j.outAddr != 0 || j.outLen != 0)) || (j.op != 0x40 && j.param != 0) || decide (j.cls < 2), .badDesc),
       (decide (8 ≤ j.param), .badField),
       (decide (j.inLen < o.inMin) || (!o.aux.isEmpty && decide (j.auxLen < auxSize)) || (o.out != 0 && j.outLen == 0), .badLength),
       (decide (o.inMax < j.inLen) || (!o.aux.isEmpty && decide (auxSize < j.auxLen)), .lenTooLarge),
       (decide (j.outLen < o.out), .outTooSmall),
       (!(inSram j.sub j.inAddr j.inLen && inSram j.sub j.auxAddr j.auxLen && inSram j.sub j.outAddr j.outLen), .badAddr),
       (o.alg != 0 && (!k.full || decide (1087 < j.key)), .slotEmpty),
       ((o.alg != 0 && (attrAlg k.attr != o.alg || !lengthFits o.alg j.key || !d.mayUse j.sub j.key o.use))
          || (!o.dst.isEmpty && (match dst.openFor with
            | some a => !(o.dst.contains (attrAlg a) && lengthFits (attrAlg a) j.dst && owns j.sub (attrOwner a))
            | none => true)),
        .attrDenied)]

/-- A submitter's queue registers. -/
def Dev.pkq (d : Dev) (sub : Nat) : TileQueue := vget d.tiles.queues sub {}
def Dev.onPkq (d : Dev) (sub : Nat) (f : TileQueue → TileQueue) : Dev :=
  { d with tiles := { d.tiles with queues := vupd d.tiles.queues sub f } }
def Dev.onTiles (d : Dev) (f : Tiles → Tiles) : Dev := { d with tiles := f d.tiles }
def Dev.pkErr (d : Dev) (n : Nat) : Dev := d.onTiles fun t => { t with err := setBit t.err n }

/-- A completion's two words go into the submitter's completion queue (R343). -/
def Dev.jobComplete (d : Dev) (j : Job) (status cause : Nat) (compared : Bool) (tile : Option Nat) (out dur : Nat) : Dev :=
  if 9 ≤ j.sub || j.what != .software then d
  else
    let q := d.pkq j.sub
    let w0 := j.tag + (status % 4096) <<< 16 + phaseOf q.cqTail q.size <<< 28 + b2n compared <<< 29 + (cause % 16) <<< 32
      + (tile.getD 0) <<< 36 + b2n tile.isSome <<< 39
    let w1 := out + (Nat.min dur 0xFFFFFF) <<< 24
    let d := d.memPut j.sub (q.cqBase + q.cqTail % 2 ^ q.size * 2) (le 6 w0 ++ le 6 w1)
    d.onPkq j.sub fun q => { q with cqTail := idxAdd q.cqTail 1, irq := q.irq || j.irq }

/-- Jobs of a submitter that have no completion yet. -/
def Dev.jobsOf (d : Dev) (sub : Nat) : Nat :=
  (d.tiles.waiting.filter fun j => j.sub == sub && j.what == .software).length
    + (d.tiles.tiles.toList.map fun t => (t.running.toList ++ t.parked).countP fun j => j.sub == sub && j.what == .software).sum

/-- One more job has completed (R356). DESIGN CHOICE (log entry 89): a descriptor that R342 rejects is no job. -/
def Dev.jobCount (d : Dev) : Dev := d.onTiles fun t => { t with jobs := satInc 32 t.jobs }

/-- A job completes, and counts. -/
def Dev.jobOver (d : Dev) (j : Job) (status : Status) (cause : Nat) (tile : Option Nat) (out dur : Nat) : Dev :=
  (d.jobComplete j status.code cause j.cmp tile out dur).jobCount

/-- The words of a submitter's descriptor. -/
def Dev.jobWords (d : Dev) (sub i : Nat) : List Nat :=
  let q := d.pkq sub
  (spGetAll zeroWord (d.core sub).dmem (q.sqBase + i % 2 ^ q.size * 8) 8).map BitVec.toNat

/-- The dispatcher takes descriptors while the completion queue has a slot for each (R342, R344); one that PK_ABORT has reached ends at
once (R348). -/
def Dev.takeJobs (d : Dev) (sub : Nat) : Nat → Dev
  | 0 => d
  | fuel + 1 =>
    let q := d.pkq sub
    if !(q.en && q.sqHead != q.sqTail && decide (idxDiff q.cqTail q.cqHead + d.jobsOf sub < 2 ^ q.size)) then d
    else
      let w := d.jobWords sub q.sqHead
      let j := parseJob sub w
      let d := d.onPkq sub fun q => { q with sqHead := idxAdd q.sqHead 1, aborted := q.aborted.filter (· != q.sqHead) }
      let d :=
        if q.aborted.contains q.sqHead then d.jobOver j .internalFault 2 none 0 0
        else match d.jobCheck w j with
          | some st => (d.pkErr 4).jobComplete j st.code 0 false none 0 0
          | none => d.onTiles fun t => { t with waiting := t.waiting ++ [j] }
      d.takeJobs sub fuel

/-- All that it may take. -/
def Dev.takeAll (d : Dev) (sub : Nat) : Dev := d.takeJobs sub (2 ^ (d.pkq sub).size)

/-- A write of PK_SQ_TAIL (R344). -/
def Dev.pkDoorbell (d : Dev) (sub tail : Nat) : Dev :=
  let q := d.pkq sub
  if 2 ^ q.size < idxDiff tail q.sqHead then d.pkErr 3
  else (d.onPkq sub fun q => { q with sqTail := tail }).takeAll sub

/-- A sequencer's job: a Falcon signature with a long key (R340). -/
def Dev.seqJob (d : Dev) (sub cls : Nat) (what : JobFor) (tried : List Nat) : Dev :=
  d.onTiles fun t => { t with waiting := t.waiting ++ [{ sub := sub, op := 1, cls := cls, key := 1025, what := what, tried := tried }] }

/-- The job runs in compare mode (R353). -/
def Dev.compares (d : Dev) (j : Job) : Bool :=
  let fleet := decide (d.life.st = .fleet)
  let secret := match opSpec j.op j.param with | some o => o.rand | none => false
  match j.what with
  | .receipt | .closeRec _ => fleet || d.hive.compare
  | _ => if secret then fleet || j.compare || d.tiles.compareDef else j.compare

/-- What the exponent of an RSA_VERIFY adds to its nominal time, without compare mode, ns (R339). -/
def expTime (param e : Nat) : Nat := (Nat.log2 e - 16) * (if param % 2 = 0 then 2000 else 3500)

/-- Bytes from a submitter's data SRAM. -/
def Dev.operand (d : Dev) (j : Job) (addr len : Nat) : List Byte := if j.sub ≤ 8 then d.memGet j.sub addr len else []

/-- Nominal time of a job in compare mode or without, ns (R339). -/
def Dev.nominalIn (d : Dev) (j : Job) (cmp : Bool) : Nat :=
  match opSpec j.op j.param with
  | some o =>
    let over4k := j.inLen - 4096
    let e := if j.op = 0x40 then expTime j.param (numAt (d.operand j j.auxAddr j.auxLen) (if j.param % 2 = 0 then 384 else 512) 4) else 0
    if cmp then o.timeCmp + over4k * 4 / 10 + 2 * e else o.time + over4k * 2 / 10 + e
  | none => 0

/-- Nominal time of a job that waits, in the mode in which it will run. -/
def Dev.nominal (d : Dev) (j : Job) : Nat := d.nominalIn j (d.compares j)

/-- Time that a running job has run, and its nominal remaining time. -/
def Dev.ranTime (d : Dev) (j : Job) : Nat := j.ran + (d.clk - j.start)
def Dev.remaining (d : Dev) (j : Job) : Nat := d.nominalIn j j.cmp - d.ranTime j

/-- The job needs random numbers (R346). -/
def Job.needs (j : Job) : Bool := match opSpec j.op j.param with | some o => o.rand | none => false

/-- Tiles that take jobs. -/
def Dev.tileTakes (d : Dev) (t : Nat) : Bool :=
  d.tiles.tileEn.testBit t && decide ((d.tile t).st ≠ .off) && decide ((d.tile t).st ≠ .fault)

/-- A job may be offered to a tile: random output is there if it needs it, and a retry goes to a tile not tried yet
while one is enabled (R346). -/
def Dev.offers (d : Dev) (t : Nat) (j : Job) : Bool :=
  let needs := j.needs
  let free := (List.range 8).any fun i => d.tiles.tileEn.testBit i && !j.tried.contains i
  (!needs || d.rng.ready || j.cls == 0) && !(j.tried.contains t && free)

/-- An idle tile of a lower number is offered the job first (R234, R346, R349). -/
def Dev.lowerIdle (d : Dev) (t : Nat) (j : Job) : Bool :=
  (List.range t).any fun i => decide ((d.tile i).st = .idle) && d.tileTakes i && d.offers i j

/-- It qualifies against what the tile runs (R346). -/
def Dev.qualifies (d : Dev) (t : Nat) (against : Option Job) (parked : Nat) (j : Job) : Bool :=
  d.tileTakes t && d.offers t j && !d.lowerIdle t j &&
    match against with
    | none => true
    | some r => decide (j.cls < r.cls) || (j.cls == r.cls && parked == 0 && decide (2 * d.nominal j < d.remaining r))

/-- Waiting jobs in the order of R346: by class, round-robin over submitters, then as submitted. One that does not qualify holds up
none behind it. -/
def Tiles.order (t : Tiles) : List Job :=
  [0, 1, 2, 3].flatMap fun c =>
    let last := vget t.served c 10
    (List.range 11).flatMap fun i =>
      let s := (last + 1 + i) % 11
      t.waiting.filter fun j => j.cls == c && j.sub == s

/-- The job that the dispatcher offers a tile. -/
def Dev.firstFor (d : Dev) (t : Nat) (against : Option Job) (parked : Nat) : Option Job :=
  d.tiles.order.find? fun j => d.qualifies t against parked j

/-- What the tile's most recently parked job stands for: it is as running, at a yield point (R347). -/
def Dev.tileTop (d : Dev) (t : Nat) : Option Job := (d.tile t).parked.head?.map fun p => { p with start := d.clk }

/-- The instance that serves a submitter's draws (R352). -/
def Job.rng (j : Job) : Nat := if 1 ≤ j.sub && j.sub ≤ 8 then j.sub else 0

/-- What a starting job draws for its nonce and sampler seed, its k, its message or its key; a key generation reseeds first (R352,
R394, R396). -/
def Dev.nonceDraw (d : Dev) (j : Job) (o : OpSpec) : List Byte × Dev :=
  if j.cls = 0 then d.closeDraw 1024
  else if o.draws = 0 then ([], d)
  else d.randDraw j.rng o.draws o.gen

/-- Its scratch key and, where it holds a secret, its representation (R351, R352, R394). DESIGN CHOICE (log entry 89): a second
representation in compare mode is a second draw; a close job has both from its 1,024 bytes; and a verification that finds no random output
has a scratch key all the same. -/
def Dev.blindDraw (d : Dev) (j : Job) (o : OpSpec) (cmp : Bool) : List Byte × Dev :=
  if j.cls = 0 || !(o.rand || d.canDraw j.rng) then d.draw 128
  else d.randDraw j.rng (if o.rand && cmp && o.draws != 1024 then 256 else 128) false

/-- A tile starts the job of one operation: it must be the one the dispatcher offers an idle tile, or a tile whose
running job is parked for it (R345 to R347, R350). The mode, the draws and the key are those of the start (R352, R353, R374). -/
def Dev.startJob (d : Dev) (t op : Nat) : Dev :=
  let tile := d.tile t
  if tile.running.isSome then d
  else
    match d.firstFor t (d.tileTop t) (tile.parked.length - 1) with
    | none => d
    | some j =>
      if j.op != op then d
      else
        let o := (opSpec j.op j.param).getD {}
        let cmp := d.compares j
        let n := d.nonceDraw j o
        let b := n.2.blindDraw j o cmp
        let run := { j with start := d.clk, input := if j.sub ≤ 8 then d.operand j j.inAddr j.inLen else j.input,
                            aux := d.operand j j.auxAddr j.auxLen, secret := (d.keySlot j.key).key, slot := d.keySlot j.key,
                            cmp := cmp, drawn := n.1, scratch := b.1,
                            tried := if j.sub = 9 || j.sub = 10 then j.tried ++ [t] else j.tried }
        let d := b.2.onTiles fun ts => { ts with waiting := ts.waiting.erase j, served := vupd ts.served j.cls fun _ => j.sub }
        d.onTile t fun q => { q with st := .run, running := some run }

/-- A job has ended: the tile clears its scratch (R345, R357). DESIGN CHOICE (log entry 89): for the full 4 µs, unless it is offered a
job before. -/
def Dev.tileRest (d : Dev) (t : Nat) : Dev :=
  d.onTile t fun q => { q with running := none, st := .clear, clearAt := d.clk + 4000 }

/-- After the clear, or where the job for which another was parked has gone: a waiting job that would qualify against the most recently
parked one is to start instead, else that one resumes; with none parked the tile is idle, or off when disabled (R347, R357). -/
def Dev.tileSettle (d : Dev) (t : Nat) : Dev :=
  let tile := d.tile t
  if tile.running.isSome || !(tile.st == .park || (tile.st == .clear && decide (tile.clearAt ≤ d.clk))) then d
  else
    match tile.parked with
    | [] => d.onTile t fun q => { q with st := if d.tiles.tileEn.testBit t then .idle else .off }
    | p :: rest =>
      if (d.firstFor t (d.tileTop t) rest.length).isSome then d.onTile t fun q => { q with st := .park }
      else d.onTile t fun q => { q with st := .run, running := some { p with start := d.clk }, parked := rest }

/-- A running job's end without a result. -/
def Dev.dropRunning (d : Dev) (t cause : Nat) : Dev :=
  match (d.tile t).running with
  | none => d
  | some j => (d.jobOver j .internalFault cause (some t) 0 (ceilDiv (d.ranTime j) 1000)).tileRest t

/-- TILE_YIELD_POINT: the running job is abandoned where that is pending, parked for a waiting job that qualifies, or
continues (R345 to R347). A cause above 15 stands for a job that ends without a completion (R349). -/
def Dev.yieldPoint (d : Dev) (t : Nat) : Dev :=
  let tile := d.tile t
  match tile.running with
  | none => d
  | some j =>
    match j.abandon with
    | some c =>
      if 15 < c then d.tileRest t else d.dropRunning t c
    | none =>
      if (d.firstFor t (some j) tile.parked.length).isSome && decide (tile.parked.length < 3) then
        d.onTile t fun q => { q with st := .park, running := none, parked := { j with ran := d.ranTime j } :: q.parked }
      else d

/-- The result of an operation on its operands: status, output bytes and the value for the result slot (R338, R343). -/
def Job.result (j : Job) : Status × List Byte × List Byte × List Byte :=
  match j.op with
  | 0x01 => (.ok, falconSig j.secret j.input j.drawn, [], [])
  | 0x02 =>
    if !Config.falconPubValid (bytesAt j.aux 0 1793) then (.badField, [], [], [])
    else (if Config.falconVerify (bytesAt j.aux 0 1793) j.input (bytesAt j.aux 1793 1280) then .ok else .badSignature, [], [], [])
  | 0x03 => let k := keyFrom 7 j.drawn; (.ok, k.2, k.1, k.2)
  | 0x10 => let k := keyFrom 4 j.drawn; (.ok, k.2, k.1, k.2)
  | 0x11 =>
    let e := Config.kemEncaps j.input j.drawn
    if !Config.kemPubValid j.input then (.badField, [], [], []) else (.ok, fitBytes 1568 e.1, fitBytes 32 e.2, [])
  | 0x12 => (.ok, [], fitBytes 32 (Config.kemDecaps j.secret j.input), [])
  | 0x20 => (.ok, fitBytes 96 (Config.ecdsaSign j.secret j.input j.drawn), [], [])
  | 0x21 =>
    if !Config.p384PubValid (bytesAt j.aux 0 97) then (.badField, [], [], [])
    else (if Config.ecdsaVerify (bytesAt j.aux 0 97) j.input (bytesAt j.aux 97 96) then .ok else .badSignature, [], [], [])
  | 0x22 => let k := keyFrom 5 j.drawn; (.ok, k.2, k.1, k.2)
  | 0x23 =>
    match Config.ecdhP384 j.secret j.input with
    | some x => (.ok, [], fitBytes 48 x, [])
    | none => (.badField, [], [], [])
  | 0x30 =>
    let x := fitBytes 32 (Config.x25519 j.secret j.input)
    if x = zeros 32 then (.badField, [], [], []) else (.ok, [], x, [])
  | 0x31 => let k := keyFrom 6 j.drawn; (.ok, k.2, k.1, k.2)
  | _ =>
    let n := if j.param % 2 = 0 then 384 else 512
    let e := numAt j.aux n 4
    if e % 2 = 0 || e < 3 then (.badField, [], [], [])
    else if Config.rsaVerify (bytesAt j.aux 0 (n + 4) ++ [u8 j.param]) j.input (bytesAt j.aux (n + 4) n) then (.ok, [], [], [])
    else (.badSignature, [], [], [])

/-- How a sequencer's job ended: what it was for, the draw of its signature or the cause, the tiles it has run on, and the slot of the key
it fetched; `late` says that it ended on the edge that abandoned it. -/
structure JobEnd where
  what  : JobFor
  sig   : Option (List Byte)
  cause : Nat
  tried : List Nat
  slot  : KeySlot := {}
  late  : Bool := false

/-- A sequencer's job that has failed with a cause ends for it; one that it has given up is no attempt any more (R111, R119). -/
def Job.failed (j : Job) (cause : Nat) : List JobEnd :=
  if j.what = .software || j.abandon.isSome then [] else [{ what := j.what, sig := none, cause := cause, tried := j.tried }]

/-- What TILE_JOB_COMPLETE leaves to the sequencers and the tamper monitors. -/
structure JobOut where
  ends     : List JobEnd := []
  mismatch : Bool := false

/-- A mismatch is counted, logged and reported (R354). -/
def Dev.mismatch (d : Dev) (t : Nat) (j : Job) : Dev :=
  (d.onTiles fun ts => { ts with mismatch := satInc 32 ts.mismatch, err := setBit ts.err 1 }).logEvent 0x145 2
    [u8 t, u8 j.op, u8 j.sub]

/-- The two computations of compare mode differ (R354). -/
def Dev.jobMismatch (d : Dev) (t : Nat) (j : Job) (dur : Nat) : Dev :=
  ((d.mismatch t j).jobOver j .internalFault 1 (some t) 0 dur).tileRest t

/-- A job on a tile ends there with a cause, after it has run so long; one that is abandoned without a completion ends without one
(R349, R355). -/
def Dev.jobGone (d : Dev) (t cause : Nat) (j : Job) (ran : Nat) : Dev :=
  if 15 < j.abandon.getD 0 then d else d.jobOver j .internalFault cause (some t) 0 (ceilDiv ran 1000)

/-- All jobs of a tile end with a cause: the running one, then the parked ones. -/
def Dev.tileGone (d : Dev) (t cause : Nat) (tile : Tile) : Dev :=
  let d := d.each tile.running.toList fun d j => d.jobGone t cause j (d.ranTime j)
  d.each tile.parked fun d j => d.jobGone t cause j j.ran

/-- A word-code fault ends every job on the tile (R355). -/
def Dev.jobFault (d : Dev) (t : Nat) : Dev :=
  let tile := d.tile t
  (((d.onTile t fun q => { q with st := .fault, running := none, parked := [] }).pkErr 2).tileGone t 5 tile)

/-- A result key goes into the slot that OPEN_DST has marked (R381). -/
def Dev.jobKey (d : Dev) (dst : Nat) (secret pub : List Byte) : Dev :=
  match (d.keySlot dst).openFor with
  | some a =>
    let slot : KeySlot := { attr := a, key := fitBytes (algLen (attrAlg a)) secret, pub := pub, tag := d.tagOf a,
                            created := d.now, pcyc := d.time.aon.pcyc, meas := d.keys.meas.mS }
    if attrPersist a then d.keyRecord { kind := 1, index := dst, slot := slot } else d.setKey dst slot
  | none => d

/-- A software job has run: its results and its completion. -/
def Dev.jobResults (d : Dev) (t : Nat) (j : Job) (dur : Nat) : Dev :=
  let r := j.result
  let d := if r.1 = .ok && !r.2.1.isEmpty then d.memPut j.sub j.outAddr r.2.1 else d
  let d := if r.1 = .ok && !r.2.2.1.isEmpty then d.jobKey j.dst r.2.2.1 r.2.2.2 else d
  (d.jobOver j r.1 0 (some t) (if r.1 = .ok then r.2.1.length else 0) dur).tileRest t

/-- TILE_JOB_COMPLETE: the job on a tile ends. `fault` is 0, or the cause of an INTERNAL_FAULT: 1 a mismatch in compare
mode, 5 a word-code fault of the tile; 16 is a DMA fault (R343, R345, R350 to R355). A completion on the edge that abandons the job stands
(R111, R119, R348). -/
def Dev.jobDone (d : Dev) (t fault : Nat) : JobOut × Dev :=
  let tile := d.tile t
  match tile.running with
  | none => ({}, d)
  | some j =>
    let dur := ceilDiv (d.ranTime j) 1000
    let seq := decide (j.what ≠ .software)
    if fault = 5 then ({ ends := (j :: tile.parked).flatMap fun k => k.failed 5 }, d.jobFault t)
    else if j.abandon.isSome && j.abandonAt != some d.clk then ({}, d.yieldPoint t)
    else if fault = 1 && j.cmp then ({ ends := j.failed 1, mismatch := true }, d.jobMismatch t j dur)
    else if fault = 16 && j.sub ≤ 8 && !seq then ({}, (d.jobOver j .dmaFault 0 (some t) 0 dur).tileRest t)
    else if seq then
      ({ ends := [{ what := j.what, sig := some j.drawn, cause := 0, tried := j.tried, slot := j.slot, late := j.abandon.isSome }] },
       d.jobCount.tileRest t)
    else ({}, d.jobResults t j dur)

/-- Abandonment of a job, with a cause; on this edge a completion stands (R345, R348). -/
def Job.giveUp (j : Job) (cause now : Nat) : Job := { j with abandon := some cause, abandonAt := some now }

/-- A submitter's jobs are abandoned (R348). -/
def Dev.abortJobs (d : Dev) (p : Job → Bool) : Dev :=
  let queued := d.tiles.waiting.filter p
  let d := d.onTiles fun t => { t with waiting := t.waiting.filter fun j => !p j }
  let d := d.each queued fun d j => d.jobOver j .internalFault 2 none 0 0
  d.each (List.range 8) fun d t =>
    let parked := (d.tile t).parked.filter p
    let d := d.onTile t fun q =>
      { q with parked := q.parked.filter (fun j => !p j), running := q.running.map fun j => if p j then j.giveUp 2 d.clk else j }
    d.each parked fun d j => d.jobOver j .internalFault 2 (some t) 0 (ceilDiv j.ran 1000)

/-- Descriptors with a tag that wait for a completion slot. -/
def Dev.heldJobs (d : Dev) (sub tag : Nat) : List Nat :=
  let q := d.pkq sub
  if !q.en then []
  else ((List.range (Nat.min (idxDiff q.sqTail q.sqHead) (2 ^ q.size))).map (idxAdd q.sqHead)).filter fun i =>
    (parseJob sub (d.jobWords sub i)).tag == tag && !q.aborted.contains i

/-- PK_ABORT with GO: a submitter's jobs with a tag; one not taken yet ends when its completion has a slot (R344, R348). -/
def Dev.pkAbort (d : Dev) (sub tag : Nat) : Dev :=
  let tag := tag % 65536
  let held := d.heldJobs sub tag
  (d.abortJobs fun j => j.sub == sub && j.tag == tag && j.what == .software).onPkq sub fun q => { q with aborted := q.aborted ++ held }

/-- The stop edge of a close: what is not CLOSE goes, without a completion (R349). -/
def Dev.tilesStop (d : Dev) : Dev :=
  let d := d.onTiles fun t => { t with waiting := t.waiting.filter fun j => j.cls == 0 }
  d.each (List.range 8) fun d t =>
    d.onTile t fun q =>
      { q with parked := q.parked.filter (fun j => j.cls == 0), running := q.running.map fun j => if j.cls = 0 then j else { j with abandon := some 16, abandonAt := none } }

/-- A job that a purge ends: it names a key or draws random numbers (R355). -/
def Job.purged (j : Job) : Bool := j.needs || j.key != 0x7FF || j.dst != 0x7FF

/-- The jobs of the sequencers that a purge ends. -/
def Dev.purgeEnds (d : Dev) : List JobEnd :=
  let all := d.tiles.waiting ++ d.tiles.tiles.toList.flatMap fun t => t.running.toList ++ t.parked
  (all.filter Job.purged).flatMap fun j => j.failed 4

/-- They end on a tile, parked or running; the running one stops at once (R351, R355). -/
def Dev.tilePurge (d : Dev) (t : Nat) : Dev :=
  let parked := (d.tile t).parked.filter Job.purged
  let d := d.onTile t fun q => { q with parked := q.parked.filter fun j => !j.purged }
  let d := d.each parked fun d j => d.jobOver j .internalFault 4 (some t) 0 (ceilDiv j.ran 1000)
  match (d.tile t).running with
  | some j => if j.purged then (d.jobGone t 4 j (d.ranTime j)).tileRest t else d
  | none => d

/-- PURGE or DESTROY: every job that names a key or draws random numbers completes with ZEROISED; verifications go on (R355). -/
def Dev.tilesPurge (d : Dev) : Dev :=
  let queued := d.tiles.waiting.filter Job.purged
  let d := d.onTiles fun t => { t with waiting := t.waiting.filter fun j => !j.purged }
  let d := d.each queued fun d j => d.jobOver j .internalFault 4 none 0 0
  d.each (List.range 8) Dev.tilePurge

/-- A waggle RESET of a tile (R104, R355). -/
def Dev.tileReset (d : Dev) (t : Nat) : Dev :=
  let tile := d.tile t
  (d.onTile t fun _ => { st := if d.tiles.tileEn.testBit t then .idle else .off }).tileGone t 3 tile

/-- A write of PK_CTRL.TILE_EN; 0 is refused (R356). -/
def Dev.tileEnable (d : Dev) (en : Nat) : Dev :=
  if en % 256 = 0 then d.pkErr 0
  else
    let d := d.onTiles fun t => { t with tileEn := en % 256 }
    d.each (List.range 8) fun d t => d.onTile t fun q =>
      if en.testBit t then (if q.st = .off then { q with st := .idle } else q)
      else if q.st = .idle then { q with st := .off } else q

/-- Some job waits or runs for software or the sequencers (R221). -/
def Dev.tilesBusy (d : Dev) : Bool :=
  !d.tiles.waiting.isEmpty || d.tiles.tiles.toList.any fun t => t.running.isSome || !t.parked.isEmpty

end Sys2Proof.Machine
end

