-- ==== Sys2Proof/Machine/HiveOps.lean ====
section
/-! DEFINITION. The hive sequencer: boundaries, captures, receipts and their drops, lane epochs, links and epoch
signatures (R106 to R120). -/
namespace Sys2Proof.Machine

/-- Change the HIVE_ block and the receipts. -/
def Dev.onHive (d : Dev) (f : Hive → Hive) : Dev := { d with hive := f d.hive }
def Dev.onReceipts (d : Dev) (f : Receipts → Receipts) : Dev := { d with receipts := f d.receipts }
def Dev.hiveErr (d : Dev) (n : Nat) : Dev := d.onHive fun h => { h with err := setBit h.err n }

/-- Tree depth (R98, R99), and the cycles of one direction and of a whole operation. -/
def Dev.wagDepth (d : Dev) : Nat := match d.variant with | .vtz8064 => 4 | .vtz8032 => 3
def Dev.wagHalf (d : Dev) : Nat := 4 * d.wagDepth + 4
def Dev.wagWhole (d : Dev) : Nat := 8 * d.wagDepth + 8

/-- Nanoseconds until a custody time, rounded up; 0 once it is reached. -/
def Dev.nsUntil (d : Dev) (t : Nat) : Nat := ceilDiv ((t - d.now) * 1000000000) 4294967296

/-- Withdraw tile jobs; a running one stops at its next yield point (R111). -/
def Dev.dropJobs (d : Dev) (hit : Job → Bool) : Dev :=
  let d := d.onTiles fun t => { t with waiting := t.waiting.filter fun j => !hit j }
  d.each (List.range 8) fun d t => d.onTile t fun q =>
    { q with parked := q.parked.filter (fun j => !hit j), running := q.running.map fun j => if hit j then j.giveUp 16 d.clk else j }

/-- A tile runs such a job, which nothing has abandoned. -/
def Dev.runsJob (d : Dev) (hit : Job → Bool) : Bool :=
  d.tiles.tiles.toList.any fun t => t.running.any fun j => hit j && j.abandon.isNone

/-- The jobs of the hive sequencer, and of a lane's epoch signature. -/
def Job.ofReceipt (j : Job) : Bool := j.what == .receipt
def Job.ofEpoch (n : Nat) (j : Job) : Bool := j.what == .epochSig n

/-- The device as a signing job saw it: with the key that the job has fetched (R374). -/
def Dev.withKey (d : Dev) (k : Option KeySlot) : Dev := match k with | some k => d.setKey 1025 k | none => d

/-- A receipt is dropped (R111, R115): cause 1 snapshot, 2 signing, 3 deadline, 4 time step, 5 entry to CLOSE. -/
def Dev.noteDrop (d : Dev) (m : Making) (cause : Nat) : Dev :=
  let d := match cause with
    | 1 => d.hiveErr 2 | 2 => d.hiveErr 3 | 3 => d.hiveErr 4 | 4 => d.hiveErr 5 | _ => d
  let d := if m.kind = .periodic then d.onHive fun h => { h with drops := satInc 32 h.drops, gapDrop := true } else d
  let d := d.logEvent 0x080 2 (le 8 m.boundary ++ [u8 m.kind.code, u8 cause])
  d.each m.waiters fun d w => d.refuse w.1 w.2 .receiptDropped

/-- The next captured receipt comes to be hashed once its snapshot has completed, or the sequencer waits again (R124). -/
def Dev.nextMaking (d : Dev) : Dev :=
  let st := fun (s : HiveSt) (d : Dev) => d.onHive fun h => if h.st = .idle || h.st = .stopped then h else { h with st := s }
  match d.receipts.queued with
  | m :: rest =>
    let flies := d.wag.flights.any fun f => f.acted && f.why != SnapFor.software && f.seq == m.snapSeq
    st (if flies then .capture else .hash) (d.onReceipts fun r => { r with making := some m, queued := rest })
  | [] => st .armed (d.onReceipts fun r => { r with making := none })

/-- The receipt of ISSUE is written (R110, R124). -/
def Dev.issueEnds (d : Dev) : Dev := if d.hive.st = .issue then d.nextMaking else d

/-- Drop the receipt in making and those behind it. -/
def Dev.abandonReceipts (d : Dev) (cause : Nat) : Dev :=
  let all := d.receipts.making.toList ++ d.receipts.queued
  if all.isEmpty then d
  else
    let d := (d.dropJobs Job.ofReceipt).each all fun d m => d.noteDrop m cause
    (d.onReceipts fun r => { r with queued := [] }).nextMaking

/-- At the deadline: a receipt that a tile signs is dropped when the edge is over, for its signature may complete on the edge (R111, R122,
R348). -/
def Dev.lapseReceipts (d : Dev) : Dev :=
  match d.receipts.making with
  | some m =>
    if d.runsJob Job.ofReceipt then
      let d := (d.dropJobs Job.ofReceipt).each d.receipts.queued fun d m => d.noteDrop m 3
      (d.onReceipts fun r => { r with queued := [], lapsed := some m }).nextMaking
    else d.abandonReceipts 3
  | none => d.abandonReceipts 3

/-- The edge of a deadline is over: what did not complete on it is dropped (R29, R111, R119). -/
def Dev.lapse (d : Dev) : Dev :=
  let sigs := d.receipts.lapsedSigs
  let d := match d.receipts.lapsed with
    | some m => (d.onReceipts fun r => { r with lapsed := none }).noteDrop m 3
    | none => d
  if sigs.isEmpty then d
  else (d.onReceipts fun r => { r with lapsedSigs := [] }).each sigs fun d s => d.logEvent 0x088 2 ([u8 s.1] ++ le 8 s.2.1)

/-- No snapshot of the sequencer's waits; software's own stays pending (R101). -/
def Dev.unpend (d : Dev) : Dev :=
  if d.wag.soft then d else { d with wag := { d.wag with pending := d.wag.pending.filter fun (p : WagOp) => p != WagOp.snapshot } }

/-- Demands end without a receipt; a snapshot that is in flight for the sequencer reaches the endpoints and forms none. -/
def Dev.dropDemand (d : Dev) (st : Status) : Dev :=
  let w := d.receipts.demandFor ++ d.receipts.taken
  let d := d.onReceipts fun r => { r with demand := false, demandFor := [], taken := [] }
  let d := d.unpend
  let d := { d with wag := { d.wag with
    flights := d.wag.flights.map fun (f : Flight) => if f.acted then f else { f with why := SnapFor.software } } }
  d.each w fun d w => d.refuse w.1 w.2 st

/-- The sequencer stops: to IDLE, or to STOPPED at the entry to CLOSE or at a DESTROY (R113, R124). -/
def Dev.hiveStop (d : Dev) (stopped : Bool) (cause : Nat) : Dev :=
  let d := (d.lapse.abandonReceipts cause).dropDemand .receiptDropped
  d.onHive fun h => { h with st := if stopped then .stopped else .idle, gapMode := h.gapMode || !stopped, atArmed := false }

/-- A change of period is in force from its change point on (R116, R117). -/
def Hive.periodsAt (h : Hive) (b : Nat) : Hive :=
  match h.periodAt with
  | some t => if t ≤ b then { h with period := h.periodNext, periodAt := none } else h
  | none => h
def Hive.epochsAt (h : Hive) (b : Nat) : Hive :=
  match h.epochAt with
  | some t => if t ≤ b then { h with epoch := h.epochNext, epochAt := none } else h
  | none => h

/-- The periods in force now, whether or not the sequencer runs. -/
def Dev.periodsNow (d : Dev) : Hive := (d.hive.periodsAt d.now).epochsAt d.now

/-- ARMED with EN set in a mode that has receipts while the device records custody time, IDLE otherwise (R124, R156).
Boundaries before now are past. DESIGN CHOICE (log entry 74): an unfinished receipt is dropped when the sequencer goes to
IDLE, with the cause of an unmet deadline. -/
def Dev.hiveSettle (d : Dev) : Dev :=
  if d.hive.st = .stopped then d
  else if d.hiveRuns then
    if d.hive.st = .idle && d.time.servo.run then
      let h := d.periodsNow
      d.onHive fun _ => { h with st := .armed, lastBoundary := d.boundaryNow h.period, lastEpoch := d.boundaryNow h.epoch }
    else d
  else if d.hive.st = .idle then d
  else d.hiveStop false 3

/-- What a shadow takes from a lane (R106). -/
def Lane.shadowNow (l : Lane) : Shadow :=
  { head := l.ctx0.head, stream := l.ctx0.stream, lastSeq := l.ctx0.lastSeq, elements := l.ctx0.elements,
    owed := l.owedUnits, state := l.st, sealing := decide (l.ctx0.dir = .seal) }

/-- What stands in every lane as a capture edge comes is kept for its shadow (R106). -/
def Dev.latchShadows (d : Dev) : Dev :=
  let d := d.each (List.range d.nLanes) fun d i => d.onLane i fun l => { l with latch := l.shadowNow }
  { d with wag := { d.wag with latched := true } }

/-- Lane shadows are loaded on the capture edge with what stood before it, and endpoints record the sequence number (R106, R123). -/
def Dev.capture (d : Dev) : Dev :=
  let n := if d.hive.snapSeq + 1 = 2 ^ 32 then 1 else d.hive.snapSeq + 1
  let d := d.onHive fun h => { h with snapSeq := n }
  let d := { d with wagEps := d.wagEps.map (fun (e : WagEp) => { e with snapSeq := n }) }
  let had := d.wag.latched
  let d := d.each (List.range d.nLanes) fun d i => d.onLane i fun l => { l with shadow := if had then l.latch else l.shadowNow }
  { d with wag := { d.wag with latched := false } }

/-- The leaf records of the shadows, in lane order (R108). -/
def Dev.leaves (d : Dev) : List (List Byte) := (List.range d.nLanes).map fun i => (d.lane i).shadow.leaf i

/-- A captured snapshot becomes a receipt in making (R110, R136). -/
def Dev.startMaking (d : Dev) (kind : ReceiptKind) (boundary : Nat) (waiters : List (Nat × Nat)) : Dev :=
  let m : Making := { kind := kind, boundary := boundary, snapSeq := d.hive.snapSeq, uncertain := d.time.servo.uncertain,
                      prev := d.receipts.lastDigest, leaves := d.leaves, waiters := waiters }
  if d.receipts.making.isSome then d.onReceipts fun r => { r with queued := r.queued ++ [m] }
  else (d.onReceipts fun r => { r with making := some m }).onHive fun h => { h with st := .capture }

/-- The demand that was pending as the slot of a reserved snapshot came, with the commands that wait for it, is served by that
snapshot, which is now captured (R102). -/
def Dev.takeDemand (d : Dev) : List (Nat × Nat) × Dev :=
  if d.receipts.demand && decide (d.receipts.demandAt + d.wagHalf ≤ d.clk) then
    (d.receipts.demandFor, (d.onReceipts fun r => { r with demand := false, demandFor := [] }).unpend)
  else ([], d)

/-- The shortest custody interval of a number of cycles, in units of 2^-32 s. -/
def cyclesUnits (n : Nat) : Nat := ceilDiv (n * 4294967296) 1000000000

/-- The period flags of events and notices that are logged once per hive period are cleared (R24, R259). -/
def Dev.newPeriod (d : Dev) : Dev :=
  let d := d.each (List.range d.nLanes) fun d i => d.onLane i fun l => { l with stream := { l.stream with fullLogged := false } }
  d.each (List.range 5) fun d p => d.onMbx p fun m => { m with notices := { m.notices with logged := false } }

/-- Boundaries `k`, `k + 1` and so on of a period, passed over by a step of custody time, are dropped (R114). -/
def Dev.skipBoundaries (d : Dev) (p : Nat) : Nat → Nat → Dev
  | 0, _ => d
  | n + 1, k => (d.noteDrop { kind := .periodic, boundary := boundaryOf k p } 4).skipBoundaries p n (k + 1)

/-- The boundaries between the last one taken and `b` are passed over, those up to a change point by the period before it
(R114, R116). -/
def Dev.skipTo (d : Dev) (b : Nat) : Dev :=
  let h := d.hive
  let k := lastBoundary h.lastBoundary h.period + 1
  match h.periodAt with
  | some t =>
    if t < b then
      let j := lastBoundary t h.periodNext + 1
      (d.skipBoundaries h.period (lastBoundary t h.period + 1 - k) k).skipBoundaries h.periodNext (lastBoundary b h.periodNext - j) j
    else d.skipBoundaries h.period (lastBoundary b h.period - k) k
  | none => d.skipBoundaries h.period (lastBoundary b h.period - k) k

/-- The shadows are read from the completion of their snapshot on, which takes 96 cycles (R107, R110). DESIGN CHOICE (log
entry 74): the spec gives 96 as the most. -/
def Dev.unreadFor (d : Dev) : Dev := d.onHive fun h => { h with readAt := d.clk + d.wagHalf + 96 }

/-- HIVE_BOUNDARY: the boundary edge (R110, R111, R114). It serves an armed time that has come and whose own snapshot has not
issued: its slot lay in the guard window, or the snapshot was held (R102, R120). -/
def Dev.hiveBoundary (d : Dev) : Dev :=
  let b := d.boundaryNow (d.hive.periodsAt d.now).period
  if !(d.hiveDue && decide (d.hive.lastBoundary < b)) then d
  else
    let d := ((d.issueEnds.lapseReceipts).newPeriod).skipTo b
    let atHere := d.hive.atArmed && decide (d.hive.atTime ≤ b)
      && !d.wag.flights.any fun f => f.why == .at_ && !f.acted && f.at_ == d.hive.atTime
    let d := d.onHive fun h => { (h.periodsAt b) with lastBoundary := b, atArmed := h.atArmed && !atHere }
    let w := d.takeDemand
    let d := w.2.capture.unreadFor
    let d := { d with wag := { d.wag with
      flights := (d.wag.flights.filter fun (f : Flight) => f.why != SnapFor.periodic)
        ++ [({ op := .snapshot, edgeAt := d.clk, dueAt := d.clk + d.wagHalf, why := .periodic, acted := true,
               seq := d.hive.snapSeq } : Flight)],
      lastIssue := some (d.clk - d.wagHalf) } }
    d.startMaking .periodic b w.1

/-- SNAPSHOT_CAPTURE: a snapshot other than the periodic one reaches the endpoints (R106, R115, R120). -/
def Dev.snapshotCapture (d : Dev) : Dev :=
  match d.wag.flights.find? fun f => f.op == .snapshot && !f.acted && f.why != .periodic && decide (f.edgeAt ≤ d.clk) with
  | none => d
  | some f =>
    let d := d.issueEnds.capture
    let d := { d with wag := { d.wag with
      flights := d.wag.flights.map fun g => if g = f then { g with acted := true, seq := d.hive.snapSeq } else g } }
    match f.why with
    | .at_ =>
      let w := d.takeDemand
      ((w.2.onHive fun h => { h with atArmed := h.atArmed && h.atTime != f.at_ }).unreadFor).startMaking .at_ f.at_ w.1
    | .demand =>
      let w := d.receipts.taken
      ((d.onReceipts fun r => { r with taken := [] }).unreadFor).startMaking .demand d.now w
    | _ => d

/-- Receipt flags (R112, R136). -/
def Dev.receiptFlags (d : Dev) (m : Making) : Nat :=
  let gap := if m.kind = .periodic || m.kind = .final then b2n d.hive.gapDrop + b2n d.hive.gapMode * 2 + b2n d.hive.gapPower * 4 else 0
  gap + b2n m.uncertain * 8 + b2n (d.hive.compare || d.life.st = .fleet) * 32

/-- The receipt in making goes to a tile, when no other job of the sequencer is left (R110, R340). -/
def Dev.submitReceipt (d : Dev) (tried : List Nat) : Dev :=
  let out := d.tiles.waiting.any Job.ofReceipt || d.tiles.tiles.toList.any fun t => (t.running.toList ++ t.parked).any Job.ofReceipt
  match d.receipts.making with
  | some m => if d.hive.st = .sign && !m.root.isEmpty && !out then d.seqJob 9 1 .receipt tried else d
  | none => d

/-- HIVE_ROOT_COMPUTED: the shadows are read and hashed, and the receipt goes to a tile (R109, R110). -/
def Dev.rootComputed (d : Dev) : Dev :=
  match d.receipts.making with
  | none => d
  | some m =>
    if !(m.root.isEmpty && decide (d.hive.st = .hash)) then d
    else
      let m := { m with root := d.hiveRoot m.leaves, attempts := 1 }
      let d := d.onReceipts fun r => { r with making := some m }
      (d.onHive fun h => { h with st := .sign, root := m.root, rootBound := m.boundary }).submitReceipt []

/-- Proofs of a receipt, by lane; a lane whose leaf is NONE has none (R138). -/
def Dev.proofsOf (d : Dev) (m : Making) (digest : List Byte) : List (List Byte) :=
  m.leaves.zipIdx.map fun l => if numAt l.1 1 1 = 0 then [] else d.hiveProof m.leaves l.2 m.boundary digest

/-- A record of the supervisor joins the queue of the container writer while a stored stream is open (R180, R182). -/
def Dev.queueSup (d : Dev) (kind lane : Nat) (body : List Byte) : Dev :=
  if d.anyStored then d.onStore fun s => { s with supQ := s.supQ ++ [{ kind := kind, lane := lane, seq := 0, body := body, era := s.era }] } else d

/-- A receipt is issued: journal, store, subscribed ports, HIVE_LAST_SIGNED, and the commands that wait (R110, R112,
R136, R305). -/
def Dev.issueReceipt (d : Dev) (m : Making) (body : List Byte) : Dev :=
  let dig := digest64 body
  let proofs := d.proofsOf m dig
  let d := (d.journal 0x20 body false).queueSup 0x20 0xFF body
  let d := d.notice 0 0x20 0xFF body
  let d := d.each proofs.zipIdx fun d p => if p.1.isEmpty then d else (d.queueSup 0x21 p.2 p.1).notice 1 0x21 p.2 p.1
  let d := d.onReceipts fun r =>
    { r with lastAny := body, lastAnyProofs := proofs, lastDigest := dig,
             lastPeriodic := if m.kind = .periodic then body else r.lastPeriodic,
             lastPeriodicProofs := if m.kind = .periodic then proofs else r.lastPeriodicProofs }
  let d := if m.kind = .periodic then
      d.onHive fun h => { h with lastSigned := m.boundary, gapMode := false, gapPower := false, gapDrop := false }
    else d
  d.each m.waiters fun d w => d.reply w.1 w.2 .ok body

/-- A receipt is signed by the draw and under the key of its job (R112, R136, R374). -/
def Dev.signReceipt (d : Dev) (m : Making) (e : JobEnd) (draw : List Byte) : Dev :=
  let from_ := if m.kind = .periodic then d.hive.lastSigned else 0
  d.issueReceipt m ((d.withKey (some e.slot)).receipt m (d.receiptFlags m) from_ (some fun h => falconSig e.slot.key h draw))

/-- A signing attempt of the hive sequencer has ended: with a draw for the signature, or without one (R111). The sequencer is in
ISSUE until its next step (R124). -/
def Dev.receiptJobEnd (d : Dev) (e : JobEnd) : Dev :=
  match d.receipts.making with
  | none => d
  | some m =>
    if m.root.isEmpty then d
    else
      match e.sig with
      | some draw =>
        ((d.signReceipt m e draw).onReceipts fun r => { r with making := none }).onHive fun h => { h with st := .issue }
      | none =>
        if m.attempts < d.hive.attempts then
          (d.onReceipts fun r => { r with making := some { m with attempts := m.attempts + 1 } }).submitReceipt e.tried
        else (d.noteDrop m 2).nextMaking

/-- A signature has completed on the edge of its deadline, and stands; the receipts captured since follow it (R111, R136). -/
def Dev.lapsedEnd (d : Dev) (e : JobEnd) : Dev :=
  match d.receipts.lapsed, e.sig with
  | some m, some draw =>
    let d := (d.onReceipts fun r => { r with lapsed := none }).signReceipt m e draw
    let after := fun (m : Making) => { m with prev := d.receipts.lastDigest }
    d.onReceipts fun r => { r with making := r.making.map after, queued := r.queued.map after }
  | _, _ => d

/-- How a job of the hive sequencer ends. -/
def Dev.receiptEnd (d : Dev) (e : JobEnd) : Dev := if e.late then d.lapsedEnd e else d.receiptJobEnd e

/-- What a snapshot was to make a receipt of, where it had not been captured: a demand, or the armed time. -/
def Dev.uncaptured (d : Dev) (f : Flight) : Option Making :=
  match f.why with
  | .demand => some { kind := .demand, boundary := d.now, waiters := d.receipts.taken }
  | .at_ => some { kind := .at_, boundary := f.at_ }
  | _ => none

/-- A snapshot got no root: its receipt is dropped, wherever it waits (R105, R111, R115, R124). -/
def Dev.snapshotFailed (d : Dev) (f : Flight) : Dev :=
  let hit := fun (m : Making) => m.snapSeq == f.seq && m.root.isEmpty
  if f.acted then
    if d.receipts.making.any hit then (d.each d.receipts.making.toList fun d m => d.noteDrop m 1).nextMaking
    else
      let gone := d.receipts.queued.filter hit
      (d.onReceipts fun r => { r with queued := r.queued.filter fun m => !hit m }).each gone fun d m => d.noteDrop m 1
  else
    match d.uncaptured f with
    | none => d
    | some m =>
      let d := (d.noteDrop m 1).onReceipts fun r => if m.kind = .demand then { r with taken := [] } else r
      let d := d.onHive fun h => if m.kind = .at_ && h.atTime == f.at_ then { h with atArmed := false } else h
      if d.hive.st = .capture && d.receipts.making.isNone then d.nextMaking else d

/-- The sequencer takes demands and schedules (R115). -/
def Dev.hiveTakes (d : Dev) : Bool := decide (d.hive.st ≠ .idle) && decide (d.hive.st ≠ .stopped)

/-- HIVE_CTRL.DEMAND, from a register or for a command: a request while a snapshot is pending is refused, and a command then shares the
one that is pending for it (R101, R115, R305). DESIGN CHOICE (log entry 74): where software's own snapshot is the pending one, the command
waits, and asks again when that has issued. -/
def Dev.demand (d : Dev) (waiter : Option (Nat × Nat)) : Dev :=
  let pends := d.wag.pending.contains .snapshot
  if !d.hiveTakes then d.hiveErr 0
  else
    let d := if pends then { d with wag := { d.wag with busyRefused := true } } else d
    if pends && waiter.isNone then d
    else
      let d := d.onReceipts fun r =>
        { r with demand := true, demandFor := r.demandFor ++ waiter.toList, demandAt := if r.demand then r.demandAt else d.clk }
      if pends then d else { d with wag := { d.wag with pending := d.wag.pending ++ [.snapshot], soft := false } }

/-- A time lies at least 1 µs ahead (R120). -/
def Dev.atAhead (d : Dev) (t : Nat) : Bool := decide (d.now + 4295 ≤ t)

/-- HIVE_CTRL.AT_ARM (R120). -/
def Dev.atArm (d : Dev) : Dev :=
  if !d.hiveTakes then d.hiveErr 0
  else if d.atAhead d.hive.atTime then d.onHive fun h => { h with atArmed := true }
  else d.hiveErr 1

/-- HIVE_CTRL.AT_CANCEL. DESIGN CHOICE (log entry 74): a snapshot that has issued is captured, and makes its receipt. -/
def Dev.atCancel (d : Dev) : Dev := d.onHive fun h => { h with atArmed := false }

/-- The change point of a period: the next boundary of the present period that is a whole multiple of the new one
(R116). -/
def Dev.changePoint (d : Dev) (cur new : Nat) : Nat :=
  let m := Nat.lcm cur new
  boundaryOf (lastBoundary d.now m + 1) m

/-- Change points that have passed are behind the device, but for a boundary still to be taken (R116). -/
def Dev.passChanges (d : Dev) : Dev := if d.hiveDue then d else d.onHive fun _ => d.periodsNow

/-- A write of HIVE_PERIOD_NEXT and HIVE_EPOCH_NEXT (R116, R117). The Bool says that it was taken. -/
def Dev.periodNext (d : Dev) (p : Nat) : Bool × Dev :=
  let d := d.passChanges
  if !inRange 10 10000 p then (false, d.hiveErr 0)
  else if p = d.hive.period then (true, d.onHive fun h => { h with periodNext := p, periodAt := none })
  else
    let t := d.changePoint d.hive.period p
    if d.now + 3600 * 2 ^ 32 < t then (false, d.hiveErr 0)
    else (true, d.onHive fun h => { h with periodNext := p, periodAt := some t })
def Dev.epochNext (d : Dev) (p : Nat) : Bool × Dev :=
  let d := d.passChanges
  if !inRange 10 60000 p then (false, d.hiveErr 0)
  else if p = d.hive.epoch then (true, d.onHive fun h => { h with epochNext := p, epochAt := none })
  else
    let t := d.changePoint d.hive.epoch p
    if d.now + 3600 * 2 ^ 32 < t then (false, d.hiveErr 0)
    else (true, d.onHive fun h => { h with epochNext := p, epochAt := some t })

/-! ### Lane epochs -/

/-- The registers of a lane's epoch capture (R124). -/
def Lane.showCap (l : Lane) (c : EpochCap) : Lane :=
  { l with ecapA := lo32 c.first, ecapB := if c.first = 0 then 0xFFFFFFFF#32 else lo32 (c.last - c.first) }

/-- The boundary of the epoch signature that the next epoch boundary edge gives up: one that completed on the edge stands (R119,
R122). -/
def Dev.sigToDrop (d : Dev) (n : Nat) : Option Nat :=
  let s := (d.lane n).stream
  match s.sig, s.signed with
  | some (b, _), _ => some b
  | none, some (b, _) => if s.signedAt = d.clk then none else some b
  | none, none => none

/-- Withdraw a lane's epoch signature; one that a tile signs is dropped when the edge is over (R119, R348). -/
def Dev.dropEpochSig (d : Dev) (n : Nat) : Dev :=
  match d.sigToDrop n with
  | none => d
  | some b =>
    let late := match (d.lane n).stream.sig with
      | some (_, pre) => if d.runsJob (Job.ofEpoch n) then [(n, b, pre)] else []
      | none => []
    let d := (d.dropJobs (Job.ofEpoch n)).onLane n fun l => { l with stream := { l.stream with sig := none, signed := none } }
    if late.isEmpty then d.logEvent 0x088 2 ([u8 n] ++ le 8 b) else d.onReceipts fun r => { r with lapsedSigs := r.lapsedSigs ++ late }

/-- The ending epoch's key is kept for the unit that still uses it (R72). -/
def Lane.keepKey (l : Lane) : Lane :=
  match l.key with
  | some k => if l.units.any fun u => (decide (u.st = .encrypting) && u.segment.isEmpty || decide (u.st = .suspended)) && u.key == k
    then { l with prev := some k } else l
  | none => l

/-- Units accepted and not yet appended, which an epoch link counts (R27, R131). -/
def Lane.unappended (l : Lane) : Nat := l.units.countP fun u => decide (u.st ≠ .appended)

/-- A lane's new key at an epoch boundary, which its capture keeps for the WRAPPED_KEY; the ending epoch's moves to the previous slot (R28,
R72, R75, R358). -/
def Dev.epochKey (d : Dev) (n b : Nat) : Dev :=
  let d := (d.onLane n Lane.keepKey).setKey (129 + 2 * n) (d.keySlot (128 + 2 * n))
  (d.installKey n b).onLane n fun l =>
    { l with caps := l.caps.map fun c => if c.boundary = b then { c with key := l.key } else c }

/-- A lane's capture at an epoch boundary edge, and its new key; in CLOSE the key stays (R39, R72, R117). -/
def Dev.laneEpoch (d : Dev) (n b : Nat) : Dev :=
  let l := d.lane n
  if !(decide (l.ctx0.dir = .seal) && !l.stream.ended && decide (l.stream.epochStart < b)) then d
  else
    let d := d.dropEpochSig n
    let c : EpochCap :=
      { first := l.stream.firstSeq, last := if l.stream.firstSeq = 0 then 0 else l.stream.lastSeq, owed := l.unappended, boundary := b,
        start := l.stream.epochStart, lateAt := d.clk + d.hive.linkMax * 1000 }
    let d := d.onLane n fun l =>
      let l := { l with caps := l.caps ++ [c], stream := { l.stream with firstSeq := 0, lastSeq := 0, epochStart := b } }
      if l.caps.length = 1 then l.showCap c else l
    if d.power.mode = .close then d else d.epochKey n b

/-- A lane whose epoch boundary edge has come captures its values. -/
def Dev.laneEpochNow (d : Dev) (n : Nat) : Dev :=
  if d.epochDue n then d.laneEpoch n (d.boundaryNow (d.hive.epochsAt d.now).epoch) else d

/-- EPOCH_BOUNDARY (R117). -/
def Dev.epochBoundary (d : Dev) : Dev :=
  let b := d.boundaryNow (d.hive.epochsAt d.now).epoch
  if !d.time.servo.run || b ≤ d.hive.lastEpoch then d
  else
    let d := d.onHive fun h => { (h.epochsAt b) with lastEpoch := b }
    d.each (List.range d.nLanes) fun d n => d.laneEpoch n b

/-- A link's epoch signature is submitted; where a later boundary is past it is too late for one, and the drop is logged (R29, R119). -/
def Dev.submitSig (d : Dev) (n b : Nat) (head : List Byte) : Dev :=
  let l := d.lane n
  if !l.stream.options.testBit 0 then d
  else if l.caps.isEmpty then
    let pre := signatureHead (b2n d.time.servo.uncertain * 4) l.ctx0.stream d.now b l.stream.lastSig head d.receiptKey
    (d.onLane n fun l => { l with stream := { l.stream with sig := some (b, pre) } }).seqJob (1 + n / 8) 2 (.epochSig n) []
  else d.logEvent 0x088 2 ([u8 n] ++ le 8 b)

/-- EPOCH_LINK_APPEND: the link, then the wrapped key of the new epoch, and the epoch signature is submitted; in CLOSE the
chain unit appends the elements alone (R39, R75, R117, R119). Where a hive boundary shares the edge, its snapshot comes first
(R119). DEDUCED (log entry 91): a link still pending at the stop edge brings its WRAPPED_KEY in CLOSE too, for segments under that key
follow. -/
def Dev.linkAppend (d : Dev) (n : Nat) : Dev :=
  let l := d.lane n
  match l.caps with
  | [] => d
  | c :: rest =>
    let close := d.power.mode = .close
    if d.hiveDue || !(l.runs || l.st = .schuss) || (!decide close && !(d.keySlot 65).full) then d
    else
      let d := d.appendElement n 2 (b2n close) c.boundary (linkBody c l.ctx0.elements l.ctx0.head) none
      let head := (d.lane n).ctx0.head
      let d := d.onLane n fun l =>
        let l := { l with caps := rest }
        match rest with | c :: _ => l.showCap c | [] => l
      let d := match c.key with
        | some k => if (d.keySlot (d.kekFor k.epoch).1).full then d.appendWrapped n k none (b2n close) else d
        | none => d
      if close then d else d.submitSig n c.boundary head

/-- HIVE_LINK_MAX runs out on a lane's pending links (R118). -/
def Dev.linkLate (d : Dev) (n : Nat) : Dev :=
  let late := (d.lane n).caps.filter fun c => !c.late && d.past c.lateAt
  let d := d.onLane n fun l => { l with caps := l.caps.map fun c => if d.past c.lateAt then { c with late := true } else c }
  d.each late fun d c =>
    let d := d.onHive fun h =>
      if n < 32 then { h with linkLate0 := setBit h.linkLate0 n } else { h with linkLate1 := setBit h.linkLate1 (n - 32) }
    d.logEvent 0x081 2 ([u8 n] ++ le 8 c.boundary)

/-- An epoch signature stands, under the key of its job (R119, R374). -/
def Dev.epochSigned (d : Dev) (n b : Nat) (pre draw : List Byte) (slot : KeySlot) : Dev :=
  let pre := signatureKeyed pre (d.withKey (some slot)).receiptKey
  d.onLane n fun l => { l with stream := { l.stream with sig := none, signed := some (b, pre ++ falconSig slot.key pre draw), signedAt := d.clk } }

/-- The tile job of an epoch signature has ended; without a signature it is given up, and the drop is logged (R119). One that completes on
the edge of its deadline stands. -/
def Dev.epochJobEnd (d : Dev) (n : Nat) (e : JobEnd) : Dev :=
  if e.late then
    match d.receipts.lapsedSigs.find? fun s => s.1 == n, e.sig with
    | some s, some draw =>
      (d.onReceipts fun r => { r with lapsedSigs := r.lapsedSigs.filter fun s => s.1 != n }).epochSigned n s.2.1 s.2.2 draw e.slot
    | _, _ => d
  else
    match (d.lane n).stream.sig, e.sig with
    | some (b, pre), some draw => d.epochSigned n b pre draw e.slot
    | some _, none => d.dropEpochSig n
    | none, _ => d

/-- EPOCH_SIGNATURE_APPEND (R75, R119). -/
def Dev.signatureAppend (d : Dev) (n : Nat) : Dev :=
  let l := d.lane n
  match l.stream.signed with
  | some (b, e) =>
    if !(l.runs && decide (l.ctx0.dir = .seal) && !l.stream.ended) || d.boundaryDue n then d
    else
      let d := d.onLane n fun l =>
        { l with ctx0 := { l.ctx0 with head := chainNext l.ctx0.head e, elements := l.ctx0.elements + 1 },
                 stream := { l.stream with signed := none, lastSig := b } }
      (d.postElement n e none).queueStore n 5 0 e
  | none => d

end Sys2Proof.Machine
end

