-- ==== Sys2Proof/Machine/CloseOps.lean ====
section
/-! DEFINITION. The custody close from its stop edge to its close record, and reconciliation (R36 to R48, R139 to R144,
R185 to R188, R231 to R243). -/
namespace Sys2Proof.Machine

/-- Change the power controller and the close sequencer. -/
def Dev.onPower (d : Dev) (f : Power → Power) : Dev := { d with power := f d.power }
def Dev.onClose (d : Dev) (f : CloseSeq → CloseSeq) : Dev := { d with close := f d.close }
def Dev.powerErr (d : Dev) (n : Nat) : Dev := d.onPower fun p => { p with err := setBit p.err n }

/-- The mode changes, and MODE_CHANGE is logged (R435). -/
def Dev.setMode (d : Dev) (m : Mode) : Dev :=
  (d.onPower fun p => { p with mode := m }).logEvent 0x011 0 ([u8 d.power.mode.code, u8 m.code] ++ le 2 d.power.lastStatus)

/-- Units with an accepted entry in the lane buffer, over all lanes. -/
def Dev.owedAll (d : Dev) : Nat := (d.lanes.toList.map Lane.owedUnits).sum

/-- Owed units whose segment is not formed (R246). -/
def MediaUnit.unsealed (u : MediaUnit) : Bool := u.segment.isEmpty && u.lost == 0
def Dev.owedLeft (d : Dev) : Nat := (d.lanes.toList.map fun l => l.units.countP MediaUnit.unsealed).sum

/-- What follows the close (R238); the behaviour that keeps the device stopped takes precedence (R237). -/
def AfterClose.rank : AfterClose → Nat
  | .restartNow => 0 | .onPfail => 1 | .onWake => 2 | .stopped => 3
def AfterClose.join (a b : AfterClose) : AfterClose := if a.rank < b.rank then b else a

/-- A cause, with the code of a tamper response (R411), and what the device does after its close record. -/
def afterOf (c : CloseCause) (resp : Nat) : AfterClose :=
  match c with
  | .pfail | .none => .onPfail
  | .shutdown => .onWake
  | .supervisor => .restartNow
  | .tamper => if resp = 2 then .restartNow else .stopped

/-! ### The stop edge -/

/-- Bytes that a verify-open job has written: a parked one's as its park point fixed them; a running one's is a free value within its
plaintext (R40, R89). -/
def Dev.jobWritten (d : Dev) (n x : Nat) (c : Desc) : Nat × Dev :=
  let l := d.lane n
  match (if x = 0 then l.parked else none) with
  | some p => (if p.verify then p.written else 0, d)
  | none =>
    let f := d.free
    if (l.ctx x).running then (f.1 % (Nat.min c.outputLen (c.payloadLen - 144) + 1), f.2) else (0, d)

/-- Zeros over what a verify-open job has written already, where its port can take them (R40, R89). -/
def Dev.zeroFill (d : Dev) (n x : Nat) : Dev :=
  let k := (d.lane n).ctx x
  let r := (d.lane n).ring x
  match k.job with
  | none => d
  | some c =>
    let w := d.jobWritten n x c
    if decide (k.dir = .verifyOpen) && !r.severed && !(d.port r.port).pcie.d3hot && w.1 != 0 then
      w.2.send (.hostWrite r.port c.outputAddr (zeros w.1))
    else w.2

/-- Token entries of a lane: its ACCEPT entries that are not posted (R18, R142). -/
def Lane.tokenEntries (l : Lane) (n : Nat) : List (List Byte) :=
  (l.ring0.posts.filter fun p => numAt p.entry 0 1 == 1).map fun p =>
    bytesAt p.entry 8 8 ++ bytesAt p.entry 16 8 ++ bytesAt p.entry 24 8 ++ bytesAt p.entry 32 4 ++ bytesAt p.entry 4 4
      ++ [u8 n] ++ zeros 7

/-- A lane at the stop edge: intake, DMA and verify work end, and a ring pair whose context ends with them has no owner. A lane with
a context, in a drain, frozen or in FAULT enters SCHUSS; OFF and IDLE have no context and stay (R65, R67, R89, R90). -/
def Lane.stopEdge (l : Lane) : Lane :=
  let l := l.stopIntake 0
  let keep := decide (l.ctx0.dir = Dir.seal)
  let l := { l with ctx1 := {}, ctx0 := if keep then l.ctx0 else {},
                    ring0 := { l.ring0 with posts := [], valid := l.ring0.valid && keep },
                    ring1 := { l.ring1 with posts := [], valid := false },
                    parked := match l.parked with | some p => if p.verify then none else some p | none => none, waits := [] }
  if l.st = .off || l.st = .idle then l else { l with st := .schuss }

/-- Every lane, and then the comb clocks that no owed unit needs; an IDLE lane of such a comb goes to OFF (R90, R231). DESIGN CHOICE (log
entry 86): a descriptor that has passed its checks counts as a verify job in progress before the engine runs it too (R89). -/
def Dev.lanesStop (d : Dev) : Dev :=
  let jobs := (d.lanes.toList.map fun l => l.ctx0.job.toList.length + l.ctx1.job.toList.length).sum
  let tokens := ((List.range d.nLanes).map fun n => (d.lane n).tokenEntries n).flatten
  let d := d.each (List.range d.nLanes) fun d n => (d.zeroFill n 0).zeroFill n 1
  let d := d.onClose fun c => { c with nVerify := jobs, tokens := tokens }
  let d := d.each (List.range d.nLanes) fun d n => d.onLane n Lane.stopEdge
  d.each (List.range d.nCombs) fun d c =>
    if (List.range 8).any fun i => 0 < (d.lane (8 * c + i)).owedUnits then d else d.combClock c false

/-- Staging goes off with its keys; its segments stay in the lanes' entries until the loss report names them (R212, R216,
R231). STG_CTRL.EN stays (R215). -/
def Dev.stagingOff (d : Dev) : Dev := { d with staging := { d.staging with st := .off, keys := none, pages := [] } }

/-- The stop edge of a custody close (R36, R185, R193, R231). Of the triggers whose holds are not placed the close record takes 32, and the
others are logged (R142). Store descriptors that have been consumed end as they would (R197). -/
def Dev.closeBegin (d : Dev) (cause : CloseCause) (resp : Nat) : Dev :=
  let d := d.logCloseBegin
  let d := d.logEvent 0x012 2 ([u8 cause.code] ++ le 4 d.owedAll)
  let d := (d.setMode .close).onPower fun p => { p with closeStep := .stop, closeCause := cause, target := none, shutdown := false }
  let pending := d.store.trig.toPlace.map fun (t : Nat × Nat) => ({ line := t.1, time := t.2 } : CloseTrigger)
  let d := d.each (pending.drop 32) fun d t => d.logEvent 0x04A 2 (u8 t.line :: le 8 t.time)
  let d := d.onClose fun _ =>
    { stopAt := d.clk, stopTime := d.now, pfailAt := if cause = .pfail then some d.clk else none, after := afterOf cause resp,
      priorDigest := d.receipts.lastDigest, unsigned := d.hive.unsigned, triggers := pending.take 32,
      overflow := pending.length - 32 }
  let d := (d.hiveStop true 5).tilesStop.lanesStop.stagingOff
  let d := d.onStore fun s =>
    { s with st := .close, trig := { s.trig with toPlace := [] }, reserve := { nextBlock := s.reserve.nextBlock },
             flush := none }
  d.writerFlush.onStore fun s => { s with journal := s.journal.flush }

/-- Another cause joins a close (R237). -/
def Dev.closeJoin (d : Dev) (a : AfterClose) : Dev := d.onClose fun c => { c with after := c.after.join a }

/-! ### Records -/

/-- The records that wait in the lanes go into the close reserve once the opening record is formed (R186). -/
def Dev.drainReserve (d : Dev) : Dev :=
  if !d.close.openingForm then d
  else d.each (List.range d.nLanes) fun d n =>
    let q := (d.lane n).storeQ
    let d := d.onLane n fun l => { l with storeQ := [] }
    d.each q fun d r => d.reservePut d.close.openingDigest { kind := r.kind, lane := r.lane, seq := r.seq, body := r.body }

/-- The close opening entry of a lane (R140). -/
def Lane.openingEntry (l : Lane) (n : Nat) : List Byte :=
  let st := leafStatus (decide (l.ctx0.dir = .seal)) l.st
  let first := (l.units.head?.map fun u => u.seq).getD 0
  let last := (l.units.getLast?.map fun u => u.seq).getD 0
  [u8 n, u8 st] ++ le 2 l.owedUnits ++ le 4 l.ring0.inHead ++ le 8 (if st = 0 then 0 else l.ctx0.stream) ++ le 8 first ++ le 8 last

/-- The close opening record: never signed (R140). -/
def Dev.openingRecord (d : Dev) : List Byte :=
  d.recordHeader "QCOP" 1 (168 + 32 * d.nLanes) d.time.aon.pcyc d.close.stopTime d.close.priorDigest
    ++ [u8 d.power.closeCause.code, u8 d.nLanes] ++ zeros 6
    ++ ((List.range d.nLanes).map fun n => (d.lane n).openingEntry n).flatten

/-- A hive receipt or proof; a proof bears its lane's number, but stands with its receipt (R148, R186). -/
def StoreRec.ofHive (r : StoreRec) : Bool := r.kind == 0x20 || r.kind == 0x21

/-- A lane's records for the close: sealed, undischarged segments, and the chain elements that the writer had not taken,
in chain order (R37, R186). -/
def Dev.lanePending (d : Dev) (n : Nat) : List StoreRec :=
  let l := d.lane n
  let q := (d.store.rewrite.filter fun r => r.lane == n && !r.ofHive) ++ l.storeQ
  let segs := l.units.filter fun u => decide (u.st = .appended) && !u.staged && u.lost == 0
    && !q.any fun r => r.kind == 0x10 && r.seq == u.seq
  (segs.map fun u => ({ kind := 0x10, lane := n, seq := u.seq, body := u.segment } : StoreRec)) ++ q

/-- CLOSE_FLUSH_DONE: the final pages of the writer and of the journal are programmed, or cut, and the opening record is
formed; it is programmed at once, and the record after it starts a new page. Then come the receipts and proofs that the writer had not
taken, its other records without a lane, and those of the lanes (R37, R185, R186). -/
def Dev.flushDone (d : Dev) : Dev :=
  let busy := d.store.pages.any (fun j => j.owner == .writer) || !d.store.journal.inFlight.isEmpty
  if !(d.power.mode = .close && !d.close.openingForm && (!busy || d.close.flushLate)) then d
  else
    let rec_ := d.openingRecord
    let dig := digest64 rec_
    let hive := (d.store.rewrite ++ d.store.supQ).filter StoreRec.ofHive
    let rest := (d.store.rewrite.filter fun r => !r.ofHive && decide (d.nLanes ≤ r.lane)) ++ d.store.supQ.filter fun r => !r.ofHive
    let pend := (List.range d.nLanes).map d.lanePending
    let d := d.onClose fun c => { c with openingForm := true, openingDigest := dig }
    let d := d.onPower fun p => { p with closeStep := .opening }
    let d := d.onStore fun s => { s with rewrite := [], supQ := [] }
    let d := d.each (List.range d.nLanes) fun d n => d.onLane n fun l => { l with storeQ := pend.getD n [] }
    let d := d.reservePut dig { kind := 0x30, lane := 0xFF, body := rec_, flush := true }
    let d := d.each (hive ++ rest) fun d r =>
      d.reservePut dig { kind := r.kind, lane := r.lane, seq := r.seq, body := r.body }
    d.drainReserve

/-- CLOSE_FLUSH_EXPIRY: a flush that is still incomplete is cut, and the close goes on (R183, R213). -/
def Dev.flushExpiry (d : Dev) : Dev :=
  let late := d.store.pages.filter fun j => j.owner == .writer
  if !(d.power.mode = .close && !d.close.openingForm && !d.close.flushLate && d.past (d.close.stopAt + 200000)
      && !(late.isEmpty && d.store.journal.inFlight.isEmpty)) then d
  else
    let d := d.onClose fun c => { c with flushLate := true }
    let d := d.logEvent 0x045 2 []
    match late.head? with
    | some j => d.cutContainer j.block (d.blk j.block).readable false
    | none => d

/-- The lost and truncated units of a lane, as loss entries in sequence order (R23, R141). DESIGN CHOICE (log entry 87): TOKEN_NOT_POSTED of
a STAGED range is set where any unit of the range has no posted token. -/
def Dev.lossOf (d : Dev) (n : Nat) : List (List Byte) :=
  let l := d.lane n
  let sid := l.ctx0.stream
  let gone := fun (u : MediaUnit) => d.store.reserve.abandoned.contains (n, u.seq)
  let one := fun (u : MediaUnit) (out cause sealed : Nat) =>
    lossEntry sid u.seq u.time u.desc.payloadLen u.desc.index out cause n (b2n (!u.tokenPosted)) sealed u.seq
  let staged := l.units.filter fun u => u.staged
  let range := match staged.head?, staged.getLast? with
    | some a, some b =>
      [(a.seq, lossEntry sid a.seq a.time 0 a.desc.index 4 1 n (b2n (staged.any fun u => !u.tokenPosted) + 2) 0 b.seq)]
    | _, _ => []
  let ones := (l.units.filter fun u => !u.staged).flatMap fun u =>
    if gone u then [(u.seq, one u 4 5 0)]
    else if u.lost ≠ 0 then [(u.seq, one u 4 u.lost 0)]
    else if u.truncated then [(u.seq, one u 3 0 u.done)]
    else []
  (sortBy (fun a b => decide (a.1 ≤ b.1)) (range ++ ones)).map Prod.snd
def Dev.lossEntries (d : Dev) : List (List Byte) := ((List.range d.nLanes).map d.lossOf).flatten

/-- Units that loss entries name as LOST, each unit of a range counted (R142). -/
def lostCount (es : List (List Byte)) : Nat :=
  ((es.filter fun e => numAt e 0x20 1 == 4).map fun e => numAt e 0x28 8 - numAt e 8 8 + 1).sum

/-- The head entry of a lane (R142). -/
def Lane.headEntry (l : Lane) (n : Nat) : List Byte :=
  let st := leafStatus (decide (l.ctx0.dir = .seal)) l.st
  if st = 0 then [u8 n, 0#8] ++ zeros 86
  else [u8 n, u8 st] ++ zeros 6 ++ le 8 l.ctx0.stream ++ le 8 l.ctx0.lastSeq ++ fitBytes 64 l.ctx0.head

/-- The close record (R142): flags hold UNSIGNED and SIGN_FAILED. -/
def Dev.closeRecord (d : Dev) (flags : Nat) (sig : Option (List Byte → List Byte)) : List Byte :=
  let c := d.close
  let es := d.lossEntries
  let units := (d.lanes.toList.map fun l => l.units.length).sum
  let trunc := (es.filter fun e => numAt e 0x20 1 == 3).length
  let heads := ((List.range d.nLanes).map fun n => (d.lane n).headEntry n).flatten
  let holds := (c.triggers.map fun t => le 8 t.time ++ le 4 (d.preRoll t.line) ++ le 4 (d.postRoll t.line) ++ [u8 t.line] ++ zeros 7).flatten
  let len := 448 + 88 * d.nLanes + 24 * c.triggers.length + 40 * c.tokens.length + 1288
  signField (d.recordHeader "QCLS" flags len d.time.aon.pcyc c.stopTime c.lossDigest
    ++ [u8 d.power.closeCause.code, u8 d.nLanes] ++ le 2 c.triggers.length ++ le 2 (Nat.min c.overflow 0xFFFF) ++ zeros 2
    ++ le 4 (units - trunc - lostCount es) ++ le 4 trunc ++ le 4 (lostCount es) ++ le 4 c.nVerify
    ++ fitBytes 64 c.lossDigest ++ fitBytes 64 c.openingDigest ++ fitBytes 64 c.priorDigest ++ fitBytes 64 c.finalDigest
    ++ le 4 c.tokens.length ++ zeros 4 ++ heads ++ holds ++ c.tokens.flatten) sig

/-- Flags of a close record: UNSIGNED, and SIGN_FAILED where its attempts failed (R139, R144). -/
def unsignedFlags (signed failed : Bool) : Nat := if signed then 0 else 1 + b2n failed * 8

/-- The signature of a job: the slot of the key it fetched, and its draw (R374). -/
abbrev CloseDraw := Option (KeySlot × List Byte)
def CloseDraw.key (c : CloseDraw) : Option KeySlot := c.map Prod.fst
def CloseDraw.sig (c : CloseDraw) : Option (List Byte → List Byte) := c.map fun r => fun h => falconSig r.1.key h r.2

/-- Submit a close signing job, or form the record unsigned after a DESTROY (R43, R234). -/
def Dev.closeSign (d : Dev) (which : Nat) (form : Dev → CloseDraw → Bool → Dev) : Dev :=
  let d := d.onClose fun c => { c with stage := which, attempts := 1 }
  if d.close.unsigned || !(d.keySlot 1025).full then form d none false else d.seqJob 10 0 (.closeRec which) []

/-- The close record is formed; its page is programmed before it is full (R142, R186). -/
def Dev.formCloseRecord (d : Dev) (draw : CloseDraw) (failed : Bool) : Dev :=
  let body := (d.withKey draw.key).closeRecord (unsignedFlags draw.isSome failed) draw.sig
  let lost := lostCount d.lossEntries
  (d.onClose fun c => { c with stage := 4, nLost := lost }).reservePut d.close.openingDigest
    { kind := 0x32, lane := 0xFF, body := body, flush := true }

/-- The loss report is formed (R141). -/
def Dev.formLoss (d : Dev) (draw : CloseDraw) (failed : Bool) : Dev :=
  let body := (d.withKey draw.key).lossReport (unsignedFlags draw.isSome failed) d.time.aon.pcyc d.close.stopTime d.close.finalDigest
    d.close.openingDigest d.lossEntries draw.sig
  let d := d.onClose fun c => { c with lossDigest := digest64 body }
  (d.reservePut d.close.openingDigest { kind := 0x31, lane := 0xFF, body := body }).closeSign 3 Dev.formCloseRecord

/-- Every unit of the lane is appended or lost. -/
def Lane.allSealed (l : Lane) : Bool := l.units.all fun u => decide (u.st = .appended) || u.lost != 0

/-- The lane's part of the close is over: units, links and the CLOSE element (R134, R233). -/
def Lane.closed (l : Lane) : Bool := l.st != .schuss || (l.allSealed && (decide (l.ctx0.dir ≠ .seal) || l.stream.ended))

/-- A record of the custody at the stop edge waits for its page: a segment or an element. -/
def ReserveRec.ofLane (r : ReserveRec) : Bool := r.kind ≤ 5 || r.kind == 0x10

/-- The step that PWR_CLOSE shows next: SEAL once the opening record is programmed, RESERVE once every lane's part is over, and RECORDS
once the FINAL receipt stands behind the last programmed segment page (R234). -/
def Dev.closeStepOf (d : Dev) : CloseStep :=
  if !d.close.openingDone then .opening
  else if !d.lanes.toList.all Lane.closed then .seal
  else if 2 ≤ d.close.stage && !d.store.reserve.queue.any ReserveRec.ofLane then .records
  else .reserve

/-- PWR_CLOSE.STEP only goes on (R234). -/
def Dev.closeStepNow (d : Dev) : Dev :=
  d.onPower fun p =>
    if p.closeStep = .opening || ((p.closeStep = .seal || p.closeStep = .reserve) && decide (p.closeStep.code ≤ d.closeStepOf.code)) then
      { p with closeStep := d.closeStepOf } else p

/-- The FINAL receipt and its proofs are formed (R113, R136, R138). -/
def Dev.formFinal (d : Dev) (draw : CloseDraw) (failed : Bool) : Dev :=
  let c := d.close
  let m : Making := { kind := .final, boundary := c.finalAt, snapSeq := c.finalSeq, prev := c.priorDigest, leaves := c.leaves,
                      root := c.finalRoot, uncertain := c.finalUncertain }
  let body := (d.withKey draw.key).receipt m (d.receiptFlags m + (if draw.isSome then 0 else 16 + b2n failed * 64)) d.hive.lastSigned draw.sig
  let dig := digest64 body
  let d := d.onClose fun c => { c with finalDigest := dig }
  let d := d.reservePut d.close.openingDigest { kind := 0x20, lane := 0xFF, body := body }
  let d := d.each (d.proofsOf m dig).zipIdx fun d p =>
    if p.1.isEmpty then d else d.reservePut d.close.openingDigest { kind := 0x21, lane := p.2, body := p.1 }
  (d.closeSign 2 Dev.formLoss).closeStepNow

/-- The record of a stage is formed. -/
def Dev.formStage (d : Dev) (draw : CloseDraw) (failed : Bool) : Dev :=
  match d.close.stage with
  | 1 => d.formFinal draw failed
  | 2 => d.formLoss draw failed
  | 3 => d.formCloseRecord draw failed
  | _ => d

/-- A close signing job has ended: up to three attempts for a record, then the unsigned layout (R235). -/
def Dev.closeJobEnd (d : Dev) (which : Nat) (e : JobEnd) : Dev :=
  if which ≠ d.close.stage || d.close.unsigned then d
  else
    match e.sig with
    | some draw => d.formStage (some (e.slot, draw)) false
    | none =>
      if d.close.attempts < 3 then
        (d.onClose fun c => { c with attempts := c.attempts + 1 }).seqJob 10 0 (.closeRec which) e.tried
      else (d.logEvent 0x01A 3 [u8 which, u8 e.cause]).formStage none true

/-- DESTROY: the rest of the close is unsigned; a signing job under way is withdrawn, and the purge of the tiles ends it at once (R43,
R355). -/
def Dev.closeUnsigned (d : Dev) : Dev :=
  let hit := fun (j : Job) => match j.what with | .closeRec _ => true | _ => false
  let d := (d.onClose fun c => { c with unsigned := true }).dropJobs hit
  d.formStage none false

/-- A tile job of a sequencer or of an epoch signature has ended. -/
def Dev.jobEnded (d : Dev) (e : JobEnd) : Dev :=
  match e.what with
  | .receipt => d.receiptEnd e
  | .epochSig n => d.epochJobEnd n e
  | .closeRec w => d.closeJobEnd w e
  | .software => d

/-! ### Sealing in SCHUSS -/

/-- A lane's links, formed by the chain unit (R232). -/
def Dev.linksAll (d : Dev) (n : Nat) : Nat → Dev
  | 0 => d
  | k + 1 => (d.linkAppend n).linksAll n k

/-- One owed unit is resumed or started, sealed and appended, after the links that are due. -/
def Dev.sealOne (d : Dev) (n : Nat) : Dev :=
  let d := d.laneEpochNow n
  let d := d.linksAll n (d.lane n).caps.length
  let d := if (d.lane n).parked.isSome then d.onLane n Lane.resume else d.engineStart n
  (d.formTag n).appendSegment n
def Dev.sealMany (d : Dev) (n : Nat) : Nat → Dev
  | 0 => d
  | k + 1 => (d.sealOne n).sealMany n k

/-- After its last owed segment the chain unit appends the CLOSE element, and the engine slot is free (R134, R233). -/
def Dev.schussEnd (d : Dev) (n : Nat) : Dev :=
  let l := d.lane n
  if !(l.st = .schuss && l.allSealed) then d
  else
    let d := d.onLane n fun l => { l with slot := false, parked := none }
    if l.ctx0.dir = .seal && !l.stream.ended then (d.linksAll n l.caps.length).appendClose n 2 1 else d

/-- SCHUSS_ENGINE_SLOT: a lane takes one of the 16 slots, in ascending lane order, and seals up to `k` of its owed units;
after the last one comes its CLOSE element (R89, R233). -/
def Dev.schussSlot (d : Dev) (n k : Nat) : Dev :=
  let l := d.lane n
  let waits := fun (i : Nat) => let q := d.lane i; decide (q.st = .schuss) && !q.closed && !q.slot
  let used := (List.range d.nLanes).countP fun i => (d.lane i).slot
  if !(d.power.mode = .close && !d.close.cutoff && decide (n < d.nLanes) && l.st = .schuss && !l.closed
      && (l.slot || (decide (used < 16) && !(List.range n).any waits))) then d
  else
    let d := d.onLane n fun l => { l with slot := true }
    (((d.sealMany n (Nat.min k l.units.length)).schussEnd n).drainReserve).closeStepNow

/-- A unit at the seal cutoff: sealed whole where its encryption is complete, truncated at its last completed block, or LOST with cause
POWER (R38). -/
def MediaUnit.cut (u : MediaUnit) (lane sid done : Nat) : MediaUnit :=
  let b := Nat.min done u.payload.length / 16 * 16
  if !u.unsealed then u
  else if (u.st = .encrypting || u.st = .suspended) && decide (u.payload.length ≤ done) then
    let u := { u with done := u.payload.length, st := .encrypting }
    { u with segment := sealUnit lane sid u true }
  else if (u.st = .encrypting || u.st = .suspended) && b != 0 then
    let u := { u with truncated := true, done := b, st := .encrypting }
    { u with segment := sealUnit lane sid u true }
  else { u with lost := 4 }

/-- SEAL_CUTOFF_EXPIRY for a lane. `done` is the count of payload bytes whose processing has ended at the cutoff edge. The truncated
unit's tag is the last that the previous key forms (R72). -/
def Dev.cutLane (d : Dev) (n done : Nat) : Dev :=
  if (d.lane n).st != .schuss then d
  else
    let d := d.laneEpochNow n
    let l := d.lane n
    let at_ := fun (u : MediaUnit) => if u.st = .suspended then u.done else done
    let d := d.onLane n fun l => { l with units := l.units.map fun u => u.cut n l.ctx0.stream (at_ u), parked := none, prev := none }
    let d := d.linksAll n l.caps.length
    (d.appendSegment n).schussEnd n

/-- SEAL_CUTOFF_EXPIRY (R38): the list gives the bytes done of each lane's unit in the engine. -/
def Dev.sealCutoff (d : Dev) (done : List Nat) : Dev :=
  if !(d.power.mode = .close && !d.close.cutoff && d.due (d.close.stopAt + ms 10)) then d
  else
    let d := d.onClose fun c => { c with cutoff := true }
    ((d.each (List.range d.nLanes) fun d n => d.cutLane n (done.getD n 0)).drainReserve).closeStepNow

/-- FINAL_SNAPSHOT: after the last append on any lane (R37, R113, R234). -/
def Dev.finalSnapshot (d : Dev) : Dev :=
  if !(d.power.mode = .close && d.close.openingForm && d.close.stage = 0 && d.lanes.toList.all Lane.closed) then d
  else
    let d := ({ d with wag := { d.wag with latched := false } } : Dev).capture
    let leaves := d.leaves
    let root := d.hiveRoot leaves
    let d := d.onHive fun h => { h with root := root, rootBound := d.now }
    let late := d.time.servo.uncertain
    let d := d.onClose fun c =>
      { c with finalAt := d.now, finalSeq := d.hive.snapSeq, finalRoot := root, leaves := leaves, finalUncertain := late }
    d.closeSign 1 Dev.formFinal

/-- CLOSE_OPENING_PROGRAMMED (R37). -/
def Dev.openingProgrammed (d : Dev) : Dev :=
  if d.power.mode = .close && !d.close.openingDone && d.store.reserve.stored.any fun r => r.kind == 0x30 then
    (d.onClose fun c => { c with openingDone := true }).closeStepNow
  else d

/-- CLOSE_DEADLINE_EXPIRY (R236). -/
def Dev.closeDeadline (d : Dev) : Dev :=
  match d.close.pfailAt with
  | some t =>
    if d.power.mode = .close && !d.close.recordDone && !d.close.late && d.past (t + ms 32) then
      (d.onClose fun c => { c with late := true }).powerErr 2
    else d
  | none => d

/-- The opening record and the close record of a close that the reserve holds. -/
def Dev.storedKind (d : Dev) (k : Nat) : Option StoreRec := d.store.reserve.stored.find? fun r => r.kind == k

/-- CLOSE_RECORD_PROGRAMMED: the close is complete; lanes leave SCHUSS for OFF, the store goes OFF, the duration is kept and the log
programs again (R65, R90, R215, R234, R236, R429). The field step begins. -/
def Dev.closeRecordDone (d : Dev) : Dev :=
  if !(d.power.mode = .close && !d.close.recordDone && d.store.reserve.stored.any fun r => r.kind == 0x32) then d
  else
    let dur := Nat.min ((d.clk - d.close.stopAt) / 10000) 0xFFFF
    let late := match d.close.pfailAt with | some t => d.past (t + ms 32) | none => false
    let d := if late && !d.close.late then (d.onClose fun c => { c with late := true }).powerErr 2 else d
    let d := d.onClose fun c => { c with recordDone := true }
    let body := ((d.storedKind 0x32).map fun r => r.body).getD []
    let d := d.onPower fun p =>
      { p with closeStep := .field, lastDuration := dur, lastCause := p.closeCause, lastStop := d.close.stopTime,
               lastLost := d.close.nLost, lastDigest := digest64 body }
    (d.each (List.range d.nLanes) fun d n => d.onLane n fun l =>
      { l with st := if l.st = .idle then .idle else .off, key := none, prev := none, ctx0 := {}, ctx1 := {}, units := [], caps := [],
               slot := false, ring0 := { l.ring0 with valid := false }, ring1 := { l.ring1 with valid := false } }).logCloseEnd.onStore
      fun s => { s with st := .off }

/-- A page of the close reserve fails. Where that gives up a segment after the loss report was formed, the loss report and
the close record are formed again (R141, R187). -/
def Dev.reservePageFail (d : Dev) (b page : Nat) : Dev :=
  let n := d.store.reserve.abandoned.length
  let e := d.reserveFail d.close.openingDigest b page
  if e.store.reserve.abandoned.length = n || d.close.stage < 3 then e
  else
    let keep := fun (r : ReserveRec) => r.kind != 0x31 && r.kind != 0x32
    let d := d.onStore fun s => { s with reserve := { s.reserve with queue := s.reserve.queue.filter keep } }
    let d := (d.onTiles fun t => { t with waiting := t.waiting.filter fun j => j.sub != 10 })
    (d.reserveFail d.close.openingDigest b page).closeSign 2 Dev.formLoss

/-- STORE_PAGE_PROGRAMMED: the page's owner decides what follows (R179, R183, R187, R202, R234). -/
def Dev.storePageDone (d : Dev) (b page : Nat) (ok : Bool) : Dev :=
  let reserve := d.store.pages.any fun j => j.block == b && j.page == page && !j.done && j.started && j.owner == .closeReserve
  let e := if reserve && !ok then d.reservePageFail b page else d.pageProgrammed d.close.openingDigest b page ok
  if d.power.mode = .close then e.closeStepNow else e

/-! ### Reconciliation -/

/-- The journal holds the reconciliation record of the close with an opening digest (R47, R243). -/
def Dev.reconciled (d : Dev) (dig : List Byte) : Bool :=
  d.store.journal.records.any fun r => r.2.kind == 0x52 && r.2.opening == dig

/-- Runs of sequence numbers from `a` to `b` that are not among the ascending numbers of a list. -/
def missing (a b : Nat) : List Nat → List (Nat × Nat)
  | [] => if a ≤ b then [(a, b)] else []
  | x :: xs => if x < a then missing a b xs
    else if b < x then (if a ≤ b then [(a, b)] else [])
    else (if a < x then [(a, x - 1)] else []) ++ missing (x + 1) b xs

/-- Loss entries of a reconciliation: every unit of the opening record without a segment (R46). Time, length and ring
index of such a unit stand in no record, and are zero. -/
def Dev.reconLosses (d : Dev) (opening : List Byte) : List (List Byte) :=
  ((List.range (numAt opening 0xA1 1)).map fun i =>
    let e := bytesAt opening (0xA8 + 32 * i) 32
    let first := numAt e 0x10 8
    let have_ := sortBy (fun a b => decide (a ≤ b)) ((d.store.reserve.stored.filter fun r => r.kind == 0x10 && r.lane == i).map fun r => r.seq)
    if first = 0 then []
    else (missing first (numAt e 0x18 8) have_).map fun r =>
      lossEntry (numAt e 8 8) r.1 0 0 0 4 4 i (if r.1 = r.2 then 0 else 2) 0 r.2).flatten

/-- The close of the reserve: its opening record, or where that was given up its close record, and the digest of the opening record
(R46, R142, R187). -/
def Dev.reconClose (d : Dev) : Option (StoreRec × List Byte) :=
  match d.storedKind 0x30, d.storedKind 0x32 with
  | some o, _ => some (o, digest64 o.body)
  | none, some c => some (c, bytesAt c.body 0xF8 64)
  | none, none => none

/-- The reconciliation loss report of a close without close record, journalled before anything is appended; at most one
is written (R46, R47). DESIGN CHOICE (log entry 96): it is signed within the row. -/
def Dev.reconReport (d : Dev) (opening : List Byte) (dig : List Byte) : Dev :=
  let d := if (d.storedKind 0x32).isSome then d else d.powerErr 4
  if (d.storedKind 0x32).isSome || (d.store.journal.newest fun r => r.kind == 0x31 && r.opening == dig).isSome then d
  else
    let key := d.keySlot 1025
    let signed := key.full
    let r := if signed then d.randDraw 0 1024 false else ([], d)
    let body := r.2.lossReport (4 + b2n (!signed)) (numAt opening 0x0C 4) (numAt opening 0x10 8) dig dig (r.2.reconLosses opening)
      (if signed then some fun h => falconSig key.key h r.1 else none)
    r.2.journal 0x31 body true

/-- The containers that an interrupted reconciliation opened go out of use (R242). -/
def Dev.reconRetire (d : Dev) (dig : List Byte) : Dev :=
  match d.store.journal.newest fun r => r.kind == 0x56 && r.opening == dig with
  | none => d
  | some s =>
    let from_ := numAt s.body 64 8
    let old := d.containers.filter fun b => decide (from_ ≤ b.2.seq)
    let d := d.each old fun d b => (d.journal 0x54 (le 8 b.2.seq ++ le 8 (b.2.readable * pageBytes) ++ zeros 8) true).beginErase b.1
    let named := d.blk (numAt s.body 72 2)
    let d := if named.region = .container && !named.erased && !named.erasing && named.readable == 0 then
      d.beginErase (numAt s.body 72 2) else d
    let o := (d.reconClose.map Prod.fst).getD { kind := 0, lane := 0, seq := 0, body := [] }
    let d := d.onStore fun s => { s with prevDigest := zeros 64, container := none }
    (d.powerErr 6).logEvent 0x018 2 (le 4 (numAt o.body 0x0C 4))

/-- A record goes into a further container for the close. -/
def Dev.reconOpen (d : Dev) (r : StoreRec) : Option Dev :=
  match d.openContainer true with
  | some d => some (d.putRecord r)
  | none => none

/-- Records go into the container opened for the close, and into further ones as it fills (R188, R242). -/
def Dev.reconPut (d : Dev) (r : StoreRec) : Option Dev :=
  match d.store.container with
  | some c => if c.fits r then some (d.putRecord r) else d.closeContainer.reconOpen r
  | none => d.reconOpen r
def Dev.reconPutAll (d : Dev) : List StoreRec → Option Dev
  | [] => some d
  | r :: rs =>
    match d.reconPut r with
    | some d => d.reconPutAll rs
    | none => none

/-- A wait for a container block in RECONCILE, logged where none qualifies for an erase and none is under way (R188). -/
def Dev.reconWait (d : Dev) : Dev :=
  let going := d.store.blocks.any fun b => decide (b.2.region = .container) && b.2.erasing
  if d.store.reconFull || going || d.victim.isSome then d else (d.onStore fun s => { s with reconFull := true }).logEvent 0x040 2 [0xFF#8]

/-- The copy of a close into the container ring begins: a report that is due, and RECON_START with the block that the first container
will take (R46, R188, R242). -/
def Dev.reconBegin (d : Dev) (opening dig : List Byte) : Dev :=
  let d := d.onStore fun s => { s with rewrite := [], taken := [] }
  let d := (d.reconRetire dig).reconReport opening dig
  match d.nextRingBlock with
  | none => d.reconWait
  | some b =>
    (d.journal 0x56 (fitBytes 64 dig ++ le 8 d.store.nextSeq ++ le 2 b ++ zeros 6) true).onStore fun s =>
      { s with recon := .starting, reconFull := false }

/-- With RECON_START programmed, the records are appended in their stored order, and after them the report (R46, R188, R242). -/
def Dev.reconCopy (d : Dev) (dig : List Byte) : Dev :=
  let report := match d.store.journal.newest fun r => r.kind == 0x31 && r.opening == dig with
    | some r => [({ kind := 0x31, lane := 0xFF, seq := 0, body := r.body } : StoreRec)]
    | none => []
  match d.reconPutAll (d.store.reserve.stored ++ report) with
  | none => d.reconWait
  | some e => e.closeContainer.onStore fun s => { s with recon := .appending, reconFull := false }

/-- The hold entries of a close record (R142). -/
def closeHolds (body : List Byte) : List (List Byte) :=
  (List.range (numAt body 0xA2 2)).map fun i => bytesAt body (0x1C0 + 88 * numAt body 0xA1 1 + 24 * i) 24

/-- A trigger hold of the close that an earlier attempt placed (R47). -/
def Dev.holdPlaced (d : Dev) (line t pre post : Nat) : Bool :=
  let is := fun (start stop origin source : Nat) =>
    origin == 1 && source == line && start == t - pre * 2 ^ 32 && stop == t + post * 2 ^ 32
  (d.store.holds.any fun h => is h.start h.stop h.origin h.source)
    || d.store.journal.records.any fun r => r.2.kind == 0x50
      && is (numAt r.2.body 8 8) (numAt r.2.body 0x10 8) (numAt r.2.body 0x30 1) (numAt r.2.body 0x31 1)

/-- A hold entry of the close record: its hold is placed, once (R46, R47). -/
def Dev.reconHold (d : Dev) (h : List Byte) : Dev :=
  let line := numAt h 0x10 1
  let t := numAt h 0 8
  if d.holdPlaced line t (numAt h 8 4) (numAt h 0xC 4) then d else d.triggerHold line t (numAt h 8 4) (numAt h 0xC 4)

/-- With the records programmed: the FINAL receipt is journalled, pending holds are placed and the reconciliation record is
journalled (R33, R46, R189, R193). -/
def Dev.reconRecord (d : Dev) (opening : List Byte) : Dev :=
  let final := d.store.reserve.stored.find? fun r => r.kind == 0x20 && numAt r.body 5 1 == 2
  let d := match final with
    | some r =>
      let proofs := proofsAmong d.nLanes (d.store.reserve.stored.map fun (s : StoreRec) => (s.kind, s.lane, s.body)) (digest64 r.body)
      (d.journal 0x20 r.body false).onReceipts fun q =>
        { q with lastDigest := digest64 r.body, lastAny := r.body, lastAnyProofs := proofs }
    | none => d
  let close := d.storedKind 0x32
  let d := match close with
    | some r => d.each (closeHolds r.body) Dev.reconHold
    | none => d
  let dig := match close with | some r => digest64 r.body | none => zeros 64
  (d.journal 0x52 (dig ++ fitBytes 64 opening ++ le 8 d.now) true).onStore fun s => { s with recon := .recording }

/-- RECONCILE, in steps: it begins with the store READY and PFAIL_N deasserted, goes on as its pages are programmed, and
ends with its record (R45 to R47, R227, R243). -/
def Dev.reconcile (d : Dev) : Dev :=
  if !(d.power.mode = .test && (d.power.startStep = .scan || d.power.startStep = .reconcile) && d.store.st = .ready && d.power.bootDone
      && !d.power.pfail && d.log.open_) then d
  else
    let d := d.onPower fun p => { p with startStep := .reconcile }
    match d.reconClose with
    | none => if d.store.recon = .none then d.onStore fun s => { s with recon := .ended } else d
    | some (o, dig) =>
      match d.store.recon with
      | .none =>
        if d.reconciled dig then d.onStore fun s => { s with recon := .ended }
        else if !d.canDraw 0 && (d.keySlot 1025).full then d
        else d.reconBegin o.body dig
      | .starting => if d.store.journal.inFlight.isEmpty then d.reconCopy dig else d
      | .appending =>
        if d.store.pages.any fun j => j.owner == .writer then d
        else if d.store.cuts.isEmpty && d.store.rewrite.isEmpty then d.reconRecord dig else d.reconBegin o.body dig
      | .recording =>
        if d.reconciled dig then
          let copied := (d.store.reserve.stored.filter fun r => r.kind == 0x10).length
          (d.logEvent 0x017 1 (le 4 (numAt o.body 0x0C 4) ++ le 4 copied)).onStore fun s => { s with recon := .ended }
        else d
      | .ended => d

/-- Every close-reserve block that is not erased: no close stands in them any more (R47, R243). -/
def Dev.reserveErase (d : Dev) : Dev :=
  d.each ((d.store.blocks.filter fun b => decide (b.2.region = .closeReserve) && !b.2.erased && !b.2.erasing).map Prod.fst) Dev.beginErase

/-- The close of the reserve is finished with: its cause and duration stand in PWR_LAST_CLOSE, and its blocks are erased, those of an
earlier erase that was cut among them (R47, R188, R243, R246). -/
def Dev.reconFinish (d : Dev) : Dev :=
  let d := match d.storedKind 0x32 with
    | some r =>
      let dur := (numAt r.body 0x18 8 - numAt r.body 0x10 8) * 100000 / 2 ^ 32
      d.onPower fun p => { p with lastDuration := Nat.min dur 0xFFFF, lastValid := true, lastStop := numAt r.body 0x10 8,
                                  lastLost := numAt r.body 0xB0 4, lastDigest := digest64 r.body,
                                  lastCause := match numAt r.body 0xA0 1 with | 1 => .pfail | 2 => .tamper | 3 => .shutdown | 4 => .supervisor | _ => .none }
    | none => d
  d.reserveErase.onStore fun s => { s with recon := .none, reserve := { nextBlock := s.reserve.nextBlock } }

/-- A journal record that reconciliation writes: receipt, loss report, hold, reconciliation, cut and RECON_START (R189). -/
def JRec.ofRecon (r : JRec) : Bool := [0x20, 0x31, 0x50, 0x52, 0x54, 0x56].contains r.kind

/-- PFAIL_N during reconciliation stops it at the next page boundary: pages that are in programming end, and no other of reconciliation
begins. It begins again from its start (R48). -/
def Dev.reconStop (d : Dev) : Dev :=
  if d.power.startStep = .reconcile && d.store.recon ≠ .ended then
    d.onStore fun s =>
      let rest := ((s.journal.inFlight.drop 1).map fun p => p.filter fun r => !r.ofRecon).filter fun p => !p.isEmpty
      { s with recon := .none, container := none, taken := [], rewrite := [], pages := s.pages.filter fun j => j.owner != .writer || j.started,
               journal := { s.journal with inFlight := s.journal.inFlight.take 1 ++ rest } }
  else d

end Sys2Proof.Machine
end

