-- ==== Sys2Proof/Machine/FieldOps.lean ====
section
/-! DEFINITION. The field link: identifiers, tag commands, authentication, the inspection page and its banks, reader mode
(R538 to R562). -/
namespace Sys2Proof.Machine

/-- Change the field link and its non-volatile memory. -/
def Dev.onField (d : Dev) (f : FieldLink → FieldLink) : Dev := { d with field := f d.field }
def Dev.onFieldMem (d : Dev) (f : FieldMem → FieldMem) : Dev := d.onField fun l => { l with mem := f l.mem }
def Dev.fieldErr (d : Dev) (n : Nat) : Dev := d.onField fun l => { l with err := setBit l.err n }

/-! ### Bits and CRC -/

/-- Bits of bytes in the order sent: within a byte the least significant first (R542). -/
def bitsOf (bs : List Byte) : List Bool := bs.flatMap fun b => (List.range 8).map fun i => b.toNat.testBit i

/-- One bit of CRC-16 with x^16 + x^12 + x^5 + 1 (R542). -/
def crc16Bit (c : Nat) (b : Bool) : Nat :=
  if (c.testBit 15) != b then ((c * 2) % 65536) ^^^ 0x1021 else (c * 2) % 65536

/-- CRC-16 over bits, as 16 bits, the most significant first. -/
def crc16 (bits : List Bool) : List Bool :=
  let c := (bits.foldl crc16Bit 0xFFFF) ^^^ 0xFFFF
  (List.range 16).map fun i => c.testBit (15 - i)

/-- A frame of bits with its CRC. -/
def withCrc (bits : List Bool) : List Bool := bits ++ crc16 bits

/-- A reply other than WALK. -/
def Dev.fieldReply (d : Dev) (bs : List Byte) : Dev := d.send (.fieldReply (withCrc (bitsOf bs)))

/-- AES-CMAC with 16 bytes of output. -/
def cmac (key m : List Byte) : List Byte := fitBytes 16 (Config.cmac key m)

/-! ### Where the tag runs -/

/-- Main power is present. -/
def Dev.mainPower (d : Dev) : Bool := d.supply.pgood

/-- The tag may run (R538, R548). -/
def Dev.tagRuns (d : Dev) : Bool :=
  d.field.tagEn && !d.field.readerEn && decide (d.life.st ≠ .blank) && decide (d.life.st ≠ .retired)
    && (d.power.mode != .test || d.rng.ready)

/-- A fresh identifier is drawn while random output is ready; elsewhere it comes from the pool (R538, R544). -/
def Dev.freshIdent (d : Dev) : Bool :=
  d.canDraw 0 && (d.power.mode = .idle || d.power.mode = .record || d.power.mode = .ingest || d.power.mode = .test)

/-- The tag takes a new identifier (R544 to R546). -/
def Dev.takeIdent (d : Dev) : Dev :=
  if d.freshIdent then
    let r := d.randDraw 0 8 false
    r.2.onField fun l => { l with ident := r.1, fallback := false, fromPool := false }
  else if d.field.mem.used < 64 then
    let e := (d.field.mem.pool[d.field.mem.used]?).getD []
    (d.onFieldMem fun m => { m with used := m.used + 1 }).onField fun l =>
      { l with ident := fitBytes 8 e, fallback := false, fromPool := true }
  else
    let r := d.draw 8
    let d := (r.2.onFieldMem fun m => { m with fallbacks := satInc 16 m.fallbacks }).fieldErr 4
    d.onField fun l => { l with ident := r.1, fallback := true, fromPool := false, fallbackCount := satInc 16 l.fallbackCount }

/-- The identifier as a number (R543). -/
def FieldLink.id (l : FieldLink) : Nat := unle l.ident

/-! ### Banks of the page -/

/-- The active bank: the valid one with the higher commit_seq (R557). -/
def FieldMem.active (m : FieldMem) : Nat :=
  match m.bank0.seq, m.bank1.seq with
  | none, some _ => 1
  | some a, some b => if a < b then 1 else 0
  | _, _ => 0
def FieldMem.bank (m : FieldMem) (b : Nat) : PageBank := if b = 0 then m.bank0 else m.bank1
def FieldMem.commitSeq (m : FieldMem) : Nat := (m.bank m.active).seq.getD 0

/-- A page enters the inactive bank and is committed (R557). -/
def FieldMem.commit (m : FieldMem) (page : List Byte) : FieldMem :=
  let b : PageBank := { page := page, seq := some ((m.commitSeq + 1) % 2 ^ 32) }
  if m.active = 0 then { m with bank1 := b } else { m with bank0 := b }

/-- Records of the log, newest first: those still in the page buffer and in programming, then the programmed ones. -/
def Log.newestFirst (l : Log) : List LogRec := l.buffer.reverse ++ (l.pages.flatten).reverse ++ l.blocks.flatten

/-- The events of a page: the newest 64 records of WARNING or above, in index order, carried duplicates excluded
(R555). -/
def Dev.pageEvents (d : Dev) : List LogRec :=
  ((d.log.newestFirst.filter fun r => decide (2 ≤ r.sev) && !r.carried).take 64).reverse

/-- The evidence counter: the larger copy (R419). -/
def Tamper.count (t : Tamper) : Nat := Nat.max t.tec1 t.tec2

/-- The inspection page (R555); a page written by a close keeps the label and the events of the active page. -/
def Dev.composePage (d : Dev) (close : Bool) (label : List Byte) : List Byte :=
  let old := (d.field.mem.bank d.field.mem.active).page
  let rec_ := d.receipts.lastAny
  let rcpt := if close then ((d.store.reserve.stored.find? fun r => r.kind == 0x20 && numAt r.body 5 1 == 2).map fun r => r.body).getD rec_ else rec_
  let known := !d.power.lastDigest.isEmpty
  let stop := if known then le 8 d.power.lastStop else bytesAt old 0x18 8
  let cause := if known then [u8 d.power.lastCause.code] else bytesAt old 0x65 1
  let lost := if known then le 4 d.power.lastLost else bytesAt old 0x68 4
  let dig := if known then fitBytes 64 d.power.lastDigest else bytesAt old 0x70 64
  let ev := d.pageEvents
  let events := if close then bytesAt old 0x7E0 0x81C
    else fitBytes 2048 (ev.flatMap LogRec.bytes) ++ le 2 ev.length ++ zeros 6 ++ le 8 ((ev.head?.map fun r => r.index).getD 0) ++ zeros 12
  let open_ := d.lanes.toList.countP fun l => decide (l.ctx0.dir = .seal)
  let b := ascii "QFPG" ++ [1#8, u8 (b2n d.time.servo.uncertain + b2n close * 2 + b2n rcpt.isEmpty * 4)] ++ zeros 2 ++ le 4 4096
    ++ le 4 d.time.aon.pcyc ++ le 8 d.now ++ stop ++ fitBytes 64 d.keys.idDigest ++ le 4 d.tamper.count ++ [u8 d.life.st.code] ++ cause
    ++ zeros 2 ++ lost ++ le 4 open_ ++ dig ++ (if close then bytesAt old 0xB0 256 else fitBytes 256 label) ++ fitBytes 1584 rcpt ++ events
  let b := fitBytes 0xFFC b
  b ++ le 4 (crc32 b)

/-- The states that have page writes (R455, R560). -/
def Dev.pageAllowed (d : Dev) : Bool := d.life.st = .fleet || d.life.st = .service

/-- A page write is made: written and committed. -/
def Dev.doCommit (d : Dev) (w : FieldWait) : Dev :=
  let bank := 1 - d.field.mem.active
  let d := (d.onFieldMem fun m => m.commit w.page).onField fun l => { l with lastCommit := d.now }
  match w.work with
  | .command p s => d.reply p s .ok ([u8 bank] ++ zeros 7 ++ le 8 d.now)
  | .regPage => d.onField fun l => { l with wrDone := true, wrStatus := 0 }
  | _ => d

/-- A pool write is made: fresh entries and a cleared map (R545). -/
def Dev.doPool (d : Dev) (w : FieldWait) : Dev :=
  let d := d.onFieldMem fun m => { m with pool := w.pool, used := 0, poolGen := (m.poolGen + 1) % 2 ^ 32 }
  match w.work with
  | .regPool => d.onField fun l => { l with wrDone := true, wrStatus := 0 }
  | _ => d

/-- A waiting write may be made now (R328, R558). -/
def Dev.mayCommit (d : Dev) (w : FieldWait) : Bool :=
  match d.field.sess with
  | none => true
  | some s =>
    match w.until_ with
    | some t => d.due t && s.bank == d.field.mem.active
    | none => false

/-- A waiting write is done, a page or a pool. -/
def Dev.doWork (d : Dev) (w : FieldWait) : Dev :=
  let d := d.onField fun l => { l with waits := l.waits.filter (· != w) }
  let d := if w.pool.isEmpty then d else d.doPool w
  if w.page.isEmpty then d else d.doCommit w

/-- FIELD_PAGE_COMMIT: every write that may be made is made, in the order in which it came. -/
def Dev.fieldCommits (d : Dev) : Dev := d.each d.field.waits fun d w => if d.mayCommit w then d.doWork w else d


/-- A write is asked for: made at once, or it waits. -/
def Dev.fieldWork (d : Dev) (w : FieldWait) : Dev := (d.onField fun l => { l with waits := l.waits ++ [w] }).fieldCommits

/-- A waiting write fails: the earlier content stays in force (R565). -/
def Dev.fieldWorkFails (d : Dev) (w : FieldWait) : Dev :=
  let d := (d.onField fun l => { l with waits := l.waits.filter (· != w) }).fieldErr 1
  match w.work with
  | .command p s => d.refuse p s .internalFault
  | .regPage | .regPool => d.onField fun l => { l with wrDone := false, wrStatus := Status.internalFault.code }
  | _ => d

/-- FLD_WR_STATUS.BUSY. -/
def FieldLink.wrBusy (l : FieldLink) : Bool := l.waits.any fun w => w.work == .regPage || w.work == .regPool

/-- FLD_WR_CTRL.GO (R545, R557, R565). -/
def Dev.fieldWrite (d : Dev) (pool : Bool) : Dev :=
  let l := d.field
  let n := if pool then 512 else 4096
  let fail := fun (st : Status) => d.onField fun l => { l with wrDone := false, wrStatus := st.code }
  if l.wrBusy then d
  else if !inSram 0 l.wrAddr n then fail .badAddr
  else if !pool && !d.pageAllowed then fail .lcDenied
  else
    let bs := d.memGet 0 l.wrAddr n
    let d := d.onField fun l => { l with wrDone := false }
    if pool then d.fieldWork { work := .regPool, pool := (pieces 8 bs).take 64 } else d.fieldWork { work := .regPage, page := bs }

/-- A fresh pool at an entry to STANDBY (R545). -/
def Dev.standbyPool (d : Dev) : Dev :=
  if d.canDraw 0 then
    let r := d.randDraw 0 512 false
    r.2.fieldWork { work := .standbyPool, pool := pieces 8 r.1 }
  else d

/-- The field step of a close: its page, and the pool from the close pool (R234, R545, R560). After a DESTROY the close
pool is empty and the pool stays. -/
def Dev.closeField (d : Dev) : Dev :=
  let r := if 512 ≤ d.rng.cpool then d.closeDraw 512 else ([], d)
  let page := if r.2.pageAllowed then r.2.composePage true [] else []
  if page.isEmpty && r.1.isEmpty then r.2 else r.2.fieldWork { work := .close, page := page, pool := pieces 8 r.1 }

/-! ### The tag -/

/-- The session ends (R559): outcome 0 END, 1 inactivity, 2 carrier loss, 3 failed proof, 4 BEGIN. -/
def Dev.sessionDone (d : Dev) (outcome : Option Nat) (st : TagSt) : Dev :=
  let d' := d.onField fun l => { l with tag := st }
  match d.field.sess with
  | none => d'
  | some s =>
    let d' := d'.onField fun l => { l with sess := none, lastEnd := d.now }
    match outcome with
    | some o =>
      if d.mainPower then
        d'.notice 4 0x60 0xFF (fitBytes 8 d.field.ident ++ le 8 s.selectAt ++ le 8 d.now ++ le 2 s.blocks ++ [u8 s.keyId, u8 o] ++ zeros 4)
      else d'
    | none => d'

/-- The tag goes OFF where it may not run (R548). -/
def Dev.tagSettle (d : Dev) : Dev := if d.tagRuns || d.field.tag = .off then d else d.sessionDone none .off

/-- FIELD_CARRIER_RISE (R538, R544): a field activation. -/
def Dev.carrierRise (d : Dev) : Dev :=
  if d.supply.field then d else
  let d := { d with supply := { d.supply with field := true } }
  let d := if !d.mainPower && !d.supply.vbat then d.onPower fun p => { p with mode := .field } else d
  if d.tagRuns then (d.onField fun l => { l with tag := .ready, fails := 0, sess := none }).takeIdent else d

/-- CARRIER_ABSENCE_EXPIRY (R541). -/
def Dev.carrierGone (d : Dev) : Dev :=
  let d := d.sessionDone (some 2) .off
  let d := if d.power.mode = .field then d.onPower fun p => { p with mode := .vault } else d
  { d with supply := { d.supply with field := false } }

/-- A command with a bad CRC is ignored; one in a session keeps it alive (R542, R548). -/
def Dev.tagCommand (d : Dev) (crcOk : Bool) (valid : TagSt → Bool) (f : Dev → Dev) : Dev :=
  if !(crcOk && d.tagRuns && d.supply.field && valid d.field.tag) then d
  else f (d.onField fun l => { l with sess := l.sess.map fun s => { s with idleAt := d.clk + ms 50 } })

/-- BEGIN (R547, R559). -/
def Dev.tagBegin (d : Dev) (crcOk : Bool) : Dev :=
  d.tagCommand crcOk (fun s => s != .off) fun d => d.sessionDone (some 4) .arbitrate

/-- The first bits of the identifier, as a number of `n` bits. -/
def FieldLink.startsWith (l : FieldLink) (n prefix_ : Nat) : Bool := l.id % 2 ^ n == prefix_ % 2 ^ n

/-- WALK (R549). -/
def Dev.tagWalk (d : Dev) (plen prefix_ : Nat) (crcOk : Bool) : Dev :=
  d.tagCommand crcOk (fun s => s == .arbitrate && decide (plen ≤ 64)) fun d =>
    if d.field.startsWith plen prefix_ then
      let r := if d.freshIdent then d.randDraw 0 1 false else d.draw 1
      let idBits := bitsOf (fitBytes 8 d.field.ident)
      r.2.send (.fieldReply (idBits.drop plen ++ bitsOf r.1 ++ crc16 (idBits ++ bitsOf r.1)))
    else d

/-- The key entry of an index, and the entry that holds a key_id (R551). -/
def FieldMem.keyEntry (m : FieldMem) (i : Nat) : FieldKey := if i = 0 then m.key0 else m.key1
def FieldMem.keyFor (m : FieldMem) (id : Nat) : Option FieldKey :=
  if m.key0.valid && m.key0.keyId == id then some m.key0 else if m.key1.valid && m.key1.keyId == id then some m.key1 else none
def FieldMem.keyIds (m : FieldMem) : List Byte :=
  [if m.key0.valid then u8 m.key0.keyId else 0xFF#8, if m.key1.valid then u8 m.key1.keyId else 0xFF#8]

/-- AUTH is locked (R553). -/
def Dev.fieldLocked (d : Dev) : Bool :=
  decide (4 ≤ d.field.fails) || (match d.field.lockAt with | some t => !d.due t | none => false)

/-- The content of the select reply (R547). -/
def Dev.selectReply (d : Dev) : List Byte :=
  let tampered := decide (d.field.mem.lcCopy = 4) || d.field.mem.pendingTampered
  [u8 (b2n d.field.fallback + b2n d.mainPower * 2 + b2n tampered * 4 + b2n d.fieldLocked * 8)]
    ++ le 4 d.field.mem.commitSeq ++ d.field.mem.keyIds

/-- SELECT (R547, R548, R554). -/
def Dev.tagSelect (d : Dev) (id : Nat) (crcOk : Bool) : Dev :=
  d.tagCommand crcOk (fun s => s == .arbitrate) fun d =>
    if d.field.id = id then
      let m := d.field.mem
      let d := d.onField fun l =>
        { l with tag := .selected,
                 sess := some { selectAt := d.now, keyId := 0xFF, bank := m.active, commitSeq := m.commitSeq, idleAt := d.clk + ms 50 },
                 sessions := if d.mainPower then satInc 16 l.sessions else l.sessions }
      let d := if d.mainPower then d else d.onFieldMem fun m => { m with sessions := satInc 16 m.sessions }
      d.fieldReply d.selectReply
    else d.onField fun l => { l with tag := .quiet }

/-- RESHUFFLE (R544, R547). -/
def Dev.tagReshuffle (d : Dev) (id : Nat) (crcOk : Bool) : Dev :=
  d.tagCommand crcOk (fun s => s == .arbitrate || s == .selected) fun d =>
    if d.field.id = id then
      ((d.sessionDone none .arbitrate).takeIdent).onField fun l => { l with reshuffles := satInc 16 l.reshuffles }
    else d

/-- SILENCE and END (R547, R559). -/
def Dev.tagSilence (d : Dev) (id : Nat) (crcOk : Bool) : Dev :=
  d.tagCommand crcOk (fun s => s == .arbitrate) fun d => if d.field.id = id then d.onField fun l => { l with tag := .quiet } else d
def Dev.tagEnd (d : Dev) (crcOk : Bool) : Dev :=
  d.tagCommand crcOk (fun s => s == .selected || s == .auth || s == .open_) fun d => d.sessionDone (some 0) .quiet

/-- AUTH (R551 to R553). -/
def Dev.tagAuth (d : Dev) (keyId : Nat) (rr : List Byte) (crcOk : Bool) : Dev :=
  d.tagCommand crcOk (fun s => s == .selected) fun d =>
    if d.fieldLocked then d.fieldReply [2#8]
    else match d.field.mem.keyFor keyId with
      | none => d.fieldReply [3#8]
      | some k =>
        let ctr := (d.field.mem.authCtr + 1) % 2 ^ 32
        let d := d.onFieldMem fun m => { m with authCtr := ctr }
        let id := fitBytes 8 d.field.ident
        let rr := fitBytes 16 rr
        let rt := cmac k.key (ascii "QFN" ++ id ++ le 4 ctr)
        let mt := cmac k.key (ascii "QFT" ++ id ++ [u8 keyId] ++ rr ++ rt)
        let mr := cmac k.key (ascii "QFR" ++ id ++ [u8 keyId] ++ rt ++ rr)
        let two := fun (t : String) => cmac k.key ([1#8] ++ ascii t ++ rr ++ rt) ++ cmac k.key ([2#8] ++ ascii t ++ rr ++ rt)
        let d := d.onField fun l =>
          { l with tag := .auth, sess := l.sess.map fun s =>
              { s with keyId := keyId, mr := mr, kEnc := two "QFSE", kMac := two "QFSM", authAt := some (d.clk + ms 20) } }
        d.fieldReply (rt ++ mt)

/-- A failed proof (R552, R553). -/
def Dev.proofFails (d : Dev) : Dev :=
  let n := d.field.fails + 1
  let d := (d.onField fun l =>
    { l with fails := n, authFails := satInc 16 l.authFails,
             lockAt := if n = 4 && d.mainPower then some (d.clk + secs 10) else l.lockAt }).fieldErr 3
  let d := if d.mainPower then d.logEvent 0x100 1 [5#8, 1#8, u8 n] else d.onFieldMem fun m => { m with failed := satInc 16 m.failed }
  d.sessionDone (some 3) .quiet

/-- PROVE (R552); expiry of the auth window wins. The Bool says that the proof is good. -/
def Dev.tagProve (d : Dev) (mr : List Byte) (crcOk : Bool) : Bool × Dev :=
  match d.field.sess with
  | none => (false, d)
  | some s =>
    let late := match s.authAt with | some t => d.due t | none => true
    let good := !late && mr == s.mr
    let d' := d.tagCommand crcOk (fun s => s == .auth) fun d =>
      if good then
        (d.onField fun l => { l with tag := .open_, fails := 0, sess := l.sess.map fun s => { s with authAt := none } }).fieldReply [0#8]
      else (d.fieldReply [1#8]).proofFails
    (good && d'.field.tag == .open_ && d.field.tag == .auth, d')

/-- READ (R554). -/
def Dev.tagRead (d : Dev) (block : Nat) (crcOk : Bool) : Dev :=
  d.tagCommand crcOk (fun s => s == .open_ && decide (block < 64)) fun d =>
    match d.field.sess with
    | none => d
    | some s =>
      let page := (d.field.mem.bank s.bank).page
      let ct := fitBytes 64 (Config.aesCtr s.kEnc ([u8 block] ++ zeros 15) (bytesAt page (64 * block) 64))
      let mac := (cmac s.kMac ([u8 block] ++ le 4 s.commitSeq ++ ct)).take 8
      (d.onField fun l => { l with sess := some { s with blocks := s.blocks + 1, idleAt := d.clk + ms 50 } }).fieldReply ([u8 block] ++ ct ++ mac)

/-- PAIR: a VTZ tag does not support it (R547). -/
def Dev.tagPair (d : Dev) (crcOk : Bool) : Dev := d.tagCommand crcOk (fun s => s == .open_) fun d => d.fieldReply [4#8]

/-- The tag's timers (R564): inactivity, the auth window and the lockout. -/
def Dev.sessionIdle (d : Dev) : Dev :=
  match d.field.sess with
  | some s => if d.past s.idleAt then d.sessionDone (some 1) .quiet else d
  | none => d
def Dev.authWindow (d : Dev) : Dev :=
  match d.field.sess.bind fun s => s.authAt with
  | some t => if d.field.tag = .auth && d.due t then d.proofFails else d
  | none => d
def Dev.fieldUnlock (d : Dev) : Dev :=
  match d.field.lockAt with
  | some t => if d.due t then d.onField fun l => { l with lockAt := none } else d
  | none => d

/-- FLD_KEY_CTRL.GO and CLEAR (R551). -/
def Dev.setFieldKey (d : Dev) (i : Nat) (k : FieldKey) : Dev :=
  d.onFieldMem fun m => if i = 0 then { m with key0 := k } else { m with key1 := k }
def Dev.fieldKeySet (d : Dev) (slot keyId entry : Nat) : Dev :=
  d.onField fun l => { l with keySlot := slot % 2048, keyId := keyId, keyEntry := entry % 2 }
def Dev.fieldKeyLoad (d : Dev) : Dev :=
  let n := d.field.keySlot
  let k := d.keySlot n
  if decide (n < 1024) && attrAlg k.attr == 1 && attrUse k.attr == 4 && attrClass k.attr == 7 && owns 0 (attrOwner k.attr)
      && lcAdmits (attrLc k.attr) d.life.st then
    d.setFieldKey d.field.keyEntry
      { key := shake (ascii "QFLK" ++ k.key ++ [u8 d.field.keyId]) 32, keyId := d.field.keyId, valid := true }
  else d.fieldErr 2
def Dev.fieldKeyClear (d : Dev) : Dev := d.setFieldKey d.field.keyEntry {}

/-- A main power-up finds the counts of FIELD (R553, R559). -/
def Dev.fieldPowerUp (d : Dev) : Dev :=
  let m := d.field.mem
  let d := if m.failed = 0 then d else d.logEvent 0x100 1 [5#8, 1#8, u8 (Nat.min m.failed 255)]
  (d.onField fun l => { l with sessions := Nat.min 0xFFFF (l.sessions + m.sessions) }).onFieldMem fun m => { m with failed := 0, sessions := 0 }

/-! ### Reader mode -/

/-- Reader mode may run (R561). -/
def Dev.readerMay (d : Dev) : Bool :=
  (d.setting 0x70).testBit 0 && (d.power.mode = .idle || d.power.mode = .record || d.power.mode = .ingest) && d.field.sess.isNone

/-- A search ends and is answered with what it found (R329). -/
def Dev.readerAnswer (d : Dev) (r : ReaderOp) : Dev :=
  let d := d.onField fun l => { l with reader := none }
  if r.found.isEmpty then d.refuse r.port r.slot .noTag
  else d.reply r.port r.slot .ok (le 4 r.found.length ++ zeros 4 ++ r.found.flatMap (le 8))

/-- Reader mode ends, and with it a search under way. -/
def Dev.readerOff (d : Dev) : Dev :=
  let d := d.onField fun l => { l with readerEn := false }
  match d.field.reader with
  | some r => d.readerAnswer r
  | none => d

/-- FLD_CTRL.READER_EN (R561, R565). -/
def Dev.readerEnable (d : Dev) (on : Bool) : Dev :=
  if on then (if d.readerMay then (d.onField fun l => { l with readerEn := true }).tagSettle else d.fieldErr 0)
  else d.readerOff

/-- A number as `n` bits, bit 0 first. -/
def numBits (n v : Nat) : List Bool := (List.range n).map fun i => v.testBit i
def bitsNum : List Bool → Nat
  | [] => 0
  | b :: bs => b2n b + 2 * bitsNum bs

/-- The reader sends a command: code and fields (R547). -/
def Dev.readerSend (d : Dev) (code : Nat) (fields : List Bool) : Dev := d.send (.readerSend (withCrc (numBits 8 code ++ fields)))

/-- The next WALK of a search, while tags are wanted and time remains; with nothing left to walk a new round begins (R550, R561). -/
def Dev.readerWalk (d : Dev) (r : ReaderOp) : Dev :=
  if r.maxTags ≤ r.found.length || d.past r.until_ then d.onField fun l => { l with reader := some { r with replyAt := none } }
  else
    let d := if r.stack.isEmpty then d.readerSend 1 [] else d
    let stack := if r.stack.isEmpty then [[]] else r.stack
    let p := stack.headD []
    (d.readerSend 2 (numBits 7 p.length ++ p)).onField fun l =>
      { l with reader := some { r with stack := stack, replyAt := some (d.clk + 64000) } }

/-- The reader judges the reply to the WALK of the first prefix: the identifier bits received before any collision, and
whether the rest came without collision and with a good CRC (R550). -/
def Dev.readerJudge (d : Dev) (r : ReaderOp) (reply : List Bool × Bool) : ReaderOp × Dev :=
  match r.stack with
  | [] => (r, d)
  | p :: rest =>
    let q := (p ++ reply.1).take 64
    if q.length < 64 then ({ r with stack := (q ++ [false]) :: (q ++ [true]) :: rest }, d)
    else
      let id := bitsNum q
      if reply.2 then
        ({ r with stack := rest, found := if r.found.contains id then r.found else r.found ++ [id] }, d.readerSend 5 q)
      else
        let n := ((r.reshuffled.find? fun x => x.1 == id).map Prod.snd).getD 0
        if n < 3 then
          ({ r with stack := p :: rest, reshuffled := (id, n + 1) :: r.reshuffled.filter fun x => x.1 != id }, d.readerSend 4 q)
        else ({ r with stack := rest }, d)

/-- Replies to successive WALKs. -/
def Dev.readerRun (d : Dev) : List (List Bool × Bool) → Dev
  | [] => d
  | x :: xs =>
    match d.field.reader with
    | some r =>
      if r.replyAt.isSome && !d.past r.until_ then
        let j := d.readerJudge r x
        (j.2.readerWalk j.1).readerRun xs
      else d
    | none => d

/-- A search begins with its first round: BEGIN and the first WALK (R550). -/
def Dev.readerStart (d : Dev) (r : ReaderOp) (replies : List (List Bool × Bool)) : Dev :=
  (d.readerWalk r).readerRun replies

/-- READER_REPLY_WINDOW_EXPIRY: silence (R541, R550). -/
def Dev.readerSilence (d : Dev) (replies : List (List Bool × Bool)) : Dev :=
  match d.field.reader with
  | some r =>
    match r.replyAt with
    | some t => if d.past t then (d.readerWalk { r with stack := r.stack.drop 1 }).readerRun replies else d
    | none => d
  | none => d

/-- FIELD_INVENTORY_DURATION_EXPIRY, and the answer (R329, R550). -/
def Dev.readerEnd (d : Dev) : Dev :=
  match d.field.reader with
  | some r =>
    if d.past r.until_ then
      (d.onField fun l => { l with readerEn := l.readerEn && !r.own }).readerAnswer r
    else d
  | none => d

/-- Reader mode at the stop edge of a close, where no response is written any more, and at entry to STANDBY (R561). -/
def Dev.readerStop (d : Dev) : Dev := d.readerOff.tagSettle

end Sys2Proof.Machine
end

