-- ==== Sys2Proof/Machine/FlashOps.lean ====
section
/-! DEFINITION. Code flash: layout, accesses, descriptors, banks at work, boot and settings images (R512 to R534). -/
namespace Sys2Proof.Machine

/-- Change the CFL_ block, and a bank of it. -/
def Dev.onFlash (d : Dev) (f : CodeFlash → CodeFlash) : Dev := { d with flash := f d.flash }
def CodeFlash.bank (c : CodeFlash) (b : Nat) : Bank := if b = 0 then c.bank0 else c.bank1
def Dev.onBank (d : Dev) (b : Nat) (f : Bank → Bank) : Dev :=
  d.onFlash fun c => if b = 0 then { c with bank0 := f c.bank0 } else { c with bank1 := f c.bank1 }
def Dev.flashErr (d : Dev) (n : Nat) : Dev := d.onFlash fun c => { c with err := setBit c.err n }

/-- The staging bank (R514). -/
def CodeFlash.staging (c : CodeFlash) : Nat := 1 - c.runBank

/-- What an erased word reads as. -/
def erasedWord (_ : Nat) : W48 := BitVec.allOnes 48

/-- The place of a word of a bank in the memory of both. -/
def flashAt (b off : Nat) : Nat := b * 2097152 + off

/-- Words of a bank from an offset on. -/
def CodeFlash.words (c : CodeFlash) (b off n : Nat) : List W48 := spGetAll erasedWord c.mem (flashAt b off) n

/-- The parameter range, and the activation row (R512, R517). -/
def isParam (off : Nat) : Bool := decide (0x4000 ≤ off) && decide (off < 0x8000)
def actRow : Nat := 16376

/-- First word and length of the sector, or of the boot block, that holds an offset (R512). -/
def sectorOf (off : Nat) : Nat × Nat :=
  if off < 0x4000 then (0, 0x4000)
  else if off < 0x8000 then (off / 0x400 * 0x400, 0x400)
  else (off / 0x8000 * 0x8000, 0x8000)

/-- A word is the production image's; what it holds is not part of the model. -/
def Bank.made (k : Bank) (off : Nat) : Bool := k.factory && !isParam off && !k.erased.contains (sectorOf off).1

/-- A row reads as neither erased nor valid (R523, R528). -/
def Bank.spoilt (k : Bank) (row : Nat) : Bool := k.bad.contains row || k.torn.contains (sectorOf row).1

/-- A row reads erased (R522, check 8). -/
def CodeFlash.rowErased (c : CodeFlash) (b row : Nat) : Bool :=
  !(c.bank b).spoilt row && !(c.bank b).made row && (c.words b row 8).all fun w => w == BitVec.allOnes 48

/-- The row of a bank as a READ returns it; a spoilt row, and one of the production image, gives a free value. -/
def Dev.flashRow (d : Dev) (b row : Nat) : List W48 × Dev :=
  if (d.flash.bank b).spoilt row || (d.flash.bank b).made row then
    let r := d.draw 48
    (packWords r.1, r.2)
  else (d.flash.words b row 8, d)

/-- The sector of an erase in progress or suspended in a bank. -/
def Bank.erasing (k : Bank) : Option Nat :=
  match k.job with
  | some j => if j.op = 3 then some (sectorOf j.offset).1 else none
  | none => none

/-- How an access to code flash goes: it is served, it stalls, or it raises a bus error (R514, R525 to R527). -/
inductive FlashAns where
  | served | stall | device | suspended
  deriving DecidableEq, Repr

/-- A read of another sector reaches a bank whose erase runs or is suspended (R526). -/
def Bank.suspend (k : Bank) (clk : Nat) : Option Bank :=
  match k.st with
  | .erase => if k.susp < 8 then some { k with st := .suspended, susp := k.susp + 1, quietAt := some (clk + 2000) } else none
  | .suspended => some { k with quietAt := some (clk + 2000) }
  | _ => none

/-- A read of a bank's line (R525 to R527). -/
def Dev.flashRead (d : Dev) (b off : Nat) : FlashAns × Dev :=
  let k := d.flash.bank b
  if k.erasing = some (sectorOf off).1 then (.suspended, d)
  else
    match k.st with
    | .idle => (.served, d)
    | .program => (.stall, d)
    | .eraseFinal =>
      match k.job with
      | some j =>
        if j.done = 0 then
          (.stall, (d.onFlash fun c => { c with stalls := satInc 32 c.stalls }).onBank b fun k => { k with job := some { j with done := 1 } })
        else (.stall, d)
      | none => (.stall, d)
    | _ =>
      match k.suspend d.clk with
      | some k' => (.served, d.onBank b fun _ => k')
      | none => (.stall, d)

/-- A fetch or ILD of an address of a bank window (R514, R515): a line in the prefetch buffer or the branch cache is not
read again. `target` is the address of a taken branch that the fetch serves, for the branch cache. -/
def Dev.flashFetch (d : Dev) (b off : Nat) (fetch branch : Bool) : FlashAns × Dev :=
  if isParam off then (.device, d)
  else
    let line := off / 8
    let hit := fetch && ((d.flash.pfEn && d.flash.prefetch.contains line) || (d.flash.bcEn && d.flash.branches.contains off))
    if hit && (d.flash.bank b).erasing ≠ some (sectorOf off).1 then (.served, d)
    else
      let r := d.flashRead b off
      if r.1 = .served && fetch then
        (.served, r.2.onFlash fun c =>
          { c with prefetch := if c.pfEn then [line, line + 1, line + 2, line + 3] else [],
                   branches := if c.bcEn && branch then (off :: c.branches.filter fun x => x != off).take 32 else c.branches })
      else r

/-- SYNCI and a write of CFL_FCTRL discard the prefetch buffer and the branch cache (R516). -/
def Dev.flashDiscard (d : Dev) : Dev := d.onFlash fun c => { c with prefetch := [], branches := [] }

/-- The 2 µs of quiet have passed: the erase resumes; arrival wins (R526, R535). -/
def Dev.eraseResume (d : Dev) (b : Nat) : Dev :=
  d.onBank b fun k =>
    match k.st, k.quietAt with
    | .suspended, some t =>
      if d.past t then { k with st := if k.susp = 8 then .eraseFinal else .erase, quietAt := none } else k
    | _, _ => k

/-- An idle bank takes its next work (R524). -/
def Bank.next (k : Bank) : Bank :=
  match k.job, k.queue with
  | none, j :: rest => { k with st := if j.op = 3 then .erase else .program, susp := 0, job := some j, queue := rest }
  | _, _ => k

/-- Work is given to a bank. -/
def Dev.flashSubmit (d : Dev) (j : CflJob) : Dev := d.onBank j.bank fun k => { k with queue := k.queue ++ [j] }.next

/-- Jobs of the descriptor queue that are not complete. -/
def CodeFlash.outstanding (c : CodeFlash) : Nat :=
  let n := fun (k : Bank) => (k.job.toList ++ k.queue).countP fun j => decide (j.tag < 65536)
  n c.bank0 + n c.bank1

/-- A completion of two words (R523). -/
def Dev.cflComplete (d : Dev) (tag status done : Nat) (irq : Bool) : Dev :=
  let c := d.flash
  let at_ := c.cqBase + c.cqTail % 2 ^ c.sizeLog2 * 2
  let w0 := tag % 65536 + (status % 4096) <<< 16 + phaseOf c.cqTail c.sizeLog2 <<< 28
  let d := d.onCore 0 fun k => { k with dmem := spSetAll zeroWord k.dmem at_ [BitVec.ofNat 48 w0, BitVec.ofNat 48 done] }
  d.onFlash fun c => { c with cqTail := idxAdd c.cqTail 1, irq := c.irq || irq }

/-- A job ends: its completion, or for Sharnolos's own work its tag and status. -/
def Dev.flashJobEnd (d : Dev) (j : CflJob) (st : Status) (done : Nat) : Option (Nat × Status) × Dev :=
  let d := d.onBank j.bank fun k => { k with job := none, st := .idle, susp := 0, quietAt := none }.next
  if j.tag < 65536 then (none, d.cflComplete j.tag st.code done j.irq) else (some (j.tag, st), d)

/-- ACT_SEQ of a valid activation row (R517). -/
def actSeq (ws : List W48) : Option Nat :=
  let bs := unpackWords 48 ws
  let seq := numAt bs 0 6
  if ws.length = 8 && decide (1 ≤ seq) && decide (seq ≤ 2 ^ 48 - 2) && numAt bs 6 6 == 0x54434151 && numAt bs 13 5 == 0
      && bytesAt bs 18 24 == zeros 24 && numAt bs 46 2 == 0 && crc32 (bs.take 42) == numAt bs 42 4 then some seq
  else none

/-- The activation row of a bank is looked at anew. -/
def Dev.readAct (d : Dev) (b : Nat) : Dev :=
  let seq := if (d.flash.bank b).spoilt actRow then none else actSeq (d.flash.words b actRow 8)
  d.onBank b fun k => { k with act := seq }

/-- CFL_ROW_PROGRAMMED: the next row of a bank's program is programmed, or fails (R523). -/
def Dev.flashRowDone (d : Dev) (b : Nat) (ok : Bool) : Option (Nat × Status) × Dev :=
  match (d.flash.bank b).job with
  | none => (none, d)
  | some j =>
    if (d.flash.bank b).st ≠ .program then (none, d)
    else
      let row := j.offset + 8 * j.done
      if ok then
        let ws := (j.data.drop (8 * j.done)).take 8
        let d := d.onFlash fun c => { c with mem := spSetAll erasedWord c.mem (flashAt b row) ws }
        let d := if row = actRow then d.readAct b else d
        if j.done + 1 < j.count then (none, d.onBank b fun k => { k with job := some { j with done := j.done + 1 } })
        else d.flashJobEnd j .ok (j.done + 1)
      else
        let d := (d.flashErr 2).onBank b fun k => { k with bad := k.bad ++ [row] }
        d.flashJobEnd j .programFail j.done

/-- A sector or a boot block is erased. -/
def Dev.eraseSector (d : Dev) (b off : Nat) : Dev :=
  let s := sectorOf off
  let d := d.onFlash fun c => { c with mem := spClear (flashAt b s.1) (flashAt b (s.1 + s.2)) c.mem }
  let gone := fun r : Nat => decide (s.1 ≤ r) && decide (r < s.1 + s.2)
  let d := d.onBank b fun k =>
    { k with bad := k.bad.filter (fun r => !gone r), torn := k.torn.filter (fun r => !gone r),
             erased := if k.made s.1 then s.1 :: k.erased else k.erased }
  if s.1 = 0 then d.onBank b fun k => { k with act := none } else d

/-- CFL_ERASE_DONE: a bank's erase completes, or fails (R523). -/
def Dev.flashEraseDone (d : Dev) (b : Nat) (ok : Bool) : Option (Nat × Status) × Dev :=
  match (d.flash.bank b).job with
  | none => (none, d)
  | some j =>
    if (d.flash.bank b).st ≠ .erase && (d.flash.bank b).st ≠ .eraseFinal then (none, d)
    else if ok then (d.eraseSector b j.offset).flashJobEnd j .ok 1
    else ((d.flashErr 3).onBank b fun k => { k with torn := k.torn ++ [(sectorOf j.offset).1] }).flashJobEnd j .eraseFail 0

/-- Work of a tag is still to do in a bank. -/
def CodeFlash.pendingTag (c : CodeFlash) (tag : Nat) : Bool :=
  let n := fun (k : Bank) => (k.job.toList ++ k.queue).any fun j => j.tag == tag
  n c.bank0 || n c.bank1

/-- What waits of a tag is given up. -/
def Dev.flashDrop (d : Dev) (tag : Nat) : Dev :=
  let g := fun (k : Bank) => { k with queue := k.queue.filter fun j => j.tag != tag }
  (d.onBank 0 g).onBank 1 g

/-- The sector or boot block that holds an offset is wholly erased. -/
def CodeFlash.sectorErased (c : CodeFlash) (b off : Nat) : Bool :=
  let s := sectorOf off
  let k := c.bank b
  !k.made s.1 && !k.torn.contains s.1 && !(k.bad.any fun r => decide (s.1 ≤ r) && decide (r < s.1 + s.2))
    && !(c.mem.any fun e => decide (flashAt b s.1 ≤ e.1) && decide (e.1 < flashAt b (s.1 + s.2)))

/-- Every program and erase is aborted, at a stop edge or for want of power (R528). -/
def Dev.flashAbort (d : Dev) : Dev :=
  let busy := d.flash.bank0.job.isSome || d.flash.bank1.job.isSome
  let stop := fun (k : Bank) =>
    let k := match k.job with
      | some j =>
        if j.op = 3 then { k with torn := k.torn ++ [(sectorOf j.offset).1] }
        else { k with bad := k.bad ++ [j.offset + 8 * j.done] }
      | none => k
    { k with st := .idle, susp := 0, quietAt := none, job := none, queue := [] }
  let d := (d.onBank 0 stop).onBank 1 stop
  if busy then d.flashErr 4 else d

/-- The descriptor at the head of the submission queue (R521). -/
def Dev.cflWords (d : Dev) : List Nat :=
  let c := d.flash
  (spGetAll zeroWord (d.core 0).dmem (c.sqBase + c.sqHead % 2 ^ c.sizeLog2 * 4) 4).map BitVec.toNat

/-- A word of it. -/
def wordOf (ws : List Nat) (i : Nat) : Nat := ws.getD i 0

/-- A descriptor waits, and its completion slot is free (R520). -/
def Dev.cflReady (d : Dev) : Bool :=
  let c := d.flash
  c.en && c.sqTail != c.sqHead && decide (idxDiff c.cqTail c.cqHead + c.outstanding < 2 ^ c.sizeLog2)

/-- A write of CFL_SQ_TAIL (R520). -/
def Dev.cflDoorbell (d : Dev) (v : Nat) : Dev :=
  let c := d.flash
  let t := v % 2 ^ 32
  if 2 ^ c.sizeLog2 < idxDiff t c.sqHead || idxDiff t c.sqHead < idxDiff c.sqTail c.sqHead then d.flashErr 1
  else d.onFlash fun c => { c with sqTail := t }

/-- Reserved bits are zero, and so are the fields that an operation does not use (R521, R522). -/
def cflReservedOk (w : List Nat) : Bool :=
  let op := wordOf w 0 % 256
  let w1 := wordOf w 1
  wordOf w 0 >>> 9 % 128 == 0 && decide (wordOf w 0 < 2 ^ 32) && w1 >>> 22 % 4 == 0 && decide (w1 < 2 ^ 32)
    && decide (wordOf w 2 < 2 ^ 32) && decide (wordOf w 3 < 4) && (op == 5 || wordOf w 3 == 0)
    && (op != 5 || (w1 == 0 && wordOf w 2 == 0)) && (op != 3 || wordOf w 2 == 0)

/-- A region permits an operation on a row (R521). -/
def CodeFlash.permits (c : CodeFlash) (op b row : Nat) : Bool :=
  let setting := b == 0 && decide (0x4000 ≤ row) && decide (row < 0x7000)
  let staged := b == c.staging && !isParam row
  match op with
  | 1 => !isParam row || setting
  | 2 => (staged && row != actRow) || setting
  | 3 => staged || setting
  | _ => staged && row == actRow

/-- Descriptor checks of the operations other than RDP (R522). -/
def Dev.cflCheck (d : Dev) (w : List Nat) : Option Status :=
  let op := wordOf w 0 % 256
  let off := wordOf w 1 % 2097152
  let b := wordOf w 1 >>> 21 % 2
  let n := wordOf w 1 >>> 24 % 256
  let addr := wordOf w 2
  let rows := (List.range n).map fun i => off + 8 * i
  let sec := sectorOf off
  let inSec := decide (off + 8 * n ≤ sec.1 + sec.2)
  let k := d.flash.bank b
  let busy := (k.job.toList ++ k.queue).any fun j => j.op == 3 && (sectorOf j.offset).1 == sec.1
  if op = 0 || 5 < op then some .badDescType
  else if !cflReservedOk w then some .badDesc
  else if op = 5 then none
  else if off % 8 ≠ 0 || (op = 3 && off ≠ sec.1) then some .badAddr
  else if !(d.flash.permits op b off && (n == 0 || !inSec || rows.all fun r => op == 3 || d.flash.permits op b r)) then
    some .regionDenied
  else if n = 0 then some .badLength
  else if 128 < n || !inSec || ((op = 3 || op = 4) && n ≠ 1) then some .lenTooLarge
  else if op ≠ 3 && 262144 < addr + 8 * n then some .badAddr
  else if (op = 2 || op = 4) && !rows.all fun r => d.flash.rowErased b r then some .pageOrder
  else if busy then some .blockBusy
  else none

/-- Rows of a READ. -/
def Dev.flashRows (d : Dev) (b off : Nat) : Nat → List W48 × Dev
  | 0 => ([], d)
  | n + 1 =>
    let r := d.flashRow b off
    let rest := r.2.flashRows b (off + 8) n
    (r.1 ++ rest.1, rest.2)

/-- The descriptor is consumed. -/
def Dev.cflTake (d : Dev) : Dev := d.onFlash fun c => { c with sqHead := idxAdd c.sqHead 1 }

/-- The descriptor of one operation at the head of the queue is executed; the row of READ also answers unlisted codes.
RDP is apart. -/
def Dev.cflExec (d : Dev) (op : Nat) : Dev :=
  let w := d.cflWords
  let code := wordOf w 0 % 256
  let mine := code == op || (op == 1 && (code == 0 || decide (5 < code)))
  if !d.cflReady || !mine || d.power.mode = .close then d
  else
    let tag := wordOf w 0 >>> 16 % 65536
    let irq := (wordOf w 0).testBit 8
    let off := wordOf w 1 % 2097152
    let b := wordOf w 1 >>> 21 % 2
    let n := wordOf w 1 >>> 24 % 256
    match d.cflCheck w with
    | some st => d.cflTake.cflComplete tag st.code 0 irq
    | none =>
      if op = 1 then
        let a := d.flashRead b off
        if a.1 = .served then
          let r := a.2.flashRows b off n
          let d := r.2.onCore 0 fun k => { k with dmem := spSetAll zeroWord k.dmem (wordOf w 2) r.1 }
          d.cflTake.cflComplete tag 0 n irq
        else a.2
      else
        let data := if op = 3 then [] else spGetAll zeroWord (d.core 0).dmem (wordOf w 2) (8 * n)
        d.cflTake.flashSubmit { op := op, tag := tag, irq := irq, bank := b, offset := off, count := n, data := data }

/-- The read-out protection level (R529). -/
def CodeFlash.level (c : CodeFlash) : Nat := if c.locked then 2 else c.seals % 2

/-- RDP checks (R530). -/
def Dev.rdpCheck (d : Dev) (level : Nat) : Option Status :=
  let c := d.flash
  if 2 < level then some .badField
  else if c.locked || level = c.level || (level < c.level && d.dbg.level ≠ .full) then some .lcPrecond
  else if level ≠ 2 && 32 ≤ c.seals then some .counterExhausted
  else if level < c.level && 16 ≤ c.wipes then some .counterExhausted
  else none

/-- A change of the level, without what a lowering destroys (R530, R531). -/
def Dev.rdpSet (d : Dev) (level : Nat) : Dev :=
  d.onFlash fun c => if level = 2 then { c with locked := true } else { c with seals := c.seals + 1 }

/-- The manifest in a boot block (R366, R517), and the image behind it. -/
def CodeFlash.manifest (c : CodeFlash) (b : Nat) : List Byte :=
  if (c.bank b).made 0 then fitBytes 3248 Config.factoryManifest else unpackWords 3248 (c.words b 15834 542)
def CodeFlash.image (c : CodeFlash) (b : Nat) : List Byte :=
  let n := numAt (c.manifest b) 0x10 4
  unpackWords (n * 6) (c.words b 0x8000 n)

/-- The words of the active boot block that are measured (R368, R517). -/
def CodeFlash.bootBytes (c : CodeFlash) (b : Nat) : List Byte :=
  if (c.bank b).made 0 then Config.factoryBoot else unpackWords 98256 (c.words b 0 16376)

/-- The measurement of the firmware in a bank (R368). -/
def CodeFlash.measure (c : CodeFlash) (b : Nat) : List Byte :=
  let x := shake (ascii "QMC0" ++ fitBytes 64 Config.romDigest) 64
  let x := shake (x ++ shake (c.bootBytes b) 64) 64
  shake (x ++ shake (c.manifest b) 64) 64

/-- A firmware image satisfies R367: signer, signature and digest. The factory image does as final test left it: its bytes
are not part of the model. DESIGN CHOICE (log entry 98). -/
def Dev.imageGood (d : Dev) (b : Nat) : Bool :=
  let m := d.flash.manifest b
  ((d.flash.bank b).factory && (d.flash.bank b).erased.isEmpty)
    || (manifestOk 1 m && Config.fwSigners.contains (bytesAt m 0x60 64) && imageOk m (d.flash.image b))

/-- Its security version is at least the firmware minimum (R367); a minimum of 0 admits every version. -/
def Dev.imageNew (d : Dev) (b : Nat) : Bool :=
  d.keys.meas.fwMin == 0 || decide (d.keys.meas.fwMin ≤ numAt (d.flash.manifest b) 0xC 1)

/-- The bank that the ROM would hand over to, and whether it is the fallback (R518). -/
def Dev.bootBank (d : Dev) : Option (Nat × Bool) :=
  let seq := fun b => (d.flash.bank b).act.getD 0
  let valid := fun b => (d.flash.bank b).act.isSome
  let good := fun b => valid b && d.imageGood b && d.imageNew b
  let first := if !valid 1 || (valid 0 && seq 1 ≤ seq 0) then 0 else 1
  if good first then some (first, false)
  else if good (1 - first) then some (1 - first, valid first)
  else none

/-- CFL_STATUS.NEXT_BANK (R518, R519). -/
def CodeFlash.nextBank (c : CodeFlash) : Nat :=
  if c.bank0.act.isNone && c.bank1.act.isNone then c.runBank
  else if c.bank1.act.isNone || (c.bank0.act.isSome && c.bank1.act.getD 0 ≤ c.bank0.act.getD 0) then 0 else 1

/-- The wipe that a lowering left pending: both boot blocks and every main sector (R531). -/
def Dev.flashWipe (d : Dev) : Dev :=
  if d.flash.wipes < d.flash.seals / 2 then
    let keep := fun (e : Nat × W48) => isParam (e.1 % 2097152)
    let d := d.onFlash fun c => { c with mem := c.mem.filter keep, wipes := c.wipes + 1 }
    let clean := fun (k : Bank) =>
      { k with act := none, factory := false, erased := [], bad := k.bad.filter isParam, torn := k.torn.filter isParam }
    (d.onBank 0 clean).onBank 1 clean
  else d

/-- A settings body: every setting in ascending id (R532). -/
def settingsBody (vals : Sparse (List Byte)) : List Byte :=
  settingIds.flatMap fun id => let v := spGet settingDefault vals id; le 2 id ++ le 2 v.length ++ v

/-- A commit row (R532). -/
def commitRow (gen : Nat) (body : List Byte) : List Byte :=
  ascii "QSCM" ++ [1#8, 0#8, 0#8, 0#8] ++ le 4 gen ++ le 4 body.length ++ shake body 32

/-- The parameter sector of a settings generation (R532). -/
def settingsSector (gen : Nat) : Nat := 0x4000 + gen % 12 * 0x400

/-- The entries of a settings body; the fuel is its length. -/
def parseSettings : Nat → List Byte → Sparse (List Byte) → Sparse (List Byte)
  | 0, _, m => m
  | n + 1, bs, m =>
    if bs.length < 4 then m
    else
      let id := numAt bs 0 2
      let size := numAt bs 2 2
      let v := (bs.drop 4).take size
      let ok := match settingInfo id with | some i => i.2.1 == v.length | none => false
      parseSettings n (bs.drop (4 + size)) (if ok then spSet settingDefault m id v else m)

/-- Generation and values of the image in a parameter sector, if it is valid (R532). -/
def CodeFlash.settingsImage (c : CodeFlash) (sector : Nat) : Option (Nat × Sparse (List Byte)) :=
  let row := unpackWords 48 (c.words 0 sector 8)
  let len := numAt row 0xC 4
  if row.take 4 == ascii "QSCM" && numAt row 4 1 == 1 && numAt row 5 3 == 0 && numAt row 8 4 != 0 && inRange 4 6096 len
      && !c.bank0.spoilt sector then
    let body := unpackWords len (c.words 0 (sector + 8) (ceilDiv len 6))
    if shake body 32 == bytesAt row 0x10 32 then some (numAt row 8 4, parseSettings len body []) else none
  else none

/-- The valid image with the highest generation (R533). -/
def CodeFlash.settings (c : CodeFlash) : Option (Nat × Sparse (List Byte)) :=
  (List.range 12).foldl (fun (a : Option (Nat × Sparse (List Byte))) i =>
    match c.settingsImage (0x4000 + i * 0x400), a with
    | some x, some y => if y.1 < x.1 then some x else some y
    | some x, none => some x
    | none, y => y) none

/-- The settings load at main power-up (R533). -/
def Dev.loadSettings (d : Dev) : Dev :=
  match d.flash.settings with
  | some (g, v) => { d with settings := { vals := v, generation := g, defaulted := false, shadow := none } }
  | none => { d with settings := {} }

end Sys2Proof.Machine
end

