-- ==== Sys2Proof/Machine/DescOps.lean ====
section
/-! DEFINITION. The descriptor queue of the sealed store: descriptors, their checks, execution and completions
(R197 to R202). -/
namespace Sys2Proof.Machine

/-- Change the descriptor queue. -/
def Dev.onStoreQueue (d : Dev) (f : StoreQueue → StoreQueue) : Dev := d.onStore fun s => { s with queue := f s.queue }

/-- STOR_SQ_TAIL (R197). -/
def Dev.storeDoorbell (d : Dev) (tail : Nat) : Dev :=
  let q := d.store.queue
  if idxDiff tail q.sqHead ≤ 2 ^ q.sizeLog2 then d.onStoreQueue fun q => { q with sqTail := tail % 2 ^ 32 } else d.storeErr 1

/-- The eight words of the descriptor at the head of the submission queue (R198). -/
def Dev.storeDescWords (d : Dev) : List W48 :=
  let q := d.store.queue
  spGetAll zeroWord (d.core 0).dmem (q.sqBase + q.sqHead % 2 ^ q.sizeLog2 * 8) 8

/-- Bits of a word of a descriptor. -/
def wordBits (ws : List W48) (i lo w : Nat) : Nat := ((ws.getD i 0#48).toNat >>> lo) % 2 ^ w

/-- The fields of a descriptor (R198). -/
def parseStoreOp (ws : List W48) : StoreOp :=
  { op := wordBits ws 0 0 8, host := wordBits ws 0 8 1 == 1, port := wordBits ws 0 9 1, irq := wordBits ws 0 10 1 == 1,
    tag := wordBits ws 0 16 16, block := wordBits ws 1 0 14, page := wordBits ws 1 14 10, count := wordBits ws 1 24 11,
    addr := wordBits ws 2 0 48 + wordBits ws 3 0 16 * 2 ^ 48, bytes := wordBits ws 4 0 24,
    seqFirst := wordBits ws 5 0 48, seqLast := wordBits ws 6 0 48 }

/-- Reserved bits of a descriptor are zero. -/
def storeReserved (ws : List W48) : Bool :=
  wordBits ws 0 11 5 == 0 && wordBits ws 0 32 16 == 0 && wordBits ws 1 35 13 == 0 && wordBits ws 3 16 32 == 0
    && wordBits ws 4 24 24 == 0 && wordBits ws 7 0 48 == 0

/-- Fields that the operation does not use are zero, and a D-space address has no high part (R198, R200). -/
def StoreOp.unusedZero (o : StoreOp) : Bool :=
  let data := o.op == 1 || o.op == 2 || o.op == 4
  let blocks := o.op == 1 || o.op == 2 || o.op == 3
  let spans := o.op == 1 || o.op == 2
  let pins := o.op == 5 || o.op == 6
  (data || (!o.host && o.port == 0 && o.addr == 0)) && (blocks || o.block == 0) && (spans || (o.page == 0 && o.count == 0))
    && (o.op == 4 || o.bytes == 0) && (pins || (o.seqFirst == 0 && o.seqLast == 0)) && (o.host || decide (o.addr < 2 ^ 48))

/-- Bytes that an operation moves. -/
def StoreOp.span (o : StoreOp) : Nat := if o.op = 4 then o.bytes else o.count * pageBytes

/-- The region of a block permits the operation; a close reserve that is being written or not reconciled is read from M
alone (R199, R203). -/
def Dev.regionPermits (d : Dev) (o : StoreOp) (machine : Bool) : Bool :=
  let r := (d.blk o.block).region
  let own := r = .closeReserve || r = .journal || r = .eventLog
  match o.op with
  | 1 => decide (r ≠ .spare) && decide (r ≠ .retired)
      && (machine || !(decide (r = .closeReserve) && (decide (d.store.st = .close) || !d.store.reserve.stored.isEmpty)))
  | 2 => own
  | 3 => own
  | _ => true

/-- Container blocks whose container lies in the range of a PIN or UNPIN. -/
def Dev.inSeqs (d : Dev) (o : StoreOp) : List Nat :=
  (d.containers.filter fun b => decide (o.seqFirst ≤ b.2.seq) && decide (b.2.seq ≤ o.seqLast)).map Prod.fst

/-- A block that an ERASE may not take (R200). -/
def Dev.eraseBusy (d : Dev) (b : Nat) : Bool :=
  let k := d.blk b
  decide (0 < k.holds) || decide (0 < k.readPins) || k.inClose || k.erasing
    || !(d.liveOf b d.store.journal.records [] d.store.journal.records).isEmpty

/-- The checks of a descriptor, in order (R200). -/
def Dev.storeCheck (d : Dev) (ws : List W48) (machine : Bool) : Option Status :=
  let o := parseStoreOp ws
  let k := d.blk o.block
  let blocks := o.op == 1 || o.op == 2 || o.op == 3
  let spans := o.op == 1 || o.op == 2
  let data := spans || o.op == 4
  firstBad
    [(!inRange 1 6 o.op, .badDescType),
     (!storeReserved ws || !o.unusedZero, .badDesc),
     (blocks && decide (d.variant.blocks ≤ o.block), .badAddr),
     (blocks && !d.regionPermits o machine, .regionDenied),
     ((spans && o.count == 0) || (o.op == 4 && o.bytes == 0) || ((o.op == 5 || o.op == 6) && decide (o.seqLast < o.seqFirst)), .badLength),
     ((spans && decide (k.count < o.page + o.count)) || (o.op == 4 && decide (524448 < o.bytes)), .lenTooLarge),
     (data && (if o.host then decide (2 ^ 64 < o.addr + o.span) else !inSram 0 o.addr o.span), .badAddr),
     (blocks && decide (k.region = .retired), .blockRetired),
     (o.op == 2 && o.page != k.next, .pageOrder),
     (o.op == 3 && d.eraseBusy o.block, .blockBusy),
     (o.op == 5 && d.holdExceeds (d.inSeqs o), .holdLimit)]

/-- A completion is written (R201). -/
def Dev.storeComplete (d : Dev) (o : StoreOp) : Dev :=
  let q := d.store.queue
  let w0 := o.tag + o.status % 4096 * 2 ^ 16 + phaseOf q.cqTail q.sizeLog2 * 2 ^ 28
  let w1 := o.done % 2 ^ 24 + (if o.op = 3 then (d.blk o.block).ecnt else 0) * 2 ^ 24
  let at_ := q.cqBase + q.cqTail % 2 ^ q.sizeLog2 * 2
  let d := d.onCore 0 fun c => { c with dmem := spSetAll zeroWord c.dmem at_ [BitVec.ofNat 48 w0, BitVec.ofNat 48 w1] }
  d.onStoreQueue fun q => { q with cqTail := idxAdd q.cqTail 1, irq := q.irq || o.irq }

/-- A descriptor waits and may be consumed: the queue is enabled, the store serves, and the completion queue has a slot
for it beside those of the descriptors in progress (R197). In a close none is; those in progress end (R231). -/
def Dev.storeDescReady (d : Dev) : Bool :=
  let q := d.store.queue
  q.en && d.store.st = .ready && decide (d.power.mode ≠ .close) && q.sqHead != q.sqTail
    && decide (idxDiff q.cqTail q.cqHead + q.running.length < 2 ^ q.sizeLog2)

/-- The descriptor at the head is consumed: a failed check completes it with no side effect; otherwise `act` begins its
operation, which STORE_DESC_COMPLETE ends. -/
def Dev.storeExec (d : Dev) (machine : Bool) (act : StoreOp → Dev → StoreOp × Dev) : Dev :=
  let ws := d.storeDescWords
  let o := parseStoreOp ws
  let bad := d.storeCheck ws machine
  let d := d.onStoreQueue fun q => { q with sqHead := idxAdd q.sqHead 1 }
  match bad with
  | some st => d.storeComplete { o with status := st.code }
  | none =>
    let r := act o d
    r.2.onStoreQueue fun q => { q with running := q.running ++ [r.1] }

/-- The operation at the head of the queue, when it may be consumed. -/
def Dev.storeOpcode (d : Dev) : Option Nat := if d.storeDescReady then some (parseStoreOp d.storeDescWords).op else none

/-- READ: the block is pinned until completion (R202). -/
def storeActRead (o : StoreOp) (d : Dev) : StoreOp × Dev := (o, d.onBlk o.block fun k => { k with readPins := k.readPins + 1 })

/-- Bytes that a descriptor moves to the store: from D-space, or those that the host read returned. -/
def Dev.storeSource (d : Dev) (o : StoreOp) (data : List Byte) : List Byte :=
  fitBytes o.span (if o.host then data else d.memGet 0 o.addr o.span)

/-- PROGRAM: the pages go into programming in order; a failed host read programs none (R199, R201). -/
def storeActProgram (data : List Byte) (ok : Bool) (o : StoreOp) (d : Dev) : StoreOp × Dev :=
  if o.host && !ok then ({ o with status := Status.dmaFault.code }, d)
  else
    let ps := pieces pageBytes (d.storeSource o data)
    let jobs : List PageJob := ps.zipIdx.map fun p => { owner := .queue o.tag, block := o.block, page := o.page + p.2, data := p.1 }
    (o, (d.onBlk o.block fun k => { k with next := k.next + ps.length, erased := false }).enqueue jobs)

/-- ERASE begins (R199). -/
def storeActErase (o : StoreOp) (d : Dev) : StoreOp × Dev := (o, d.beginErase o.block)

/-- APPEND: the records of whole frames with valid checksums join the writer's queue; else nothing is written (R201). -/
def storeActAppend (data : List Byte) (ok : Bool) (o : StoreOp) (d : Dev) : StoreOp × Dev :=
  if o.host && !ok then ({ o with status := Status.dmaFault.code }, d)
  else
    let r := frames (d.storeSource o data)
    if r.2 then
      ({ o with done := o.bytes },
       d.onStore fun s => { s with supQ := s.supQ ++ r.1.map fun f => { kind := f.1, lane := f.2.1, seq := 0, body := f.2.2, era := s.era } })
    else ({ o with status := Status.badRecord.code }, d)

/-- PIN and UNPIN (R196, R199). -/
def storeActPin (o : StoreOp) (d : Dev) : StoreOp × Dev :=
  let bs := d.inSeqs o
  ({ o with done := bs.length }, d.each bs fun d b => d.pin b)
def storeActUnpin (o : StoreOp) (d : Dev) : StoreOp × Dev :=
  let bs := (d.inSeqs o).filter fun b => decide (0 < (d.blk b).holds)
  ({ o with done := bs.length }, d.each bs fun d b => d.unpin b)

/-- A read pin is put or taken; with the last one, an erase that waited for it begins (R202). -/
def Dev.readPin (d : Dev) (b : Nat) : Dev := d.onBlk b fun k => { k with readPins := k.readPins + 1 }
def Dev.readUnpin (d : Dev) (b : Nat) : Dev :=
  let d := d.onBlk b fun k => { k with readPins := k.readPins - 1 }
  if (d.blk b).eraseDue && (d.blk b).readPins == 0 then d.beginErase b else d

/-- The pages of a READ reach their target: those of the readable prefix, as far as page `bad`, if one is not to be
corrected, or not at all on a host write fault (R201, R203). -/
def Dev.readEnd (d : Dev) (o : StoreOp) (bad : Option Nat) (hostOk : Bool) : StoreOp × Dev :=
  let k := d.blk o.block
  let d := d.readUnpin o.block
  let have_ := Nat.min o.count (k.readable - o.page)
  let n := match bad with | some i => Nat.min i have_ | none => have_
  let bs := fitBytes (n * pageBytes) (((k.pages.drop o.page).take n).flatMap (fitBytes pageBytes))
  if o.host && !hostOk then ({ o with status := Status.dmaFault.code }, d)
  else
    let d := if o.host then d.send (.hostWrite o.port o.addr bs) else d.memPut 0 o.addr bs
    if n < have_ then ({ o with done := n, status := Status.readUncorrectable.code }, d.storeErr 4)
    else ({ o with done := n, status := if n < o.count then Status.notProgrammed.code else 0 }, d)

/-- A descriptor's operation is over: its pages have left programming, or its erase has ended. -/
def Dev.storeOpOver (d : Dev) (o : StoreOp) : Bool :=
  if o.op = 2 then !d.store.pages.any fun j => decide (j.owner = .queue o.tag)
  else if o.op = 3 then !(d.blk o.block).erasing
  else true

/-- STORE_DESC_COMPLETE of the `i`-th descriptor in progress (R201). -/
def Dev.storeDescComplete (d : Dev) (i : Nat) (bad : Option Nat) (hostOk : Bool) : Dev :=
  match d.store.queue.running[i]? with
  | none => d
  | some o =>
    if !d.storeOpOver o then d
    else
      let d := d.onStoreQueue fun q => { q with running := q.running.eraseIdx i }
      let r := if o.op = 1 then let r := d.readEnd o bad hostOk; (r.1, r.2.journalAhead)
        else if o.op = 3 && decide ((d.blk o.block).region = .retired) then ({ o with status := Status.eraseFail.code }, d)
        else (o, d)
      r.2.storeComplete r.1

/-- TRIG_DEB has passed since a line's trigger (R213). -/
def Dev.trigRearm (d : Dev) (line : Nat) : Dev :=
  d.onStore fun s => { s with trig := { s.trig with rearm := s.trig.rearm.filter fun r => !(r.1 == line && d.past r.2) } }

/-- A supervisor read of STOR_TRIG_POP removes the oldest trigger and latches its time (R214). -/
def Dev.trigPop (d : Dev) : Dev :=
  match d.store.trig.fifo with
  | [] => d
  | (_, t) :: rest => d.onStore fun s => { s with trig := { s.trig with fifo := rest, popTime := t } }

/-- DDR5 training ends: keys are drawn and staging is READY, or it is in FAULT (R207, R212, R216). -/
def Dev.trainDone (d : Dev) (channels : Nat) (ok : Bool) : Dev :=
  if d.staging.st ≠ .train then d
  else if ok then
    let k := d.randDraw 0 96 true
    { k.2 with staging := { k.2.staging with st := .ready, chPresent := channels % 16, keys := some k.1 } }
  else { d with staging := { d.staging with st := .fault, err := setBit d.staging.err 1 } }

/-- DRAIN ends once no segment is staged, and so does staging that EN = 0 forbids (R207, R216; log entry 77). -/
def Dev.drainDone (d : Dev) : Dev :=
  if (d.staging.st = .drain || !d.staging.en) && d.stagedSegs = 0 then
    { d with staging := { d.staging with st := .off, keys := none, chPresent := 0, pages := [] } }
  else d

/-- A die gives no response (R215). -/
def Dev.dieSilent (d : Dev) (die : Nat) : Dev :=
  if d.variant.dies ≤ die || decide (d.store.st = .off) then d else d.onStore fun s => { s with st := .fault }

end Sys2Proof.Machine
end

