-- ==== Sys2Proof/Machine/ExportOps.lean ====
section
/-! DEFINITION. Store exports (R203, R272, R312). -/
namespace Sys2Proof.Machine

/-- The block in which a container stands, if it still exists. -/
def Dev.blockOf (d : Dev) (seq : Nat) : Option (Nat × Block) := d.containers.find? fun b => b.2.seq == seq

/-- A close reserve as it is exported: a container of origin CLOSE_RESERVE with the bytes of its blocks after their tags (R145, R186,
R203). DESIGN CHOICE (log entry 79): no container of that origin has a trailer, so its prev_container is zero. -/
def Dev.closeExport (d : Dev) : List Byte :=
  match d.store.reserve.stored.find? fun r => r.kind == 0x30 with
  | none => []
  | some o =>
    let pcyc := numAt o.body 0x0C 4
    d.containerHeader 2 pcyc pcyc (numAt o.body 0x10 8) (zeros 64)
      ++ d.store.reserve.blocks.flatMap fun b => ((d.blk b).pages.flatten).drop 64

/-- The response of an export (R312). -/
def Export.answer (e : Export) : List Byte := le 4 e.sent ++ le 4 e.skipped ++ le 8 e.bytes ++ le 8 e.firstSkipped

/-- A container that was erased before its turn is skipped. -/
def Export.skip (e : Export) (seq : Nat) : Export :=
  { e with left := e.left.drop 1, skipped := e.skipped + 1,
           firstSkipped := if e.skipped = 0 then seq else e.firstSkipped }

/-- Change the export of a slot or session. -/
def Dev.onExport (d : Dev) (p i : Nat) (f : Export → Export) : Dev :=
  { d with exports := d.exports.map fun e => if e.port = p && e.slot = i then f e else e }

/-- The export of a slot or session, and that of a port. -/
def Dev.exportOf (d : Dev) (p i : Nat) : Option Export := d.exports.find? fun e => e.port == p && e.slot == i
def Dev.portExport (d : Dev) (p : Nat) : Option Export := d.exports.find? fun e => e.port == p

/-- EXPORT chunks of a session that are not acknowledged. -/
def Session.chunks (s : Session) : Nat := s.unacked.countP fun u => u.typ == 0x20

/-- An export ends: its block is unpinned and its chunks are forgotten. -/
def Dev.exportEnd (d : Dev) (e : Export) : Dev :=
  let d := match e.block with | some b => d.readUnpin b | none => d
  let d := { d with exports := d.exports.filter fun x => !(x.port == e.port && x.slot == e.slot) }
  d.onSess e.port e.slot fun s => { s with unacked := s.unacked.filter fun u => u.typ != 0x20 }

/-- The last byte of the present container is sent: its block is unpinned (R202, R312). -/
def Dev.exportSent (d : Dev) (e : Export) : Dev :=
  let d := match e.block with | some b => d.readUnpin b | none => d
  d.onExport e.port e.slot fun e => { e with block := none, sent := e.sent + 1 }

/-- One step of an export: the next container is taken, or it is written to host memory, at 16-byte steps, or its next chunk is sent. -/
def Dev.exportStep (d : Dev) (e : Export) : Dev :=
  let p := e.port
  let i := e.slot
  if e.cur.isEmpty then
    match e.left with
    | [] => if (d.sess p i).chunks = 0 then (d.exportEnd e).answer p i 0 e.answer else d
    | seq :: rest =>
      match d.blockOf seq with
      | none => d.onExport p i fun e => e.skip seq
      | some b =>
        (d.readPin b.1).onExport p i fun e => { e with left := rest, cur := b.2.exported, block := some b.1 }
  else if let some a := e.addr then
    let d := (d.send (.hostWrite p a e.cur)).onExport p i fun x =>
      { x with cur := [], bytes := x.bytes + e.cur.length, addr := some (a + ceilDiv e.cur.length 16 * 16) }
    d.exportSent e
  else if (d.sess p i).chunks < 16 then
    let chunk := e.cur.take 8192
    let rest := e.cur.drop 8192
    let d := d.sendNumbered p i 0x20 chunk
    let d := d.onExport p i fun e => { e with cur := rest, bytes := e.bytes + chunk.length }
    if rest.isEmpty then d.exportSent e else d
  else d

/-- An export goes on as far as its window of 16 chunks allows; the fuel bounds the containers and chunks of one go. -/
def Dev.exportPump (d : Dev) (p i : Nat) : Nat → Dev
  | 0 => d
  | n + 1 =>
    match d.exportOf p i with
    | none => d
    | some e => (d.exportStep e).exportPump p i n

/-- Enough fuel for an export: a skip for every container, and a window of chunks. -/
def Export.fuel (e : Export) : Nat := 2 * e.left.length + 64

/-- The export of a session goes on. -/
def Dev.exportGo (d : Dev) (p i : Nat) : Dev :=
  match d.exportOf p i with
  | none => d
  | some e => d.exportPump p i e.fuel

/-- Exports to host memory go on by a step at an edge, while the port takes writes and no close has stopped them (R231, R262, R312).
DESIGN CHOICE (log entry 79). -/
def Dev.exportEdge (d : Dev) : Dev :=
  d.each [0, 1] fun d p =>
    match d.portExport p with
    | some e => if decide (d.power.mode ≠ .close) && !(d.port p).pcie.d3hot then d.exportStep e else d
    | none => d

/-- An export whose chunks stay unacknowledged stops (R272, R312). -/
def Dev.exportTimeout (d : Dev) (p i : Nat) : Dev :=
  match d.exportOf p i with
  | none => d
  | some e => (d.exportEnd e).refuse p i .exportTimeout

end Sys2Proof.Machine
end

