-- ==== Sys2Proof/Machine/SessionOps.lean ====
section
/-! DEFINITION. Port sessions: role proofs, their end, requests and the datagram transport (R247 to R273, R276). -/
namespace Sys2Proof.Machine

/-- References of commands to a session slot that no longer answers: no slot has the number 99. -/
def orphanRef (p i : Nat) (r : Nat × Nat) : Nat × Nat := if r.1 = p && r.2 = i then (p, 99) else r
def orphanSlot (p i port slot : Nat) : Nat := if port = p && slot = i then 99 else slot

/-- A receipt in making loses a waiter that no longer answers. -/
def Making.orphan (p i : Nat) (m : Making) : Making := { m with waiters := m.waiters.map (orphanRef p i) }

/-- The commands of a slot or session complete without an answer, and those not yet started are gone (R253, R263). -/
def Dev.orphan (d : Dev) (p i : Nat) : Dev :=
  let ref := orphanRef p i
  { d with
    waits := d.waits.map fun w => { w with slot := orphanSlot p i w.port w.slot },
    receipts := { d.receipts with
      demandFor := d.receipts.demandFor.map ref,
      taken := d.receipts.taken.map ref,
      making := d.receipts.making.map (Making.orphan p i),
      queued := d.receipts.queued.map (Making.orphan p i) },
    keys := { d.keys with pending := d.keys.pending.map fun k =>
      match k.done with
      | .deliver port slot => { k with done := .deliver port (orphanSlot p i port slot) }
      | _ => k },
    rng := { d.rng with fills := d.rng.fills.map fun f => { f with slot := orphanSlot p i f.port f.slot } },
    field := { d.field with
      reader := d.field.reader.map fun r => { r with slot := orphanSlot p i r.port r.slot },
      waits := d.field.waits.map fun w =>
        match w.work with
        | .command port slot => { w with work := .command port (orphanSlot p i port slot) }
        | _ => w },
    life := { d.life with going := d.life.going.map fun g => { g with slot := orphanSlot p i g.source g.slot } },
    portsCfg := { d.portsCfg with arrivals := d.portsCfg.arrivals.filter fun r => !(r.1 == p && r.2 == i) } }

/-- The settings shadow of a session ends without a commit (R332). -/
def Dev.dropShadow (d : Dev) (p i : Nat) : Dev :=
  match d.settings.shadow with
  | some s => if s.port = p && s.slot = i then { d with settings := { d.settings with shadow := none } } else d
  | none => d

/-- A session ends (R252): role, buffer, shadow, log freeze and, on P2 and P3, what it still has to receive. -/
def Dev.endSession (d : Dev) (p i : Nat) : Dev :=
  let d := d.dropShadow p i
  let d := if d.log.holder = some (p, i) then d.logUnfreeze else d
  let d := if isUdp p then (match d.exportOf p i with | some e => d.exportEnd e | none => d).orphan p i else d
  d.onSess p i fun s => { id := s.id, st := if s.st = .locked then .locked else .none }

/-- Every session of a port, and every session. -/
def Dev.endPort (d : Dev) (p : Nat) : Dev := d.each (List.range (nSess p)) fun d i => d.endSession p i
def Dev.endSessions (d : Dev) : Dev := d.each (List.range 5) Dev.endPort

/-- Set a bit of MBX_ERR, on the ports that have the block. -/
def Dev.mbxErr (d : Dev) (p n : Nat) : Dev :=
  if isUdp p then d else d.onMbx p fun m => { m with err := setBit m.err n }

/-- Sharnolos serves requests: it has booted and does not stand halted for a close (R229, R231). -/
def Dev.serves (d : Dev) : Bool :=
  d.supply.clocks && d.power.bootDone && decide (d.power.mode ≠ .close) && decide (d.power.mode ≠ .standby)

/-- A role that a port may grant (R248): within its PORT_ROLES setting, and SERVICE in that state alone. -/
def Dev.roleOk (d : Dev) (p role : Nat) : Bool :=
  (numAt (d.settings.get 0x01) p 1).testBit role && decide (1 ≤ role) && decide (role ≤ 5)
    && !(role == 3 && p == 4) && !(role == 5 && (isUdp p || decide (d.life.st ≠ .service)))

/-- The role of a code. -/
def Role.ofCode : Nat → Role
  | 1 => .inspector | 2 => .operator | 3 => .evidence | 4 => .fleet | 5 => .service | _ => .none

/-- Role proofs are refused on the port: expiry wins (R251, R276). -/
def Dev.portLocked (d : Dev) (p : Nat) : Bool :=
  match (d.port p).lockAt with | some t => !d.due t | none => false

/-- A role proof fails (R250, R251). Only a granted role resets the count, which FAILS shows up to 5: after a lockout, a further
failure is again one after five (log entry 53). -/
def Dev.authFail (d : Dev) (p i role : Nat) : Dev :=
  let n := Nat.min 5 ((d.port p).fails + 1)
  let d := (d.endSession p i).onPort p fun q => { q with fails := n }
  let d := (d.mbxErr p 4).logEvent 0x100 1 [u8 p, u8 role, u8 n]
  if n < 5 then d
  else
    let d := d.onPort p fun q => { q with lockAt := some (d.clk + secs d.portsCfg.lockout) }
    let d := if isUdp p then d else d.onSess p i fun s => { s with st := .locked }
    (d.mbxErr p 5).logEvent 0x101 2 [u8 p]

/-- The transcript digest t (R249). -/
def transcript (hello : List Byte) (id : Nat) (chal : List Byte) (p : Nat) : List Byte :=
  shake (ascii "QMBT" ++ fitBytes 100 hello ++ le 8 id ++ chal ++ [u8 p]) 64

/-- The fields of a HELLO are in their ranges (R249): the ephemeral key is zero where R249 says so. -/
def helloOk (p : Nat) (b : List Byte) : Bool :=
  inRange 1 5 (numAt b 0 1) && inRange 1 2 (numAt b 1 1) && numAt b 2 2 == 0
    && (isUdp p || bytesAt b 4 32 == zeros 32)

/-- A challenge: its value, the session identifier and, on P2 and P3, an ephemeral key are drawn (R249, R394). -/
def Dev.challenge (d : Dev) (p i : Nat) (hello : List Byte) : List Byte × Dev :=
  let c := d.randDraw 0 32 false
  let n := c.2.randDraw 0 32 false
  let e := if isUdp p then n.2.randDraw 0 32 false else (zeros 32, n.2)
  let d := e.2
  let id := numAt n.1 0 8
  let eph := if isUdp p then fitBytes 32 (Config.x25519Pub e.1) else zeros 32
  let expires := d.now + d.portsCfg.chalTime * 2 ^ 32
  let body := eph ++ c.1 ++ fitBytes 64 d.keys.idDigest ++ le 8 expires
  let age := (d.port p).chals
  let d := d.onPort p fun q => { q with chals := q.chals + 1 }
  (body, d.onSess p i fun s =>
    { buf := s.buf, st := .challenged, id := id, hello := fitBytes 100 hello, chal := body, expires := expires, ephPriv := e.1,
      t := transcript hello id body p, age := age })

/-- The signature length of a credential algorithm (R249). -/
def credSigLen (alg : Nat) : Nat := if alg = 1 then 1280 else 96

/-- A PROVE body proves the challenged role (R250). At debug level FULL no proof completes (R452). -/
def Dev.proves (d : Dev) (p i : Nat) (body : List Byte) : Bool :=
  let s := d.sess p i
  let role := numAt s.hello 0 1
  let alg := numAt s.hello 1 1
  decide (s.st = .challenged) && decide (d.now < s.expires) && decide (d.dbg.level ≠ .full) && d.roleOk p role
    && numAt body 0 2 == credSigLen alg && body.length == 8 + credSigLen alg
    && (match d.keys.credential role (bytesAt s.hello 0x24 64) with
        | some t => t.alg == alg && t.verifies (ascii "QMBC" ++ s.t) (body.drop 8)
        | none => false)

/-- The role is granted (R250): the session keys stand, and the device signs for its identity. The list is the body of
the ACCEPT. DESIGN CHOICE (log entry 96): the signature is made within the row. -/
def Dev.grant (d : Dev) (p i : Nat) : List Byte × Dev :=
  let s := d.sess p i
  let role := numAt s.hello 0 1
  let ss := Config.x25519 s.ephPriv (bytesAt s.hello 4 32)
  let k := shake (ascii "QMSK" ++ fitBytes 32 ss ++ s.t) 64
  let r := d.randDraw 0 1024 false
  let sig := falconSig (r.2.keySlot 1024).key (ascii "QMBD" ++ s.t ++ [u8 role]) r.1
  let idle := r.2.portsCfg.idle
  let d := r.2.onPort p fun q => { q with fails := 0, lockAt := none }
  (u8 role :: (zeros 7 ++ sig), d.onSess p i fun s =>
    { s with st := .active, role := Role.ofCode role, kC2d := k.take 32, kD2c := k.drop 32, ephPriv := [],
             idleAt := if idle = 0 then none else some (d.clk + secs idle) })

/-- A request restarts MBX_IDLE (R276). -/
def Dev.touch (d : Dev) (p i : Nat) : Dev :=
  let idle := d.portsCfg.idle
  d.onSess p i fun s =>
    if s.st = .active then { s with idleAt := if idle = 0 then none else some (d.clk + secs idle) } else s

/-- Change the device-wide port state. -/
def Dev.onPorts (d : Dev) (f : PortsCfg → PortsCfg) : Dev := { d with portsCfg := f d.portsCfg }

/-- Ports, least role set, states and body bounds of a command (R281, R282, R288): the Roles and the States letter. -/
structure CmdInfo where
  ports  : List Nat
  roles  : List Role
  states : Char
  min    : Nat
  max    : Nat

/-- Every port, the ports with slots, and the PCIe ports. -/
def allPorts : List Nat := [0, 1, 2, 3, 4]
def slotPorts : List Nat := [0, 1, 4]
def pciePorts : List Nat := [0, 1]

/-- The opcodes (R288), with the bounds of their bodies. -/
def cmdInfo (op : Nat) : Option CmdInfo :=
  match op with
  | 0x0001 => some ⟨allPorts, [.none, .inspector, .operator, .evidence, .fleet, .service], 'A', 0, 0⟩
  | 0x0002 => some ⟨slotPorts, [.none], 'X', 100, 100⟩
  | 0x0003 => some ⟨slotPorts, [.none], 'X', 104, 1288⟩
  | 0x0004 => some ⟨slotPorts, [.inspector, .operator, .evidence, .fleet, .service], 'A', 0, 0⟩
  | 0x0005 => some ⟨[2, 3, 4], [.inspector, .operator, .evidence, .fleet, .service], 'A', 9, 16368⟩
  | 0x0006 => some ⟨[2, 3, 4], [.inspector, .operator, .evidence, .fleet, .service], 'A', 8, 8⟩
  | 0x0007 => some ⟨allPorts, [.inspector, .operator, .evidence, .fleet], 'D', 4, 4⟩
  | 0x0008 => some ⟨allPorts, [.operator, .fleet], 'Q', 4, 4⟩
  | 0x0009 => some ⟨allPorts, [.operator, .fleet], 'L', 0, 0⟩
  | 0x000A => some ⟨slotPorts, [.fleet, .service], 'L', 0, 0⟩
  | 0x000B => some ⟨allPorts, [.inspector, .operator, .evidence, .fleet], 'L', 4, 4⟩
  | 0x0101 => some ⟨pciePorts, [.operator], 'Q', 64, 64⟩
  | 0x0102 => some ⟨pciePorts, [.operator], 'Q', 8, 8⟩
  | 0x0103 => some ⟨pciePorts, [.operator, .evidence], 'Q', 184, 184⟩
  | 0x0104 => some ⟨pciePorts, [.operator, .evidence], 'Q', 2, 2⟩
  | 0x0105 => some ⟨pciePorts, [.operator, .evidence], 'Q', 88, 88⟩
  | 0x0106 => some ⟨pciePorts, [.operator], 'Q', 48, 48⟩
  | 0x0107 => some ⟨allPorts, [.inspector, .operator, .evidence], 'D', 1, 1⟩
  | 0x0201 => some ⟨allPorts, [.operator, .evidence], 'Q', 0, 0⟩
  | 0x0202 => some ⟨allPorts, [.operator], 'Q', 8, 8⟩
  | 0x0203 => some ⟨allPorts, [.operator, .fleet], 'Q', 8, 8⟩
  | 0x0204 => some ⟨allPorts, [.inspector, .operator, .evidence, .fleet], 'D', 2, 2⟩
  | 0x0301 => some ⟨allPorts, [.operator, .evidence], 'Q', 16, 16⟩
  | 0x0302 => some ⟨allPorts, [.evidence], 'Q', 8, 8⟩
  | 0x0303 => some ⟨allPorts, [.inspector, .operator, .evidence], 'D', 8, 8⟩
  | 0x0304 => some ⟨[0, 1, 2, 3], [.inspector, .operator, .evidence], 'D', 40, 40⟩
  | 0x0305 => some ⟨allPorts, [.inspector, .operator, .evidence, .fleet], 'D', 0, 0⟩
  | 0x0401 => some ⟨allPorts, [.inspector, .operator, .evidence, .fleet, .service], 'D', 0, 0⟩
  | 0x0402 => some ⟨allPorts, [.operator, .fleet], 'L', 8, 8⟩
  | 0x0403 => some ⟨allPorts, [.operator], 'L', 4, 4⟩
  | 0x0404 => some ⟨allPorts, [.operator], 'L', 16, 16⟩
  | 0x0501 => some ⟨allPorts, [.none, .inspector, .operator, .evidence, .fleet, .service], 'D', 4, 4⟩
  | 0x0502 => some ⟨allPorts, [.none, .evidence, .fleet], 'L', 12, 12⟩
  | 0x0503 => some ⟨allPorts, [.inspector, .operator, .evidence, .fleet], 'D', 8, 8⟩
  | 0x0504 => some ⟨allPorts, [.operator, .evidence, .fleet], 'L', 2, 2⟩
  | 0x0601 => some ⟨allPorts, [.inspector, .operator, .evidence, .fleet, .service], 'D', 16, 16⟩
  | 0x0602 => some ⟨allPorts, [.operator, .evidence, .fleet, .service], 'D', 0, 0⟩
  | 0x0603 => some ⟨allPorts, [.operator, .evidence, .fleet, .service], 'D', 0, 0⟩
  | 0x0604 => some ⟨allPorts, [.fleet], 'L', 8, 8⟩
  | 0x0701 => some ⟨allPorts, [.none, .inspector, .operator, .evidence, .fleet, .service], 'A', 0, 0⟩
  | 0x0702 => some ⟨slotPorts, [.fleet, .service], 'X', 72, 72⟩
  | 0x0703 => some ⟨slotPorts, [.fleet, .service], 'D', 1, 1⟩
  | 0x0704 => some ⟨slotPorts, [.fleet, .service], 'D', 8, 8⟩
  | 0x0705 => some ⟨allPorts, [.operator, .fleet, .service], 'D', 0, 0⟩
  | 0x0801 => some ⟨allPorts, [.inspector, .operator], 'D', 0, 0⟩
  | 0x0802 => some ⟨allPorts, [.operator], 'Q', 256, 256⟩
  | 0x0803 => some ⟨allPorts, [.operator], 'Q', 4, 4⟩
  | 0x0804 => some ⟨allPorts, [.operator], 'Q', 12, 12⟩
  | 0x0901 => some ⟨allPorts, [.fleet], 'L', 12, 12⟩
  | 0x0902 => some ⟨allPorts, [.fleet], 'L', 1, 1⟩
  | 0x0903 => some ⟨allPorts, [.operator, .fleet], 'L', 1, 1⟩
  | 0x0904 => some ⟨allPorts, [.inspector, .operator, .fleet], 'D', 0, 0⟩
  | 0x0905 => some ⟨allPorts, [.fleet], 'L', 12, 12⟩
  | 0x0906 => some ⟨allPorts, [.fleet], 'L', 0, 0⟩
  | 0x0A01 => some ⟨allPorts, [.operator, .evidence, .fleet, .service], 'L', 4, 4⟩
  | 0x0A02 => some ⟨allPorts, [.operator, .evidence, .fleet, .service], 'L', 5, 16368⟩
  | 0x0A03 => some ⟨allPorts, [.operator, .evidence, .fleet, .service], 'L', 4, 4⟩
  | 0x0A04 => some ⟨allPorts, [.operator, .evidence, .fleet, .service], 'L', 0, 0⟩
  | _ => none

/-- A States letter admits a state (R288). DEDUCED (log entry 93): in BLANK too the column decides, which R455 says commands follow. -/
def stateAdmits (c : Char) (st : LcSt) : Bool :=
  if c = 'A' then true
  else if c = 'X' then decide (st ≠ .retired)
  else if c = 'D' then decide (st ≠ .blank) && decide (st ≠ .retired)
  else if c = 'L' then decide (st = .provision) || decide (st = .fleet) || decide (st = .service)
  else decide (st = .fleet) || decide (st = .service)

/-- The largest request and response bodies of a port (R281). -/
def reqMax (p : Nat) : Nat := if p = 4 then 4080 else 16368
def respMax (p : Nat) : Nat := if p = 4 then 4072 else 16360

/-- The role under which a slot or session asks (R253). -/
def Dev.roleOf (d : Dev) (p s : Nat) : Role :=
  let q := d.sess p (sessOf p s)
  if q.st = .active then q.role else .none

/-- Frame checks 1 to 3 (R282). -/
def frameShape (f : List Byte) : Option Status :=
  if f.length < 16 || f.take 4 != ascii "QCMD" || numAt f 4 1 != 1 || numAt f 5 1 != 0 then some .badFrame
  else if 16 + numAt f 8 4 != f.length then some .badLength
  else if (cmdInfo (numAt f 6 2)).isNone then some .badOpcode
  else none

/-- Frame checks 4 to 8 (R282); KEY_DELIVER admits the role NONE in PROVISION alone (R288). -/
def Dev.frameRights (d : Dev) (p s : Nat) : Option Status :=
  let f := d.request p s
  let op := numAt f 6 2
  let len := f.length - 16
  match cmdInfo op with
  | none => some .badOpcode
  | some c =>
    if !c.ports.contains p then some .portDenied
    else if !c.roles.contains (d.roleOf p s) || (op == 0x0502 && d.roleOf p s = .none && d.life.st ≠ .provision) then some .roleInsufficient
    else if !stateAdmits c.states d.life.st then some .lcDenied
    else if len < c.min then some .badLength
    else if Nat.min c.max (reqMax p) < len then some .lenTooLarge
    else none

/-- A frame that fails checks 1 to 3 is answered; without a valid magic, opcode and req_id are zero (R282). -/
def Dev.answerShape (d : Dev) (p s : Nat) : Dev :=
  let f := d.request p s
  match frameShape f with
  | none => d
  | some st =>
    let echo := decide (16 ≤ f.length) && f.take 4 == ascii "QCMD"
    d.deliver p s (responseFrame (if echo then numAt f 6 2 else 0) (if echo then numAt f 12 4 else 0) st.code [])

/-- Requests whose frame fails checks 1 to 3 are answered as soon as Sharnolos serves (R229, R282). -/
def Dev.answerShapes (d : Dev) : Dev :=
  if d.serves then
    let bad := d.portsCfg.arrivals.filter fun r => (frameShape (d.request r.1 r.2)).isSome
    let d := d.onPorts fun c => { c with arrivals := c.arrivals.filter fun r => !bad.contains r }
    d.each bad fun d r => d.answerShape r.1 r.2
  else d

/-- A request joins those that wait: behind the ones of earlier edges, and among those of one edge by port and then slot or session
(R257). -/
def PortsCfg.arrive (c : PortsCfg) (clk p s : Nat) : PortsCfg :=
  let same := if c.edge = clk then c.arrivals.filter c.edgeReqs.contains else []
  let now := sortBy (fun a b => decide (a.1 < b.1) || (a.1 == b.1 && decide (a.2 ≤ b.2))) (same ++ [(p, s)])
  { c with arrivals := c.arrivals.filter (fun r => !same.contains r) ++ now, edge := clk, edgeReqs := now }

/-- A request reaches the supervisor's mailbox arbiter (R257). -/
def Dev.arriveReq (d : Dev) (p s : Nat) : Dev :=
  ((d.touch p (sessOf p s)).onPorts fun c => c.arrive d.clk p s).answerShapes

/-- A doorbell that fails a length check: the slot is DONE with a transport status, which on P4 asserts MGT_ATTN_N (R256, R275). -/
def Dev.doorbellFails (d : Dev) (p s tag : Nat) (st : Status) : Dev :=
  let d := d.onSlot p s fun q => { q with st := .done, tag := tag, status := st.code, respLen := 0, req := [] }
  if p = 4 then d.send (.pin .mgtAttnN false) else d

/-- A doorbell with GO on P0, P1 or P4 (R255, R256). -/
def Dev.doorbell (d : Dev) (p s len tag : Nat) : Dev :=
  if isUdp p || (decide (p = 4) && decide (s ≠ 0)) || 4 ≤ s then d
  else if (d.slot p s).st ≠ .idle then d.mbxErr p 0
  else if len = 0 then d.doorbellFails p s tag .badLength
  else if windowSize p < len then (d.doorbellFails p s tag .lenTooLarge).mbxErr p 2
  else
    let req := spGetAll zeroByte (d.port p).mbx.win (reqWindow p s) len
    (d.onSlot p s fun q => { q with st := .busy, tag := tag, status := 0, respLen := 0, req := req }).arriveReq p s

/-- MGT_ATTN_N is released once slot 0 is not DONE and no notice waits (R275). -/
def Dev.attention (d : Dev) : Dev :=
  let n := (d.port 4).mbx.notices
  if (d.slot 4 0).st = .done || n.tail ≠ n.head then d else d.send (.pin .mgtAttnN true)

/-- MBX_SLOTs.ACK (R255). -/
def Dev.slotAck (d : Dev) (p s : Nat) : Dev :=
  if (d.slot p s).st = .done then
    let d := d.onSlot p s fun q => { q with st := .idle }
    if p = 4 then d.attention else d
  else d

/-- A write of MBX_NTC_HEAD: refused ahead of the tail or more than the ring's size behind it (R62, R64, R260). -/
def Dev.noticeHead (d : Dev) (p v : Nat) : Dev :=
  let n := (d.port p).mbx.notices
  if 2 ^ (if p = 4 then 0 else n.size) < idxDiff n.tail (v % 2 ^ 32) then d.mbxErr p 3
  else
    let d := d.onMbx p fun m => { m with notices := { m.notices with head := v % 2 ^ 32 } }
    if p = 4 then d.attention else d

/-- A datagram is dropped and counted (R269). -/
def Dev.dropUdp (d : Dev) (p : Nat) : Dev := d.onPort p fun q => { q with eth := { q.eth with drop := satInc 32 q.eth.drop } }

/-- REJECT, with the session identifier of the datagram that drew it, zero for a HELLO (R267). -/
def Dev.rejectUdp (d : Dev) (p sid : Nat) (st : Status) : Dev := d.sendPlain p 99 0x7F sid (le 2 st.code)

/-- The types sent towards the device, and the limit of each (R267, R269). -/
def udpLimit (typ : Nat) : Option Nat :=
  match typ with
  | 0x01 => some 100 | 0x03 => some 1288 | 0x10 => some 16384 | 0x13 => some 8 | 0x1F => some 0 | 0x21 => some 8
  | _ => none
def udpPlain (typ : Nat) : Bool := typ == 1 || typ == 3

/-- Datagram checks 1 and 2 (R269). -/
def udpShape (b : List Byte) : Bool :=
  decide (32 ≤ b.length) && b.take 4 == ascii "QMBX" && numAt b 4 1 == 1 && numAt b 6 2 == 0 && numAt b 0x1A 2 == 0
    && (udpLimit (numAt b 5 1)).isSome && inRange 1 16 (numAt b 0x19 1) && decide (numAt b 0x18 1 < numAt b 0x19 1)

/-- The slot of a port whose session in a state has an identifier. -/
def Dev.sessBy (d : Dev) (p id : Nat) (st : SessSt) : Option Nat :=
  (List.range 8).find? fun i => (d.sess p i).st == st && (d.sess p i).id == id

/-- The plaintext of an encrypted datagram (R268). -/
def udpOpen (key b : List Byte) : Option (List Byte) :=
  let c := b.drop 32
  if c.length < 16 then none
  else gcmOpen key (udpNonce 0 (numAt b 0x18 1) (numAt b 0x10 8)) (b.take 32) (c.take (c.length - 16))
    (c.drop (c.length - 16))

/-- The bytes of a message, if every fragment is there and their sum is msg_len (R271). -/
def Reasm.whole (r : Reasm) : Option (List Byte) :=
  let parts := (List.range r.count).map fun i => (r.frags.find? fun f => f.1 == i).map Prod.snd
  if parts.all Option.isSome then
    let m := (parts.map fun x => x.getD []).flatten
    if m.length = r.msgLen then some m else none
  else none

/-- A fragment joins its message among those that are assembled; the message, once complete (R271). -/
def joinFragment (until_ : Nat) (rs : List Reasm) (b text : List Byte) : Option (List Byte) × List Reasm :=
  let seq := numAt b 0x10 8
  let typ := numAt b 5 1
  let idx := numAt b 0x18 1
  let old := rs.find? fun r => r.seq == seq && r.typ == typ
  let r := old.getD { seq := seq, typ := typ, count := numAt b 0x19 1, msgLen := numAt b 0x1C 4, until_ := until_ }
  let r := if r.frags.any fun f => f.1 == idx then r else { r with frags := r.frags ++ [(idx, text)] }
  let rest := rs.filter fun x => !(x.seq == seq && x.typ == typ)
  if r.frags.length < r.count then (none, rest ++ [r]) else (r.whole, rest)

/-- When ETH_REASM of a message that begins now runs out. -/
def Dev.reasmEnd (d : Dev) (p : Nat) : Nat := d.clk + ms (d.port p).eth.reasm

/-- A fragment of a session's message. -/
def Dev.fragment (d : Dev) (p i : Nat) (b text : List Byte) : Option (List Byte) × Dev :=
  let r := joinFragment (d.reasmEnd p) (d.sess p i).reasm b text
  (r.1, d.onSess p i fun s => { s with reasm := r.2 })

/-- A fragment of a HELLO, which has no session yet: the port holds it by type and sequence number (R271). DEDUCED (log entry 30). -/
def Dev.helloFragment (d : Dev) (p : Nat) (b : List Byte) : Option (List Byte) × Dev :=
  let r := joinFragment (d.reasmEnd p) (d.port p).eth.hello b (b.drop 32)
  (r.1, d.onPort p fun q => { q with eth := { q.eth with hello := r.2 } })

/-- A HELLO (R249, R251, R269, R273). -/
def Dev.udpHello (d : Dev) (p : Nat) (body : List Byte) : Dev :=
  let role := numAt body 0 1
  let same := (List.range 8).find? fun i =>
    (d.sess p i).st == .challenged && bytesAt (d.sess p i).hello 4 32 == bytesAt body 4 32
  match same with
  | some i => d.sendPlain p i 2 (d.sess p i).id (d.sess p i).chal
  | none =>
    if !helloOk p body || body.length != 100 then d.rejectUdp p 0 .badField
    else if !stateAdmits 'X' d.life.st then d.rejectUdp p 0 .lcDenied
    else if !d.roleOk p role then d.rejectUdp p 0 .roleDenied
    else
      let idle := (List.range 8).find? fun i => (d.sess p i).st == .none
      let oldest := (List.range 8).foldl (fun (a : Option Nat) i =>
        if (d.sess p i).st = .challenged then
          match a with
          | some j => if (d.sess p i).age < (d.sess p j).age then some i else some j
          | none => some i
        else a) none
      match idle.or oldest with
      | none => d.rejectUdp p 0 .sessionLimit
      | some i =>
        let c := d.challenge p i body
        c.2.sendPlain p i 2 (c.2.sess p i).id c.1

/-- A PROVE (R250). An unknown session identifier fails the proof. -/
def Dev.udpProve (d : Dev) (p i : Nat) (body : List Byte) : Dev :=
  let sid := (d.sess p i).id
  if numAt body 2 6 != 0 then d.rejectUdp p sid .badField
  else if d.proves p i body then
    let g := d.grant p i
    g.2.sendUdp p i 4 0 g.1
  else (d.authFail p i (numAt (d.sess p i).hello 0 1)).rejectUdp p sid .authFail

/-- A complete REQUEST (R270). -/
def Dev.udpRequest (d : Dev) (p i seq : Nat) (frame : List Byte) : Dev :=
  let s := d.sess p i
  if seq = s.rxSeq + 1 then
    if s.running then d.dropUdp p
    else (d.onSess p i fun s => { s with rxSeq := seq, running := true, req := frame, cached := [] }).arriveReq p i
  else if seq = s.rxSeq && seq ≠ 0 then
    if s.running then d else (d.touch p i).sendUdp p i 0x11 seq s.cached
  else d.dropUdp p

/-- An acknowledgement of a NOTICE or of an EXPORT chunk (R272). -/
def Dev.udpAck (d : Dev) (p i typ seq : Nat) : Dev :=
  let d := d.onSess p i fun s => { s with unacked := s.unacked.filter fun u => !(u.typ == typ && u.seq == seq) }
  if typ = 0x20 then d.exportGo p i else d

/-- A complete message of a session. -/
def Dev.udpMessage (d : Dev) (p i typ seq : Nat) (m : List Byte) : Dev :=
  match typ with
  | 0x03 => d.udpProve p i m
  | 0x10 => d.udpRequest p i seq m
  | 0x13 => d.udpAck p i 0x12 (numAt m 0 8)
  | 0x21 => d.udpAck p i 0x20 (numAt m 0 8)
  | _ => d.endSession p i

/-- A handshake datagram (R269, checks 5 and 6). -/
def Dev.udpHandshake (d : Dev) (p : Nat) (b : List Byte) : Dev :=
  let typ := numAt b 5 1
  let sid := if typ = 1 then 0 else numAt b 8 8
  if (udpLimit typ).getD 0 < numAt b 0x1C 4 then (d.dropUdp p).rejectUdp p sid .lenTooLarge
  else if !d.canDraw 0 || !d.serves then (d.dropUdp p).rejectUdp p sid .notReady
  else if d.portLocked p then (d.dropUdp p).rejectUdp p sid .authLocked
  else if typ = 1 then
    let r := d.helloFragment p b
    match r.1 with
    | some m => r.2.udpHello p m
    | none => r.2
  else
    match d.sessBy p sid .challenged with
    | none => (d.authFail p 99 0).rejectUdp p sid .authFail
    | some i =>
      let r := d.fragment p i b (b.drop 32)
      match r.1 with
      | some m => r.2.udpProve p i m
      | none => r.2

/-- An encrypted datagram (R269, checks 3 to 5). -/
def Dev.udpEncrypted (d : Dev) (p : Nat) (b : List Byte) : Dev :=
  let typ := numAt b 5 1
  match d.sessBy p (numAt b 8 8) .active with
  | none => d.dropUdp p
  | some i =>
    match udpOpen (d.sess p i).kC2d b with
    | none => d.dropUdp p
    | some text =>
      if (udpLimit typ).getD 0 < numAt b 0x1C 4 then d.dropUdp p
      else
        let r := d.fragment p i b text
        match r.1 with
        | some m => r.2.udpMessage p i typ (numAt b 0x10 8) m
        | none => r.2

/-- A frame that arrives shows that the link is up, at the rate and interface that ETH_IF had at power-up (R265, R336). -/
def Dev.ethUp (d : Dev) (p : Nat) : Dev :=
  d.onPort p fun q => { q with eth := { q.eth with rate := q.eth.cfg % 8, iface := q.eth.cfg >>> 3 % 4 } }

/-- A datagram of a type arrives (R269). With the port down, in STANDBY and in CLOSE it is lost (R231, R286); one of
another type is another command's. -/
def Dev.datagram (d : Dev) (p typ : Nat) (b : List Byte) : Dev :=
  let d := if isUdp p && d.supply.clocks then d.ethUp p else d
  if !isUdp p || (d.port p).eth.rate = 0 || !d.supply.clocks || d.power.mode = .standby || d.power.mode = .close then d
  else if !udpShape b then d.dropUdp p
  else if numAt b 5 1 ≠ typ then d
  else if udpPlain typ then d.udpHandshake p b
  else d.udpEncrypted p b

/-- ETH_REASM runs out: messages still incomplete are discarded (R271). -/
def Dev.reasmExpiry (d : Dev) (p i : Nat) : Dev :=
  (d.onSess p i fun s => { s with reasm := s.reasm.filter fun r => !d.past r.until_ }).onPort p fun q =>
    { q with eth := { q.eth with hello := q.eth.hello.filter fun r => !d.past r.until_ } }

/-- A notice is dropped for want of an acknowledgement (R259, R272). -/
def Dev.noticeDropped (d : Dev) (p : Nat) : Dev :=
  let d := d.onMbx p fun m => { m with notices := { m.notices with lost := satInc 32 m.notices.lost } }
  if (d.port p).mbx.notices.logged then d
  else
    (d.onMbx p fun m => { m with notices := { m.notices with logged := true } }).logEvent 0x102 1
      ([u8 p] ++ le 4 (d.port p).mbx.notices.lost)

/-- ETH_RETX runs out on the oldest datagram that waits longest (R272). -/
def Dev.retxExpiry (d : Dev) (p i : Nat) : Dev :=
  match (d.sess p i).unacked.find? fun u => d.past (u.at_ + ms (d.port p).eth.retx) with
  | none => d
  | some u =>
    if u.tries < 4 then
      let d := d.sendUdp p i u.typ u.seq u.body
      d.onSess p i fun s => { s with unacked := s.unacked.map fun x =>
        if x.typ == u.typ && x.seq == u.seq then { x with at_ := d.clk, tries := x.tries + 1 } else x }
    else if u.typ = 0x20 then d.exportTimeout p i
    else
      (d.onSess p i fun s =>
        { s with unacked := s.unacked.filter fun x => !(x.typ == u.typ && x.seq == u.seq) }).noticeDropped p

/-- CHALLENGE.expires is reached: expiry wins (R276). -/
def Dev.challengeExpiry (d : Dev) (p i : Nat) : Dev :=
  let s := d.sess p i
  if s.st = .challenged && s.expires ≤ d.now then d.authFail p i (numAt s.hello 0 1) else d

/-- MBX_LOCKOUT ends (R251, R276). -/
def Dev.lockoutEnd (d : Dev) (p : Nat) : Dev :=
  match (d.port p).lockAt with
  | none => d
  | some t =>
    if d.due t then
      (d.onPort p fun q => { q with lockAt := none }).onSess p 0 fun s =>
        if s.st = .locked then { s with st := .none } else s
    else d

/-- MBX_IDLE runs out; arrival wins (R252, R276). -/
def Dev.idleExpiry (d : Dev) (p i : Nat) : Dev :=
  match (d.sess p i).idleAt with
  | some t => if (d.sess p i).st = .active && d.past t then d.endSession p i else d
  | none => d

/-- A lane's rings that a port owns. -/
def Dev.onOwned (d : Dev) (p : Nat) (f : RingPair → RingPair) : Dev :=
  let g := fun (r : RingPair) => if r.valid && r.port == p then f r else r
  { d with lanes := d.lanes.map fun l => { l with ring0 := g l.ring0, ring1 := g l.ring1 } }

/-- Link down, hot reset, Function Level Reset and PERST_N (R252, R263); `rate` and `width` are those of the link then. -/
def Dev.pcieReset (d : Dev) (p : Nat) (down : Bool) (rate width : Nat) : Dev :=
  if !isPcie p || !d.supply.pgood then d
  else
    let d := match d.portExport p with | some e => d.exportEnd e | none => d
    let d := (d.endSession p 0).each (List.range 4) fun d s => d.orphan p s
    let d := d.onSess p 0 fun s => { s with buf := [] }
    let d := d.onPort p fun q =>
      { q with
        pcie := { rate := rate % 6, width := if rate % 6 = 0 then 0 else width % 16, d3hot := false, msix := [],
                  linkDown := if down then satInc 32 q.pcie.linkDown else q.pcie.linkDown }
        mbx := { q.mbx with slots := q.mbx.slots.map fun s => { s with st := .idle, resp := none } } }
    d.onOwned p fun r => { r with severed := true }

/-- A move to D3hot, and the return to D0 (R262). -/
def Dev.pcieD3 (d : Dev) (p : Nat) : Dev :=
  if !isPcie p then d
  else (d.onPort p fun q => { q with pcie := { q.pcie with d3hot := true } }).onOwned p fun r => { r with paused := true }
def Dev.pcieD0 (d : Dev) (p : Nat) : Dev :=
  if !isPcie p || !(d.port p).pcie.d3hot then d
  else
    let d := (d.onPort p fun q => { q with pcie := { q.pcie with d3hot := false } }).onOwned p fun r =>
      { r with paused := false }
    d.each (List.range 4) fun d s =>
      match (d.slot p s).resp with
      | some f => if (d.slot p s).st = .busy then d.fillSlot p s f else d
      | none => d

/-- A ring of the port is paused (R263, R278). -/
def Dev.ringsPaused (d : Dev) (p : Nat) : Bool :=
  d.lanes.toList.any fun l =>
    (l.ring0.valid && l.ring0.port == p && l.ring0.severed) || (l.ring1.valid && l.ring1.port == p && l.ring1.severed)

/-- The Ethernet link of P2 or P3 goes down (R252). -/
def Dev.ethDown (d : Dev) (p : Nat) : Dev :=
  if isUdp p then (d.endPort p).onPort p fun q => { q with eth := { q.eth with rate := 0, hello := [] } } else d

end Sys2Proof.Machine
end

