-- ==== Sys2Proof/Machine/TimeOps.lean ====
section
/-! DEFINITION. The custody timebase's operations: the accumulators, measurements, slews and steps, the servo's
states, the error bound, the load, the counters and the alarms (R153 to R175). -/
namespace Sys2Proof.Machine

/-- The largest value that a host may set or label (R153). -/
def timeMax : Nat := 0xFFFF000000000000

/-- The nominal increment, units of 2^-64 s (R154). -/
def nominalInc : Nat := 0x44B82FA0A

/-- The least increment: 0.999 ns (R154). -/
def minInc : Nat := ceilDiv (nominalInc * 999) 1000

/-- A rate correction of the servo, units of 0.1 ppb. DEDUCED (log entry 32): it is held to 1,000 ppm, for the increment is never below
0.999 ns a cycle (R154). -/
def clampRate (r : Int) : Int := if r < -10000000 then -10000000 else if 10000000 < r then 10000000 else r

/-- The increment with the rate correction in force, never below the least (R154). -/
def rateInc (rate : Int) : Int := max (minInc : Int) ((nominalInc : Int) + (nominalInc : Int) * rate / 10000000000)

/-- What one edge of a slew removes at SLEW_MAX ppm, units of 2^-64 s (R155). -/
def slewStep (slewMax : Nat) : Nat := nominalInc * slewMax / 1000000

/-- Nanoseconds of a signed number of units of 2^-32 s, towards zero. -/
def unitsNs (o : Int) : Int := Int.tdiv (o * 1000000000) 4294967296

/-- An offset in units of 2^-32 s exceeds a number of nanoseconds in magnitude. -/
def exceedsNs (o : Int) (ns : Nat) : Bool := decide (ns * 4294967296 < o.natAbs * 1000000000)

/-- What an edge is to remove: what is left of an ended slew, or a slew's next part (R155). -/
def Servo.wants (s : Servo) (slewMax : Nat) : Int :=
  let k := slewStep slewMax
  if s.rest ≠ 0 then s.rest else if s.slew.natAbs ≤ k then 0 else if s.slew < 0 then -(k : Int) else k

/-- One edge of the fabric clock: the accumulator advances by no less than the least increment, a slew's part with it (R154, R155).
The last part of a slew ends with SLEW_COMPLETE. -/
def Servo.edge (s : Servo) (slewMax : Nat) : Servo :=
  if !s.run then s
  else
    let part := max (s.wants slewMax) ((minInc : Int) - rateInc s.rate)
    let ends := decide (s.rest ≠ 0)
    { s with acc := ((s.acc : Int) + rateInc s.rate + part).toNat % 2 ^ 96,
             slew := if ends then s.slew else s.slew - part, rest := if ends then s.rest - part else 0,
             uncorrected := s.uncorrected - part.natAbs }

/-- What the bound grows by in `n` seconds of HOLDOVER (R166). -/
def boundGrowth (ho n : Nat) : Nat := 2 * n + ho * (n * (n + 1)) / 7200

/-- TIME_ERRBOUND saturates. -/
def satBound (n : Nat) : Nat := Nat.min n 0xFFFFFFFF

/-- The error bound that the servo's state gives (R166). -/
def Dev.boundNow (d : Dev) : Nat :=
  let s := d.time.servo
  let ho := d.time.cfg.hoStab
  match s.dstate with
  | .locked => 20
  | .holdover => satBound (s.hold + boundGrowth ho ((d.clk - s.holdAt) / 1000000000))
  | .free | .acquire =>
    satBound (Nat.max (s.base + boundGrowth ho ((d.clk - s.baseAt) / 1000000000))
      (s.uncorrected * 1000000000 / 2 ^ 64))
  | .stopped | .startWait => s.errBound

/-- Change the servo. -/
def Dev.onServo (d : Dev) (f : Servo → Servo) : Dev := { d with time := { d.time with servo := f d.time.servo } }

/-- Change the always-on part. -/
def Dev.onAonTime (d : Dev) (f : AonTime → AonTime) : Dev := { d with time := { d.time with aon := f d.time.aon } }

/-- Set bit `n` of TIME_ERR. -/
def Dev.timeErr (d : Dev) (n : Nat) : Dev :=
  { d with time := { d.time with cfg := { d.time.cfg with err := setBit d.time.cfg.err n } } }

/-- Bring TIME_ERRBOUND up to date, and set UNCERTAIN when it exceeds TIME_UNC_THR (R166, R167). -/
def Dev.refreshBound (d : Dev) : Dev :=
  let b := d.boundNow
  d.onServo fun s => { s with errBound := b, uncertain := s.uncertain || decide (d.time.cfg.uncThr * 1000 < b) }

/-- The source that the servo takes: SRC_A, or SRC_B while it is on the fallback (R161). -/
def Dev.activeSrc (d : Dev) : Nat := if d.time.servo.onSrcB then d.time.cfg.srcB else d.time.cfg.srcA

/-- Entry to LOCKED: the bound is 20 ns, UNCERTAIN clears and a 64 s window begins (R159, R166, R167). -/
def Dev.enterLocked (d : Dev) : Dev :=
  d.onServo fun s =>
    { s with dstate := .locked, errBound := 20, uncertain := false, good := 0, bad := 0, rates := [(d.clk, s.rate)],
             window := some (d.clk, (d.now : Int) - d.aonTime) }

/-- Entry to ACQUIRE (R164). -/
def Dev.enterAcquire (d : Dev) : Dev :=
  d.onServo fun s => { s with dstate := .acquire, good := 0, bad := 0, rates := [(d.clk, s.rate)], window := none }

/-- The rate's values as far back as `from_` reaches. -/
def ratesSince (from_ : Nat) : List (Nat × Int) → List (Nat × Int)
  | [] => []
  | e :: es => if e.1 ≤ from_ then [e] else e :: ratesSince from_ es

/-- The rate's values weighted by how long each was in force up to `until_`. -/
def ratesSum (from_ : Nat) : Nat → List (Nat × Int) → Int
  | _, [] => 0
  | until_, e :: es => e.2 * ((until_ - Nat.max e.1 from_ : Nat) : Int) + ratesSum from_ e.1 es

/-- The servo corrects the rate; what a later average needs of the last 64 s stays (R154, R164). -/
def Dev.setRate (d : Dev) (r : Int) : Dev :=
  d.onServo fun s => { s with rate := r, rates := (d.clk, r) :: ratesSince (d.clk - ms 64000) s.rates }

/-- A quotient rounded to the nearest integer, halves upwards, for a positive divisor. DESIGN CHOICE (log entry 32). -/
def roundDiv (a b : Int) : Int := (2 * a + b) / (2 * b)

/-- The rate averaged over the last 64 s of the present state, or since its entry if that is shorter (R164). DEDUCED (log entry 32): it
is rounded to the unit of TIME_RATE. -/
def Dev.averageRate (d : Dev) : Int :=
  let s := d.time.servo
  let from_ := Nat.max (d.clk - ms 64000) ((s.rates.getLast?.map fun e => e.1).getD d.clk)
  if from_ = d.clk then s.rate else roundDiv (ratesSum from_ d.clk (ratesSince from_ s.rates)) ((d.clk - from_ : Nat) : Int)

/-- Entry to HOLDOVER (R161, R164): the bound grows from its value, the increment stays at its average, REF_LOST is set and
TIME_REF_LOST logged. -/
def Dev.enterHoldover (d : Dev) (src : Nat) : Dev :=
  let b := d.boundNow
  let d := d.onServo fun s =>
    { s with dstate := .holdover, hold := b, holdAt := d.clk, errBound := b, rate := d.averageRate, good := 0, bad := 0, window := none }
  (d.timeErr 3).logEvent 0x084 1 [u8 src]

/-- Uncertainty of a measurement by source, ns (R166): 1 PPS, 2 and 3 IEEE 1588, 4 MANUAL. -/
def measureUnc (src : Nat) : Nat := if src = 1 then 2 else if src = 4 then 0xFFFFFFFF else 20

/-- A correction under R155. The Option holds the custody time before a step. -/
def Dev.correct (d : Dev) (src : Nat) (o : Int) : Option Nat × Dev :=
  let thr : Int := (d.time.cfg.stepThr : Int) * 4294967296 / 1000000
  if thr < o && d.time.cfg.stepEn then
    let old := d.now
    let d := d.onServo fun s =>
      { s with acc := ((s.acc : Int) + o * 4294967296).toNat % 2 ^ 96, slew := 0, uncorrected := 0,
               base := measureUnc src, baseAt := d.clk }
    (some old, ((d.timeErr 1).refreshBound).logEvent 0x083 2 (le 8 old))
  else
    let d := d.onServo fun s => { s with slew := o * 4294967296, uncorrected := (o * 4294967296).natAbs }
    (none, if o < -thr then d.timeErr 2 else d)

/-- The count towards LOCKED and the count out of it after an applied measurement of offset `o` (R163, R164). -/
def Dev.countMeasure (d : Dev) (src : Nat) (o : Int) (pending : Bool) : Dev :=
  let s := d.time.servo
  if src = 4 then d.onServo fun s => { s with good := 0 }
  else match s.dstate with
    | .acquire =>
      let g := if !exceedsNs o 20 && !pending then s.good + 1 else 0
      if 16 ≤ g then d.enterLocked else d.onServo fun s => { s with good := g }
    | .locked =>
      let b := if exceedsNs o 100 then s.bad + 1 else 0
      if 4 ≤ b then d.enterAcquire else d.onServo fun s => { s with bad := b }
    | _ => d

/-- When each source last delivered a valid measurement, and the timeout of the active source (R161). -/
def Dev.noteSource (d : Dev) (src : Nat) : Dev :=
  d.onServo fun s =>
    { s with lastPps := if src = 1 then some d.clk else s.lastPps,
             lastP2 := if src = 2 then some d.clk else s.lastP2,
             lastP3 := if src = 3 then some d.clk else s.lastP3,
             refAt := if src = d.activeSrc then some (d.clk + ms d.time.cfg.refTo) else s.refAt }

/-- A valid measurement is noted: its source, TIME_OFFSET, and UNCERTAIN where it exceeds TIME_UNC_THR (R161, R164, R167). -/
def Dev.noteOffset (d : Dev) (src : Nat) (o : Int) : Dev :=
  let ns := unitsNs o
  let shown : Int := if 2147483647 < ns then 2147483647 else if ns < -2147483647 then -2147483647 else ns
  (d.noteSource src).onServo fun s =>
    { s with offset := shown, uncertain := s.uncertain || exceedsNs o (d.time.cfg.uncThr * 1000) }

/-- A valid measurement of the running timebase: source and offset in units of 2^-32 s (R155, R161 to R167). -/
def Dev.measure (d : Dev) (src : Nat) (o : Int) : Option Nat × Dev :=
  if !d.time.cfg.discEn then (none, d)
  else
    let d := (d.noteOffset src o).onServo fun s => { s with uncorrected := (o * 4294967296).natAbs }
    if d.time.cfg.forceHold then (none, d.refreshBound)
    else
      let pending := d.time.servo.slew != 0
      let d := d.onServo fun s => { s with srcActive := src }
      let d := match d.time.servo.dstate with
        | .free | .holdover | .startWait => d.enterAcquire
        | _ => d
      let d := if src = 4 then d
        else d.setRate (clampRate (Config.servoRate d.time.cfg.bw d.time.servo.rate o))
      let c := d.correct src o
      (c.1, (c.2.countMeasure src o pending).refreshBound)

/-- The servo takes the other source, which last delivered at `l` (R161). -/
def Dev.switchSource (d : Dev) (l : Nat) : Dev :=
  d.onServo fun s => { s with onSrcB := !s.onSrcB, goodA := 0, refAt := some (l + ms d.time.cfg.refTo) }

/-- A valid measurement of a source that is not active: SRC_A returns after 16 in a row (R161). -/
def Dev.measureIdle (d : Dev) (src : Nat) : Dev :=
  if !d.time.cfg.discEn then d
  else
    let d := d.noteSource src
    if d.time.servo.onSrcB && src == d.time.cfg.srcA then
      if 15 ≤ d.time.servo.goodA then d.switchSource d.clk else d.onServo fun s => { s with goodA := s.goodA + 1 }
    else d

/-- The active source is lost, and one that now delivers takes its place at once (R161, R164). -/
def Dev.takesOver (d : Dev) (src : Nat) : Bool :=
  d.time.servo.run && d.time.cfg.discEn && d.time.servo.refAt.isNone && decide (src ≠ d.activeSrc)
    && (src == d.time.cfg.srcA || src == d.time.cfg.srcB)

/-- The value of the counter log: its valid row with the highest sequence number (R170). -/
def CounterLog.rows (c : CounterLog) : List CounterRow := (c.s14 ++ c.s15).filter fun r => r.good
def CounterLog.newest (c : CounterLog) : Option CounterRow :=
  c.rows.foldl (fun b r => match b with | some q => if q.seq < r.seq then some r else b | none => some r) none
def CounterLog.row (c : CounterLog) : CounterRow := c.newest.getD { seq := 0 }

/-- The next row of the log is programmed: into the other sector when the present one is full, which is then erased once a
valid row stands in the other (R170). A sector holds 128 rows. -/
def CounterLog.put (c : CounterLog) (r : CounterRow) : CounterLog :=
  let full := decide (128 ≤ (if c.hi then c.s15 else c.s14).length)
  let hi := if full then !c.hi else c.hi
  let old := fun (s : List CounterRow) => if r.good && decide (128 ≤ s.length) then [] else s
  if hi then { s14 := old c.s14, s15 := r :: c.s15, hi := true } else { s14 := r :: c.s14, s15 := old c.s15, hi := false }

/-- The load of the main timebase (R156): never below the checkpoint, and the always-on counter takes the loaded
value. -/
def Dev.timeLoad (d : Dev) (value bound : Nat) (measured : Bool) : Dev :=
  let ckpt := d.time.log.row.ckpt
  let raised := decide (value < ckpt)
  let v := if raised then ckpt else value
  let b := if raised then 0xFFFFFFFF else bound
  let d := d.onServo fun s =>
    { s with acc := v * 2 ^ 32, run := true, dstate := if measured then .acquire else .free, ckptUsed := raised,
             slew := 0, rest := 0, uncorrected := 0, base := b, baseAt := d.clk, errBound := b, good := 0, bad := 0,
             rates := [(d.clk, s.rate)], window := none, waitAt := none, refAt := some (d.clk + ms d.time.cfg.refTo) }
  (d.onAonTime fun a => { a with acc := v * 2 ^ 16 }).refreshBound

/-- The load without a measurement: from the always-on counter, or from the last counter-log row (R156). -/
def Dev.timeLoadDefault (d : Dev) : Dev :=
  if d.time.servo.aonLost then d.timeLoad d.time.log.row.ckpt 0xFFFFFFFF false
  else d.timeLoad d.aonTime d.time.aon.bound false

/-- The time-start step (R156, R164): wait for a source where one is configured and TIME_START_WAIT is not zero. -/
def Dev.timeStart (d : Dev) : Dev :=
  let c := d.time.cfg
  if 0 < c.startWait && (c.srcA != 0 || c.srcB != 0) then
    d.onServo fun s => { s with dstate := .startWait, waitAt := some (d.clk + ms c.startWait) }
  else d.timeLoadDefault

/-- A measurement that loads a waiting timebase (R156, R167): the reference is the clock so far plus the offset. -/
def Dev.timeLoadMeasured (d : Dev) (src : Nat) (o : Int) : Dev :=
  ((d.noteOffset src o).timeLoad ((d.aonTime : Int) + o).toNat (measureUnc src) true).onServo fun s => { s with srcActive := src }

/-- A measurement while the timebase waits to start or runs. -/
def Dev.takeMeasure (d : Dev) (src : Nat) (o : Int) : Option Nat × Dev :=
  match d.time.servo.dstate with
  | .stopped => (none, d)
  | .startWait =>
    if !d.time.cfg.discEn then (none, d)
    else if d.time.cfg.forceHold then (none, d.noteOffset src o)
    else (none, d.timeLoadMeasured src o)
  | _ => d.measure src o

/-- A measurement that is not valid breaks a run of SRC_A's (R161). -/
def Dev.breakRun (d : Dev) (src : Nat) : Dev := d.onServo fun s => { s with goodA := if src = d.time.cfg.srcA then 0 else s.goodA }

/-- The whole second that a PPS edge marks (R162): TIME_LABEL when armed, else the nearest to the capture. -/
def Dev.ppsSecond (d : Dev) (cap : Nat) : Nat :=
  if d.time.cfg.labelArm then d.time.cfg.label * 2 ^ 32 else (cap + 2 ^ 31) / 2 ^ 32 * 2 ^ 32

/-- The interval to the previous valid edge is outside the window, and the edge is not the first after a loss
(R162). -/
def Dev.ppsBad (d : Dev) : Bool :=
  match d.time.servo.ppsEdgeAt with
  | none => false
  | some t =>
    let dt := d.clk - t
    decide (dt < ms 900) || (decide (ms 1100 < dt) && decide (dt ≤ ms d.time.cfg.refTo))

/-- A measurement taken now is applied: the discipline is on, the timebase waits or runs, and FORCE_HOLD is clear (R162, R164). -/
def Dev.applies (d : Dev) : Bool :=
  d.time.cfg.discEn && !d.time.cfg.forceHold && decide (d.time.servo.dstate ≠ .stopped)

/-- A PPS edge that R587 does not ignore (R162): captured, checked, and applied while PPS is the active source. A label is used
by the measurement that is applied. -/
def Dev.ppsEdge (d : Dev) : Option Nat × Dev :=
  let cap := d.now
  let d := { d with time := { d.time with cfg := { d.time.cfg with ppsCap := cap } } }
  if d.ppsBad then
    let dt := d.clk - d.time.servo.ppsEdgeAt.getD 0
    (none, ((d.breakRun 1).timeErr 4).logEvent 0x085 1 (le 4 (dt / 1000)))
  else
    let d := d.onServo fun s => { s with ppsEdgeAt := some d.clk }
    let d := if d.takesOver 1 then d.switchSource d.clk else d
    if d.activeSrc = 1 then
      let o : Int := (d.ppsSecond cap : Int) - cap
      let uses := d.applies
      let r := d.takeMeasure 1 o
      (r.1, if uses then { r.2 with time := { r.2.time with cfg := { r.2.time.cfg with labelArm := false } } } else r.2)
    else (none, if d.time.cfg.srcA = 1 || d.time.cfg.srcB = 1 then d.measureIdle 1 else d)

/-- The source that an IEEE 1588 measurement of TIME_MEAS comes from: the configured port; of two, the one that received an event message
last (R163, R266). DESIGN CHOICE (log entry 92): TIME_MEAS names no port. -/
def Dev.ptpSrc (d : Dev) : Option Nat :=
  let ports := [d.activeSrc, d.time.cfg.srcA, d.time.cfg.srcB].filter fun s => s == 2 || s == 3
  match ports with
  | [] => none
  | s :: rest =>
    let stamp := fun (n : Nat) => (d.port n).eth.stampRx
    some (rest.foldl (fun a b => if stamp a < stamp b then b else a) s)

/-- A write of TIME_MEAS_HI submits the 64-bit offset (R163). -/
def Dev.measSubmit (d : Dev) (hi : Word) : Option Nat × Dev :=
  let v : Nat := hi.toNat * 4294967296 + d.time.cfg.measLo
  let o : Int := if 9223372036854775808 ≤ v then (v : Int) - 18446744073709551616 else v
  if 2 ^ 62 < o.natAbs then
    (none, (match d.ptpSrc with | some s => d.breakRun s | none => d).timeErr 6)
  else match d.ptpSrc with
    | none => (none, d)
    | some s =>
      let d := if d.takesOver s then d.switchSource d.clk else d
      if s = d.activeSrc then d.takeMeasure s o else (none, d.measureIdle s)

/-- A MANUAL measurement of a host time-set command (R163, R315). -/
def Dev.measManual (d : Dev) (o : Int) : Option Nat × Dev := d.takeMeasure 4 o

/-- When a source last delivered. -/
def Dev.lastOf (d : Dev) (src : Nat) : Option Nat :=
  if src = 1 then d.time.servo.lastPps else if src = 2 then d.time.servo.lastP2
  else if src = 3 then d.time.servo.lastP3 else none

/-- TIME_REF_TO passes with no valid measurement of the active source (R161). -/
def Dev.refTimeout (d : Dev) : Dev :=
  match d.time.servo.refAt with
  | none => d
  | some t =>
    if !d.past t || !d.time.servo.run then d
    else
      let lost := d.activeSrc
      let other := if d.time.servo.onSrcB then d.time.cfg.srcA else d.time.cfg.srcB
      let fresh := match d.lastOf other with
        | some l => if other != 0 && decide (d.clk ≤ l + ms d.time.cfg.refTo) then some l else none
        | none => none
      let d := d.onServo fun s => { s with refAt := none, ppsEdgeAt := if lost = 1 then none else s.ppsEdgeAt }
      match fresh with
      | some l => d.switchSource l
      | none =>
        let d := d.onServo fun s => { s with srcActive := 0 }
        match d.time.servo.dstate with
        | .acquire | .locked => d.enterHoldover lost
        | _ => d

/-- The end of a slew, whose last part the next edge removes (R155): custody time never steps backwards. -/
def Dev.slewDone (d : Dev) : Dev :=
  let s := d.time.servo
  if s.slew != 0 && decide (s.slew.natAbs ≤ slewStep d.time.cfg.slewMax) then
    (d.onServo fun s => { s with rest := s.slew, slew := 0, uncorrected := 0 }).refreshBound
  else d

/-- TIME_CTRL.LABEL_ARM := 1 (R162). -/
def Dev.labelArm (d : Dev) : Dev :=
  if 0xFFFF0000 < d.time.cfg.label then d.timeErr 0
  else { d with time := { d.time with cfg := { d.time.cfg with labelArm := true } } }

/-- TIME_CTRL.FORCE_HOLD (R164): ignored outside SERVICE and PROVISION. -/
def Dev.forceHold (d : Dev) (on : Bool) : Dev :=
  if d.life.st = .service || d.life.st = .provision then
    let was := d.time.cfg.forceHold
    let d := { d with time := { d.time with cfg := { d.time.cfg with forceHold := on } } }
    if on && !was then
      match d.time.servo.dstate with
      | .acquire | .locked => d.enterHoldover d.activeSrc
      | _ => d
    else d
  else d

/-- The correction of the production curve at a temperature in 0.125 °C, in units of 0.01 ppm ÷ 80 (R158). -/
def curveAt (t : Int) : Int :=
  if t ≤ -320 then 80 * Config.curve 0
  else if 880 ≤ t then 80 * Config.curve 15
  else
    let i := ((t + 320) / 80).toNat
    let f := (t + 320) % 80
    80 * Config.curve i + (Config.curve (i + 1) - Config.curve i) * f

/-- The always-on increment is formed anew (R158); while the crystal runs, that of the RC oscillator is calibrated against it (R160). How
far the counter goes in one of its periods is a free value. -/
def Dev.compensate (d : Dev) (temp : Int) : Dev :=
  let f := d.free
  f.2.onAonTime fun a =>
    let e80 := curveAt temp * 10 + 80 * a.trim   -- 0.001 ppm ÷ 80
    { a with temp := temp, rcInc := if a.onRc then a.rcInc else 1 + f.1 % (2 ^ 32 - 1), corr := roundDiv e80 800,
             inc := (roundDiv (8589934592 * (80000000000 - e80)) 80000000000).toNat }

/-- The end of a 64 s window in LOCKED (R159): the trim follows the rate error of the always-on counter over the window, at most
0.05 ppm, the always-on counter is realigned, and the next window begins. -/
def Dev.trimWindow (d : Dev) : Dev :=
  match d.time.servo.window with
  | some (t, diff0) =>
    if decide (d.time.servo.dstate = .locked) && d.due (t + ms 64000) then
      let diff : Int := (d.now : Int) - d.aonTime - diff0
      let r := roundDiv (diff * 1000000000000000000) (((d.clk - t : Nat) : Int) * 4294967296)
      let r := if 50 < r then 50 else if r < -50 then -50 else r
      (d.onAonTime fun a => { a with trim := a.trim - r, acc := d.now * 2 ^ 16 }).onServo fun s => { s with window := some (d.clk, 0) }
    else d
  | none => d

/-- One edge of the always-on counter, of the crystal or of the RC oscillator; with the main timebase stopped, the bound grows
each second (R158, R160, R166). -/
def AonTime.edge (a : AonTime) (running : Bool) : AonTime :=
  let acc := (a.acc + if a.onRc then a.rcInc else a.inc) % 2 ^ 80
  let newSecond := acc / 2 ^ 48 != a.acc / 2 ^ 48
  let step := if a.xtalFail then 20000000 else if 680 < a.temp then 3000 else 1000
  { a with acc := acc, bound := if newSecond && !running then satBound (a.bound + step) else a.bound }

/-- Operating time: one unit is 56.25 s (R169). -/
def ophUnit : Nat := 56250000000

/-- `ns` nanoseconds of operation pass. -/
def AonTime.operate (a : AonTime) (ns : Nat) : AonTime :=
  let t := a.ophNs + ns
  if t < ophUnit then { a with ophNs := t }
  else { a with ophNs := t - ophUnit, oph := Nat.min (a.oph + 1) 0xFFFFFFFF }

/-- A row of the counter log is programmed, or its program fails and the next row is tried (R170). A third failure in a row sets
CKPT_FAIL and logs COUNTER_LOG_FAIL. -/
def Dev.putRow (d : Dev) (row : CounterRow) : Dev :=
  let n := if row.good then 0 else d.time.logFails + 1
  let d := { d with time := { d.time with log := d.time.log.put row, logFails := if n = 3 then 0 else n } }
  if n = 3 then (d.timeErr 5).logEvent 0x087 3 [] else d

/-- A checkpoint (R157, R170): custody time is that at the moment the row is formed; in STANDBY the always-on counter gives it. -/
def Dev.checkpoint (d : Dev) (ok : Bool) : Dev :=
  let old := d.time.log.row
  let now := if d.time.servo.run then d.now else if d.power.mode = .standby then Nat.max old.ckpt d.aonTime else old.ckpt
  d.putRow { pcyc := d.time.aon.pcyc, oph := d.time.aon.oph, seq := old.seq + 1, good := ok, ckpt := now }

/-- A checkpoint that another operation makes, with its retries on the next rows; whether a row fails is a free value (R157, R170). -/
def Dev.checkpointTries (d : Dev) : Nat → Dev
  | 0 => d
  | n + 1 =>
    let f := d.free
    let ok := decide (f.1 % 2 = 0)
    let d := f.2.checkpoint ok
    if ok then d else d.checkpointTries n

/-- The count of the power cycle that begins (R168). -/
def Dev.nextPcyc (d : Dev) : Nat :=
  let row := d.time.log.row
  let base := if d.time.aon.lost then row.pcyc else Nat.max d.time.aon.pcyc row.pcyc
  if base = 0xFFFFFFFF then base else base + 1

/-- The new power-cycle count, in a new row of the counter log (R168); the operating time of a lost always-on domain comes from
the log, and OPH_RESTORED is logged (R169). -/
def Dev.newPowerCycle (d : Dev) : Dev :=
  let row := d.time.log.row
  let noRow := d.time.log.newest.isNone
  let lost := d.time.aon.lost
  let pc := d.nextPcyc
  let d := d.onAonTime fun a => { a with pcyc := pc, oph := if lost then row.oph else a.oph, lost := false }
  let d := d.onServo fun s => { s with aonLost := lost, uncertain := s.uncertain || lost }
  let d := if lost then d.logEvent 0x086 2 (le 4 row.oph) else d
  let d := if noRow then d.logEvent 0x087 3 [] else d
  d.checkpoint true

/-- The row of the new power cycle fails to program: no count is consumed, and the next row is tried before the start goes on
(R156, R168, R170). -/
def Dev.powerCycleFails (d : Dev) : Dev :=
  let row := d.time.log.row
  d.putRow { pcyc := d.nextPcyc, oph := if d.time.aon.lost then row.oph else d.time.aon.oph, seq := row.seq + 1, ckpt := row.ckpt,
             good := false }

/-- The clock that alarms compare with (R171). -/
def Dev.alarmDue (d : Dev) (n : Nat) : Bool :=
  let a := vget d.time.aon.alarms n {}
  a.en && decide (a.value ≤ d.now)

/-- An alarm fires (R171): FIRED, which raises the time interrupt, and the next value or EN clear. -/
def Dev.alarmFire (d : Dev) (n : Nat) : Dev :=
  d.onAonTime fun t =>
    { t with alarms := vupd t.alarms n fun a =>
        { a with fired := true, en := decide (a.per ≠ 0), value := if a.per = 0 then a.value else (a.value + a.per * 2 ^ 32) % 2 ^ 64 } }

/-- The main timebase stops (R156, R164): the always-on counter carries the bound on (R166). -/
def Dev.timeStop (d : Dev) : Dev :=
  if d.time.servo.run then
    let b := d.boundNow
    (d.onAonTime fun a => { a with bound := b }).onServo fun s =>
      { s with run := false, dstate := .stopped, srcActive := 0, slew := 0, refAt := none, waitAt := none }
  else d.onServo fun s => { s with dstate := .stopped, waitAt := none }

/-- A read of a LO register latches the whole value for the requester; a HI read returns the high half of its latch
(R174). -/
def Time.latch (t : Time) (who : Requester) (reg value : Nat) : Time :=
  { t with latches := { who := who, reg := reg, value := value } ::
      t.latches.filter fun l => !(l.who == who && l.reg == reg) }
def Time.latched (t : Time) (who : Requester) (reg : Nat) : Nat :=
  match t.latches.find? fun l => l.who == who && l.reg == reg with
  | some l => l.value
  | none => 0

end Sys2Proof.Machine
end

