-- ==== Sys2Proof/Machine/WagOps.lean ====
section
/-! DEFINITION. The waggle tree: issue, endpoint edges, barriers, acknowledgements (R98 to R105, R123). -/
namespace Sys2Proof.Machine

/-- Change the WAG_ block, and a comb controller's endpoint. -/
def Dev.onWag (d : Dev) (f : Wag → Wag) : Dev := { d with wag := f d.wag }
def Dev.onEp (d : Dev) (c : Nat) (f : WagEp → WagEp) : Dev := { d with wagEps := vupd d.wagEps c f }

/-- Endpoint numbers of the part (R98). -/
def Dev.endpoints (d : Dev) : List Nat :=
  List.range d.nLanes ++ (List.range d.nCombs).map (64 + ·) ++ (List.range 8).map (72 + ·)

/-- An endpoint takes part by WAG_MASK (R123). -/
def Wag.masked (w : Wag) (e : Nat) : Bool :=
  if e < 32 then flag w.mask0 e else if e < 64 then flag w.mask1 (e - 32) else flag w.mask2 (e - 64)
def Dev.maskedEps (d : Dev) : List Nat := d.endpoints.filter d.wag.masked

/-- A request joins the pending ones, one of each kind (R101). -/
def Dev.wagRequest (d : Dev) (op : WagOp) : Dev :=
  if d.wag.pending.contains op then d.onWag fun w => { w with busyRefused := true }
  else d.onWag fun w => { w with pending := w.pending ++ [op], soft := w.soft || op == .snapshot }

/-- A reset of a core: registers and MPU at their reset values, memories as they are (R489). -/
def Core.afterReset (c : Core) : Core := { dmem := c.dmem, imem := c.imem }

/-- RESET at its endpoints (R104, R355): a lane that R91 would refuse refuses. -/
def Dev.resetEndpoint (d : Dev) (e : Nat) : Dev :=
  if e < 64 then
    if (d.lane e).resettable then d.onLane e Lane.afterReset
    else d.onWag fun w =>
      { (if e < 32 then { w with refused0 := setBit w.refused0 e } else { w with refused1 := setBit w.refused1 (e - 32) }) with resetPartial := true }
  else if e < 72 then (d.onCore (1 + (e - 64)) Core.afterReset).onEp (e - 64) fun _ => {}
  else
    let t := e - 72
    let ends := ((d.tile t).running.toList ++ (d.tile t).parked).flatMap fun j => j.failed 3
    (d.tileReset t).each ends Dev.jobEnded

/-- An operation acts at its endpoints on the endpoint edge; a snapshot's capture is a command of its own (R99, R106). -/
def Dev.wagEdge (d : Dev) (f : Flight) : Dev :=
  if f.acted || f.op = .snapshot || d.clk < f.edgeAt then d
  else
    let d := d.onWag fun w => { w with flights := w.flights.map fun g => if g = f then { g with acted := true } else g }
    match f.op with
    | .broadcast => d.each (f.eps.filter fun e => decide (64 ≤ e) && decide (e < 72)) fun d e =>
        d.onEp (e - 64) fun p => { p with bcast := true, word := f.word }
    | .reset =>
      (d.onWag fun w => { w with refused0 := 0#32, refused1 := 0#32, refused2 := 0#32 }).each f.eps Dev.resetEndpoint
    | _ => d
def Dev.wagEdges (d : Dev) : Dev := d.each d.wag.flights Dev.wagEdge

/-- The hive sequencer waits for a reserved slot: nanoseconds to the edge of the next boundary or of the armed time
(R102, R120). -/
def Dev.nextSlot (d : Dev) : Option Nat :=
  if !(d.time.servo.run && d.hiveTakes) then none
  else
    let b := d.nsUntil (d.boundaryNext d.hive.period)
    if d.hive.atArmed then some (Nat.min b (d.nsUntil d.hive.atTime)) else some b

/-- No other operation issues within the 24 cycles before a reserved slot, nor in the slot (R102). -/
def Dev.inGuard (d : Dev) : Bool :=
  match d.nextSlot with
  | some n => decide (n ≤ d.wagHalf + 24)
  | none => false

/-- An issue may follow the last one now (R101). -/
def Dev.spaced (d : Dev) : Bool :=
  match d.wag.lastIssue with
  | some t => decide (t + 24 ≤ d.clk)
  | none => true

/-- The shadows of the last snapshot are not read yet (R107). -/
def Dev.unread (d : Dev) : Bool := decide (d.clk < d.hive.readAt)

/-- CAPTURE is entered from ARMED when a snapshot for a receipt issues (R124). -/
def Dev.captures (d : Dev) : Dev := d.onHive fun h => if h.st = .armed then { h with st := .capture } else h

/-- The pending operation that issues next (R101). -/
def Dev.wagNext (d : Dev) : Option WagOp :=
  [WagOp.snapshot, .reset, .barrier, .broadcast].find? fun o =>
    d.wag.pending.contains o
      && (match o with
        | .snapshot => !d.unread
        | .barrier => d.wag.barrier.isNone
        | _ => true)

/-- A barrier is issued: masked lanes and tiles have arrived, and so have arrivals held for its identifier (R103). -/
def Dev.barrierIssue (d : Dev) : Dev :=
  let id := d.wag.barNext
  let here := fun (e : Nat) => d.wag.heldArrivals.contains (id, e - 64)
  let waits := d.maskedEps.filter fun e => decide (64 ≤ e) && decide (e < 72) && !here e
  d.onWag fun w =>
    { w with barrier := some (id, waits), heldArrivals := w.heldArrivals.filter (fun h => h.1 != id),
             releaseAt := if waits.isEmpty then some (d.clk + d.wagWhole) else none,
             barAt := if w.barTimeout = 0 then none else some (d.clk + w.barTimeout * 1000) }

/-- The root issues the next pending operation, if it may (R99, R101, R102). -/
def Dev.wagIssue (d : Dev) : Dev :=
  if !d.spaced || d.inGuard then d
  else
    match d.wagNext with
    | none => d
    | some o =>
      let d := d.onWag fun w => { w with pending := w.pending.filter (· != o), lastIssue := some d.clk }
      if o = .barrier then d.barrierIssue
      else
        let why := if o = .snapshot && d.receipts.demand && !d.wag.soft then SnapFor.demand else SnapFor.software
        let d := if why = .demand then
            (d.onReceipts fun r => { r with demand := false, taken := r.demandFor, demandFor := [] }).captures
          else if o = .snapshot then
            d.onWag fun w => { w with soft := false, pending := if d.receipts.demand then w.pending ++ [.snapshot] else w.pending }
          else d
        let f : Flight := { op := o, edgeAt := d.clk + d.wagHalf, dueAt := d.clk + d.wagWhole, why := why, eps := d.maskedEps,
                            word := d.wag.bcast }
        d.onWag fun w => { w with flights := w.flights ++ [f] }

/-- SNAPSHOT_ISSUE: in its reserved slot, the snapshot of a periodic boundary or of the armed time is issued (R102, R110,
R120). A time whose slot falls in the guard window of a boundary is left to the periodic snapshot; one held back by an unread
shadow, or by the spacing of issues, issues when it may (R101, R107). -/
def Dev.snapshotIssue (d : Dev) : Dev :=
  if !(d.time.servo.run && d.hiveRuns && d.hiveTakes) then d
  else
    let toB := d.nsUntil (d.boundaryNext d.hive.period)
    let toT := d.nsUntil d.hive.atTime
    let fly := fun (why : SnapFor) (n : Nat) =>
      if d.wag.flights.any fun f => f.why == why && (why == .periodic || f.at_ == d.hive.atTime) then d
      else d.onWag fun w =>
        { w with flights := w.flights ++ [{ op := .snapshot, edgeAt := d.clk + n, dueAt := d.clk + n + d.wagHalf, why := why, at_ := d.hive.atTime }],
                 lastIssue := some d.clk }
    if toB ≤ d.wagHalf then (fly .periodic toB).captures
    else if d.hive.atArmed && toT ≤ d.wagHalf && d.wagHalf + 24 < toB && d.spaced && !d.unread then
      (fly .at_ (if toT = 0 then d.wagHalf else toT)).captures
    else d

/-- WAG_OP_COMPLETE: the acknowledgement of the oldest operation reaches the root (R99, R123). -/
def Dev.wagComplete (d : Dev) : Dev :=
  let d := d.wagEdges
  match d.wag.flights with
  | [] => d
  | f :: rest =>
    if !(f.acted && d.due f.dueAt) then d
    else
      let d := d.onWag fun w => { w with flights := rest, lastOp := f.op.code, done := true }
      let d := if f.op = .snapshot && f.why != .software && d.hive.st = .capture then d.onHive fun h => { h with st := .hash } else d
      d.wagIssue

/-- WAG_ACK_LIMIT_EXPIRY: endpoint `ep` has stayed silent (R105). -/
def Dev.ackLimit (d : Dev) (ep : Nat) : Dev :=
  match d.wag.flights with
  | [] => d
  | f :: rest =>
    if !d.past (f.dueAt + 16) then d
    else
      let d := d.onWag fun w => { w with flights := rest, noAck := true, noAckEp := ep % 128, noAckValid := true }
      let d := d.logEvent 0x082 3 [u8 ep, u8 f.op.code]
      if f.op = .snapshot && f.why != .software then d.snapshotFailed f else d

/-- The waiting comb controllers of a barrier are released (R103). -/
def Dev.releaseAll (d : Dev) (id : Nat) (timeout : Bool) : Dev :=
  let d := d.each (List.range d.nCombs) fun d c => d.onEp c fun e =>
    if e.waiting && e.barId == id then
      { e with waiting := false, released := e.released || !timeout, timedOut := e.timedOut || timeout } else e
  d.onWag fun w => { w with barrier := none, releaseAt := none, barAt := none }

/-- BARRIER_RELEASE (R103). -/
def Dev.barrierRelease (d : Dev) : Dev :=
  match d.wag.barrier, d.wag.releaseAt with
  | some (id, _), some t =>
    if d.due t then ((d.releaseAll id false).onWag fun w => { w with lastOp := WagOp.barrier.code, done := true }).wagIssue else d
  | _, _ => d

/-- WAG_BAR_TIMEOUT_EXPIRY; arrival wins (R103). -/
def Dev.barrierTimeout (d : Dev) : Dev :=
  match d.wag.barrier, d.wag.barAt with
  | some (id, waits), some t =>
    if d.past t && !waits.isEmpty then ((d.releaseAll id true).onWag fun w => { w with barTimeoutF := true }).wagIssue else d
  | _, _ => d

/-- WAG_EP_ARRIVE of comb controller `c` (R103). -/
def Dev.arrive (d : Dev) (c id : Nat) : Dev :=
  if d.nCombs ≤ c then d
  else
    let id := id % 16
    let d := d.onEp c fun e => { e with waiting := true, barId := id }
    let hold := fun (d : Dev) => d.onWag fun w => { w with heldArrivals := w.heldArrivals ++ [(id, c)] }
    match d.wag.barrier with
    | some (i, waits) =>
      if i = id && waits.contains (64 + c) then
        let left := waits.filter (· != 64 + c)
        d.onWag fun w =>
          { w with barrier := some (i, left), releaseAt := if left.isEmpty then some (d.clk + d.wagWhole) else w.releaseAt }
      else if i = id then d
      else hold d
    | none => hold d

end Sys2Proof.Machine
end

