-- ==== Sys2Proof/Machine/ModeOps.lean ====
section
/-! DEFINITION. Mode transitions, wake, the reset of the main-powered blocks, the triggers of CLOSE, the debug level, and
the registers that settings load (R217 to R230, R238, R336, R451). -/
namespace Sys2Proof.Machine

/-! ### The debug level -/

/-- Change the DBG_ block. -/
def Dev.onDebug (d : Dev) (f : Debug → Debug) : Dev := { d with dbg := f d.dbg }

/-- The level returns to CLOSED, and every halted core is released (R451); the hive sequencer runs again after FULL
(R452). -/
def Dev.debugClose (d : Dev) : Dev :=
  (d.onDebug fun g => { g with level := .closed, until_ := none, halted := 0, step := 0 }).hiveSettle

/-- The level of a main power-up and of entry to RETIRED (R442, R448). -/
def restLevel (st : LcSt) : DbgLevel := if st = .blank || st = .retired then .full else .closed

/-! ### Settings and their registers -/

/-- Change the timebase registers, and an Ethernet port's. -/
def Dev.onTimeCfg (d : Dev) (f : TimeCfg → TimeCfg) : Dev := { d with time := { d.time with cfg := f d.time.cfg } }
def Dev.onEth (d : Dev) (p : Nat) (f : Eth → Eth) : Dev := d.onPort p fun q => { q with eth := f q.eth }

/-- STG_CFG as one value, and from one (R216). -/
def Staging.cfgReg (s : Staging) : Nat := s.channels + s.ranks * 4 + s.density * 8 + s.speed * 32
def Staging.withCfg (s : Staging) (v : Nat) : Staging :=
  { s with channels := v % 4, ranks := v >>> 2 % 2, density := v >>> 3 % 4, speed := v >>> 5 % 4 }

/-- TIME_REF_CFG from one value (R173). -/
def TimeCfg.withRef (c : TimeCfg) (v : Nat) : TimeCfg :=
  { c with srcA := v % 8, srcB := v >>> 3 % 8, ppsFall := v.testBit 6, bw := v >>> 8 % 4 }

/-- A setting that takes effect at a commit loads into its register (R335, R336); `boot` loads the registers of a main
power-up, where the others load too. -/
def Dev.loadSetting (d : Dev) (boot : Bool) (id : Nat) : Dev :=
  let v := d.setting id
  match id with
  | 0x02 => d.onPorts fun c => { c with chalTime := v }
  | 0x03 => d.onPorts fun c => { c with lockout := v }
  | 0x04 => d.onPorts fun c => { c with idle := v }
  | 0x10 => d.onTimeCfg fun c => c.withRef v
  | 0x11 => if boot then d.onTimeCfg fun c => { c with startWait := v } else d
  | 0x12 => d.onTimeCfg fun c => { c with stepThr := v }
  | 0x13 => d.onTimeCfg fun c => { c with uncThr := v }
  | 0x14 => d.onTimeCfg fun c => { c with slewMax := v }
  | 0x15 => d.onTimeCfg fun c => { c with refTo := v }
  | 0x16 => d.onTimeCfg fun c => { c with hoStab := v }
  | 0x20 => if boot then d.onHive fun h => { h with period := v, periodNext := v } else (d.periodNext v).2
  | 0x21 => if boot then d.onHive fun h => { h with epoch := v, epochNext := v } else (d.epochNext v).2
  | 0x22 => if boot then d.onKeys fun k => { k with epochS := v } else d
  | 0x23 => d.onKeys fun k => { k with fresh := v }
  | 0x30 => d.onPower fun p => { p with wakeEn := lo32 v }
  | 0x31 => d.onPower fun p => { p with wakeGpio := lo32 v }
  | 0x32 => d.onPower fun p => { p with wakePol := lo32 v }
  | 0x40 => d.onStore fun s => { s with trig := { s.trig with en := lo32 v } }
  | 0x41 => d.onStore fun s => { s with trig := { s.trig with pol := lo32 v } }
  | 0x42 => d.onStore fun s => { s with trig := { s.trig with deb := v } }
  | 0x50 => if boot then d.onEth 2 fun e => { e with cfg := v } else d
  | 0x51 => if boot then d.onEth 3 fun e => { e with cfg := v } else d
  | 0x54 => d.onEth 2 fun e => { e with latTx := v % 65536, latRx := v >>> 16 }
  | 0x55 => d.onEth 3 fun e => { e with latTx := v % 65536, latRx := v >>> 16 }
  | 0x57 => (d.onEth 2 fun e => { e with reasm := v }).onEth 3 fun e => { e with reasm := v }
  | 0x58 => (d.onEth 2 fun e => { e with retx := v }).onEth 3 fun e => { e with retx := v }
  | 0x60 => if boot then { d with staging := d.staging.withCfg v } else d
  | 0x61 => { d with staging := { d.staging with laneMax := v } }
  | _ => d

/-- Every register that takes its reset value from the settings. -/
def Dev.loadRegs (d : Dev) : Dev := d.loadSettings.each settingIds fun d id => d.loadSetting true id

/-! ### Reset of the main-powered blocks -/

/-- What the key store keeps without main power: key RAM, the key log and OTP; the KEK slots are made anew (R375). -/
def Keys.powerUp (k : Keys) : Keys :=
  { slots := k.slots.filter fun e => e.1 != 65 && e.1 != 66 && e.1 != 67,
    trust := k.trust, cert := k.cert, counter := k.counter, huk := k.huk, hukDead := k.hukDead, g := k.g,
    gPending := k.gPending, identityPub := k.identityPub, idDigest := k.idDigest, log := k.log, nextRec := k.nextRec, half := k.half,
    meas := { fwMin := k.meas.fwMin, extMin := k.meas.extMin } }

/-- What code flash keeps (R512, R528, R529). -/
def CodeFlash.powerUp (c : CodeFlash) : CodeFlash :=
  { mem := c.mem, locked := c.locked, seals := c.seals, wipes := c.wipes, runBank := c.runBank,
    bank0 := { act := c.bank0.act, factory := c.bank0.factory, erased := c.bank0.erased, bad := c.bank0.bad, torn := c.bank0.torn },
    bank1 := { act := c.bank1.act, factory := c.bank1.factory, erased := c.bank1.erased, bad := c.bank1.bad, torn := c.bank1.torn } }

/-- What the field link keeps: its memory, and the tag with its identifier and session (R538, R556). -/
def FieldLink.powerUp (l : FieldLink) : FieldLink :=
  { tag := l.tag, ident := l.ident, fallback := l.fallback, fromPool := l.fromPool, fails := l.fails, lockAt := l.lockAt,
    sess := l.sess, lastEnd := l.lastEnd, lastCommit := l.lastCommit, mem := l.mem }

/-- What OTP keeps of the tamper monitors (R419, R420). -/
def Tamper.powerUp (t : Tamper) : Tamper := { tec1 := t.tec1, tec2 := t.tec2, slots := t.slots }

/-- A life-cycle entry whose programming was cut (R439): some of the bits of its code, a free value; a whole code does not
stand, for its commit edge was not reached. -/
def Dev.cutEntry (d : Dev) : Dev :=
  match d.life.going with
  | some g =>
    if g.marked then
      let code := g.target.code * 16 + (15 - g.target.code)
      let f := d.free
      let v := code &&& f.1
      let d := f.2
      if v = 0 || v = code then d else { d with life := { d.life with entries := d.life.entries ++ [v] } }
    else d
  | none => d

/-- Everything outside the always-on domain, OTP and the flash memories is reset (R6, R238). That a receipt was dropped, and that the
sequencer stood still, is kept for the next receipt (R112, R113; log entry 74). -/
def Dev.mainReset (d : Dev) : Dev :=
  let d := d.timeStop.flashAbort.cutEntry
  { d with
    supply := { d.supply with clocks := false },
    lanes := Vector.replicate 64 {}, combs := Vector.replicate 8 {}, arb := {}, hive := { gapDrop := d.hive.gapDrop, gapMode := true }, receipts := {}, wag := {},
    wagEps := Vector.replicate 8 {},
    time := { aon := d.time.aon, log := d.time.log, logFails := d.time.logFails },
    store := d.store.powerUp d.variant, staging := {},
    power := { mode := .test, pfail := d.power.pfail, wakeEn := d.power.wakeEn, wakeGpio := d.power.wakeGpio,
               wakePol := d.power.wakePol, wakeSrc := d.power.wakeSrc, wakeAsked := d.power.wakeAsked,
               noPfail := d.power.noPfail, closeCut := d.power.closeCut, safeOff := d.power.safeOff },
    close := {}, ports := Vector.replicate 5 {}, portsCfg := {}, waits := [], exports := [], tiles := {},
    keys := d.keys.powerUp, rng := {}, tamper := d.tamper.powerUp, log := d.log.powerUp,
    life := { st := d.life.st, entries := d.life.entries, pendingTampered := d.life.pendingTampered,
              eraseLeft := d.life.eraseLeft },
    dbg := { level := restLevel d.life.st }, cores := Vector.replicate 9 {}, flash := d.flash.powerUp,
    settings := { vals := d.settings.vals, generation := d.settings.generation, defaulted := d.settings.defaulted },
    field := d.field.powerUp }

/-- A main power-up, by PGOOD or as a close restart: the start-up sequence begins at its reset hold (R227, R238). -/
def Dev.powerUp (d : Dev) : Dev :=
  d.mainReset.onPower fun p =>
    { p with startStep := .reset, holdAt := some (d.clk + 100000), wakeAsked := false, safeOff := false,
             wakeSrc := if p.wakeAsked then p.wakeSrc else 0x1000#32 }

/-- A close restart (R238): MAIN_EN is asserted again where an orderly shutdown had released it. -/
def Dev.closeRestart (d : Dev) : Dev :=
  let d := d.onPower fun p => { p with wakeAsked := true }
  let d := { d with supply := { d.supply with mainEn := true } }
  d.powerUp

/-! ### Triggers of CLOSE -/

/-- The stop edge of a close, with everything that ends at it (R36, R231, R252, R332, R451, R528, R561). -/
def Dev.closeStart (d : Dev) (cause : CloseCause) (resp : Nat) : Dev :=
  let d := (d.closeBegin cause resp).readerStop.endSessions.debugClose.flashAbort
  { d with settings := { d.settings with shadow := none } }

/-- Close-done: the fast clocks stop (R238). -/
def Dev.closeDone (d : Dev) : Dev :=
  let d := d.timeStop
  let d := { d with supply := { d.supply with clocks := false }, rng := d.rng.clocksOff }
  d.onPower fun p => { p with closeDone := true, closeStep := .done, lastValid := p.lastValid || p.lastDuration != 0 }

/-- SAFE_OFF is set and MAIN_EN deasserted (R222, R238). -/
def Dev.safeOff (d : Dev) : Dev :=
  let d := { d with supply := { d.supply with mainEn := false } }
  (d.onPower fun p => { p with safeOff := true }).send (.pin .pwrMainEn false)

/-- What follows a close without records: the behaviour of R238 for its cause (R223). The mode is CLOSE while the device
stays in close-done. -/
def Dev.quietAfter (d : Dev) (a : AfterClose) : Dev :=
  match a with
  | .restartNow => d.closeRestart
  | .stopped =>
    (((d.setMode .close).onPower fun p => { p with target := none, shutdown := false }).onClose fun _ => { after := .stopped, recordDone := true }).endSessions.debugClose.flashAbort.closeDone
  | _ => d

/-- A trigger of CLOSE with a tamper response or for a supervisor fault: a close in RECORD and INGEST; another cause in
CLOSE; elsewhere no records are written, and the trigger is logged (R36, R223, R237). -/
def Dev.closeTrigger (d : Dev) (cause : CloseCause) (resp : Nat) : Dev :=
  let a := afterOf cause resp
  match d.power.mode with
  | .record | .ingest => d.closeStart cause resp
  | .close =>
    if d.power.closeDone then
      let b := d.close.after.join a
      let d := d.closeJoin a
      if b = .restartNow && d.close.after = .restartNow then d.closeRestart else d
    else d.closeJoin a
  | .vault | .field => d
  | m => (d.logEvent 0x019 1 [u8 cause.code, u8 m.code]).quietAfter a

/-! ### Wake -/

/-- The fast clocks start after STANDBY: the timebase starts again, random sources test themselves and the store verifies
its index; the transition to IDLE is under way (R219, R225, R397). -/
def Dev.wakeStandby (d : Dev) : Dev :=
  let d := { d with supply := { d.supply with clocks := true, mainEn := true } }
  let d := if d.power.safeOff then d.send (.pin .pwrMainEn true) else d
  let d := d.onPower fun p => { p with safeOff := false, target := some .idle }
  (d.timeStart.rngWake).onStore fun s => { s with st := .scan }

/-- A wake from VAULT: MAIN_EN asks the board for the main rails (R226). -/
def Dev.wakeVault (d : Dev) : Dev :=
  let d := { d with supply := { d.supply with mainEn := true } }
  (d.onPower fun p => { p with wakeAsked := true, safeOff := false }).send (.pin .pwrMainEn true)

/-- Two sources at one wake edge: PWR_WAKE_SRC shows both, and of two GPIO lines the lower (R224). -/
def joinSrc (a b : Nat) : Nat :=
  let line := if !a.testBit 6 then bitsAt b 7 5 else if !b.testBit 6 then bitsAt a 7 5 else Nat.min (bitsAt a 7 5) (bitsAt b 7 5)
  bitsAt (a ||| b) 0 7 + line * 2 ^ 7

/-- A wake source is active: `src` is what PWR_WAKE_SRC shows for it, `vault` says that it wakes from VAULT too. A source at the wake
edge itself is recorded beside the first one (R224, R225, R238). A wake during IDLE to STANDBY ends the transition, an orderly
shutdown's too, and answers the command that waits for it (log entry 76). -/
def Dev.wakeBy (d : Dev) (src : Nat) (vault : Bool) : Dev :=
  let seen := fun (d : Dev) => d.onPower fun p => { p with wakeSrc := lo32 src, wakeAt := some d.clk }
  let joined := if d.power.wakeAt = some d.clk then d.onPower fun p => { p with wakeSrc := lo32 (joinSrc p.wakeSrc.toNat src) } else d
  match d.power.mode with
  | .standby => if d.power.target = some .idle then joined else (seen d).wakeStandby
  | .idle =>
    if d.power.target = some .standby then
      ((seen d).onPower fun p => { p with target := none, shutdown := false }).finish .mode id
    else joined
  | .vault => if !vault then d else if d.power.wakeAsked then joined else (seen d).wakeVault
  | .close => if d.power.closeDone && d.close.after = .onWake then (seen d).closeRestart else d
  | _ => d

/-- A source of PWR_WAKE_EN (R224): 0 management port, 1 and 2 PCIe, 3 field link, 4 tamper, 5 alarm. -/
def Dev.wake (d : Dev) (bit : Nat) : Dev :=
  if flag d.power.wakeEn bit then d.wakeBy (2 ^ bit) (bit == 4 || bit == 5) else d

/-- A GPIO line's wake edge. -/
def Dev.wakeGpio (d : Dev) (line : Nat) : Dev :=
  if flag d.power.wakeGpio line then d.wakeBy (64 + line * 128) (decide (line < 8)) else d

/-! ### Transitions -/

/-- The mode that a REQ code names. -/
def Mode.ofReq : Nat → Option Mode
  | 2 => some .standby | 3 => some .idle | 4 => some .record | 5 => some .ingest | _ => none

/-- A context is open on some lane; a stored stream is open (R221). -/
def Dev.anyOpen (d : Dev) : Bool := d.lanes.toList.any fun l => decide (l.ctx0.dir ≠ .closed) || decide (l.ctx1.dir ≠ .closed)
def Dev.anyStoredOpen (d : Dev) : Bool :=
  d.lanes.toList.any fun l => decide (l.ctx0.dir = .seal) && decide (l.ctx0.policy ≠ .host)

/-- Staging is out of the way: OFF, or FAULT without a staged segment, which ends on leaving INGEST (R207, R216; log entry 77). -/
def Dev.stagingIdle (d : Dev) : Bool := d.staging.st = .off || (d.staging.st = .fault && d.stagedSegs == 0)

/-- The row of R221 for the current mode and a target exists, and its conditions hold. -/
def Dev.mayGo (d : Dev) (m : Mode) : Bool :=
  let full := decide (d.dbg.level = .full)
  let custody := d.life.st = .fleet || d.life.st = .service
  match d.power.mode, m with
  | .idle, .record => custody && !full
  | .idle, .ingest => custody && !full
  | .record, .ingest => !full
  | .ingest, .record => !full && d.stagingIdle && decide (d.combsOn ≤ 2)
  | .record, .idle => !d.anyOpen && d.stagingIdle
  | .ingest, .idle => !d.anyOpen && d.stagingIdle
  | .idle, .standby => d.store.queue.sqTail == d.store.queue.sqHead && d.store.queue.running.isEmpty && !d.anyStoredOpen && !d.tilesBusy
  | .test, .idle => d.power.startStep = .recovery && !d.tilesBusy && !d.power.pfail
  | _, _ => false

/-- The recovery entry to TEST (R230). -/
def Dev.mayRecover (d : Dev) : Bool :=
  (d.power.mode = .idle || d.power.mode = .record || d.power.mode = .ingest) && !d.anyOpen && d.staging.st = .off
    && d.power.target.isNone

/-- A request to leave INGEST takes staging from READY to DRAIN (R207, R216); a request that something else refuses has no side effect
(R221; log entry 77). -/
def Dev.askDrain (d : Dev) (ok : Dev → Bool) : Dev :=
  let put := fun (st : StgSt) => ({ d with staging := { d.staging with st := st } } : Dev)
  if d.power.mode = .ingest && d.staging.st = .ready && ok (put .off) then put .drain else d

/-- The outcome of a request stands in LAST_STATUS; a refusal sets REFUSED (R221, R246). -/
def Dev.goStatus (d : Dev) (st : Status) : Dev :=
  let d := d.onPower fun p => { p with lastStatus := st.code }
  if st = .ok then d else d.powerErr 1

/-- PWR_CTRL.GO with a REQ (R221): the status, and the transition started. A code that names no mode leaves REQ as it was (R246). A
request to leave INGEST that staging holds up is refused and starts the drain that a later one waits for (R216; log entry 77). -/
def Dev.modeRequest (d : Dev) (req : Nat) : Status × Dev :=
  match Mode.ofReq (req % 8) with
  | none => (.modeInvalid, d.goStatus .modeInvalid)
  | some m =>
    let d := d.onPower fun p => { p with req := req % 8 }
    if d.power.target.isSome then (.modeBusy, d.goStatus .modeBusy)
    else if d.power.mode = .test && d.power.startStep ≠ .recovery then (.closePending, d.goStatus .closePending)
    else if d.power.mode = m then (.ok, d.goStatus .ok)
    else if d.mayGo m then (.ok, (d.goStatus .ok).onPower fun p => { p with target := some m })
    else (.modePrecond, (d.askDrain (Dev.mayGo · m)).goStatus .modePrecond)

/-- Staging starts to train on entry to INGEST with EN set; the settings' configuration loads there (R207, R216, R336). -/
def Dev.stagingEnter (d : Dev) : Dev :=
  if d.staging.en then
    { d with staging := { (d.staging.withCfg (d.setting 0x60)) with st := .train, chPresent := 0 } }
  else { d with staging := d.staging.withCfg (d.setting 0x60) }

/-- Leaving INGEST ends staging (R212, R216). -/
def Dev.stagingLeave (d : Dev) : Dev := { d with staging := { d.staging with st := .off, keys := none, chPresent := 0, pages := [] } }

/-- STANDBY waits for the writer's trailer (R215). -/
def Dev.trailerWaits (d : Dev) (m : Mode) : Bool :=
  decide (m = .standby) && decide (d.store.st = .ready) && d.store.writerEn && (d.store.container.isSome || d.store.pages.any fun j => j.owner == .writer)

/-- A transition that was started completes (R219, R221, R225). -/
def Dev.modeDone (d : Dev) : Dev :=
  match d.power.target with
  | none => d
  | some m =>
    let old := d.power.mode
    if (old = .standby && d.store.st ≠ .ready && d.store.st ≠ .fault) || d.trailerWaits m then d
    else
      let d := (d.setMode m).onPower fun p => { p with target := none }
      let d := if old = .ingest then d.stagingLeave else d
      let d := match m with
        | .ingest => d.stagingEnter
        | .idle => (d.gateAll).onPower fun p => { p with startStep := .done }
        | .test => (d.gateAll).onPower fun p => { p with startStep := .recovery }
        | .standby =>
          let d := (d.gateAll.standbyPool.logStandby).hiveStop false 3
          let d := d.timeStop
          let d := { d with supply := { d.supply with clocks := false }, rng := d.rng.clocksOff }
          (d.onStore fun s => { s with st := if s.st = StoreSt.fault then .fault else .off }).readerStop
        | _ => d
      let d := (d.hiveSettle).tagSettle
      let d := if m = .standby && d.power.shutdown then (d.onPower fun p => { p with shutdown := false }).safeOff else d
      d.finish .mode id

/-- PWR_CTRL.SHUTDOWN and the SHUTDOWN command (R222, R223). -/
def Dev.shutdown (d : Dev) : Dev :=
  match d.power.mode with
  | .record | .ingest => d.closeStart .shutdown 0
  | .idle =>
    let d := d.logEvent 0x019 1 [u8 CloseCause.shutdown.code, u8 d.power.mode.code]
    if d.power.target.isNone && d.mayGo .standby then
      (d.checkpointTries 3).onPower fun p => { p with target := some .standby, shutdown := true }
    else d
  | .standby => ((d.logEvent 0x019 1 [u8 CloseCause.shutdown.code, u8 d.power.mode.code]).checkpointTries 3).safeOff
  | .close => d.closeJoin .onWake
  | _ => d.logEvent 0x019 1 [u8 CloseCause.shutdown.code, u8 d.power.mode.code]

/-- A fatal supervisor fault (R221, R223, R238). -/
def Dev.supervisorFault (d : Dev) : Dev := d.closeTrigger .supervisor 0

end Sys2Proof.Machine
end

