-- ==== Sys2Proof/Machine/TamperOps.lean ====
section
/-! DEFINITION. Tamper monitors: configuration, events, alarms, responses and the evidence counter (R401 to R423, R41 to
R43, R444). -/
namespace Sys2Proof.Machine

/-- Change the TMP_ block, and what the always-on domain keeps of it. -/
def Dev.onTamper (d : Dev) (f : Tamper → Tamper) : Dev := { d with tamper := f d.tamper }
def Dev.onAon (d : Dev) (f : AonTamper → AonTamper) : Dev := { d with aon := f d.aon }
def Dev.tmpErr (d : Dev) (n : Nat) : Dev := d.onTamper fun t => { t with err := setBit t.err n }

/-! ### Configuration -/

/-- The window W in nanoseconds. -/
def windowNs (val unit_ : Nat) : Nat := val * (match unit_ with | 0 => 1000 | 1 => 1000000 | _ => 1000000000)
def ClassCfg.window (k : ClassCfg) : Nat := windowNs k.wVal k.wUnit

/-- The FLEET limits of a class (R404): N at most, W at least (value and unit), response at least. -/
def fleetLimit : Nat → Nat × Nat × Nat × Nat
  | 0 => (16, 100, 0, 1) | 1 => (2, 1, 1, 3) | 2 => (4, 1, 2, 1) | 3 => (4, 1, 1, 4) | 4 => (1, 0, 0, 5)
  | 5 => (4, 10, 1, 1) | 6 => (2, 1, 1, 4) | 7 => (1, 0, 0, 1) | 8 => (4, 1, 2, 3) | 9 => (1, 0, 0, 3)
  | _ => (16, 1, 2, 1)

/-- A class within its FLEET limits. -/
def ClassCfg.fleetOk (k : ClassCfg) (c : Nat) : Bool :=
  let l := fleetLimit c
  decide (k.n ≤ l.1) && decide (windowNs l.2.1 l.2.2.1 ≤ k.window) && decide (l.2.2.2 ≤ k.resp)

/-- A class raised to its FLEET limits (R420). -/
def ClassCfg.raise (k : ClassCfg) (c : Nat) : ClassCfg :=
  let l := fleetLimit c
  let k := { k with n := Nat.min k.n l.1, resp := Nat.max k.resp l.2.2.2 }
  if windowNs l.2.1 l.2.2.1 ≤ k.window then k else { k with wVal := l.2.1, wUnit := l.2.2.1 }

/-- At reset the newest OTP slot loads, or the defaults; in FLEET beyond-limit fields are raised (R420). -/
def Dev.tmpLoad (d : Dev) : Dev :=
  let c := d.tamper.slots.getLast?.getD {}
  let fleet := decide (d.life.st = .fleet)
  let cls := Vector.ofFn fun (i : Fin 11) => if fleet then (vget c.cls i.val {}).raise i.val else vget c.cls i.val {}
  d.onTamper fun t =>
    { t with cfg := { c with cls := cls }, cfgDefault := t.slots.isEmpty, committed := false, fleetRaised := decide (cls ≠ c.cls) }

/-- The configuration fields may be written (R420). -/
def Dev.tmpOpen (d : Dev) : Bool := (d.life.st = .provision || d.life.st = .service) && !d.tamper.committed

/-- TMP_CTRL.CFG_COMMIT (R420). -/
def Dev.tmpCommit (d : Dev) : Dev :=
  if !d.tmpOpen then d
  else if 4 ≤ d.tamper.slots.length then d.tmpErr 1
  else d.onTamper fun t => { t with slots := t.slots ++ [t.cfg], committed := true }

/-! ### Zeroisation and freeze -/

/-- A unit of a lane whose keys vanish: lost unless its segment is formed, under DESTROY unless it is appended (R41,
R42). -/
def MediaUnit.zeroised (u : MediaUnit) (destroy : Bool) : MediaUnit :=
  let keeps := if destroy then decide (u.st = .appended) else !u.segment.isEmpty
  if keeps || u.lost != 0 then u
  else { u with lost := if destroy then 3 else 2, st := .accepted, key := {}, segment := [] }

/-- The key registers of a lane are zero. -/
def Lane.zeroise (l : Lane) (destroy : Bool) : Lane :=
  let wipe := fun (k : Ctx) => { k with key := none, kek := none }
  let us := l.units.map fun u => u.zeroised destroy
  let parkedGone := l.parked.isSome && !us.any fun u => decide (u.st = .suspended)
  let parked := match l.parked with | some p => if parkedGone && !p.verify then none else some p | none => none
  { l with key := none, prev := none, ctx0 := wipe l.ctx0, ctx1 := wipe l.ctx1, units := us, parked := parked,
           caps := l.caps.map fun c => { c with key := none } }

/-- Slots that a PURGE or a DESTROY zeroises (R411): 65 to 67 and 128 to 383, or all. -/
def Dev.zeroiseKeyRam (d : Dev) (destroy : Bool) : Dev :=
  d.zeroiseSlots fun cls => destroy || cls == 1 || cls == 2

/-- The life cycle moves to TAMPERED at the alarm edge of a DESTROY; its entry is pending (R444). -/
def Dev.destroyState (d : Dev) : Dev :=
  if d.life.st = .provision || d.life.st = .fleet || d.life.st = .service then
    let old := d.life.st
    let d := { d with life := { d.life with st := .tampered, pendingTampered := true, going := none, lastFrom := old.code,
                                            lastTo := 4, lastSource := 6, lastTime := d.now } }
    (d.onFieldMem fun m => { m with pendingTampered := true }).logEvent 0x105 3 [u8 old.code, 4#8, 6#8]
  else d

/-- Pending increments of the evidence counter and of the image generation, mirrored in field-page memory (R416). -/
def Dev.evidence (d : Dev) : Dev :=
  d.onAon fun a => let n := Nat.min (a.pending + 1) 255; { a with pending := n, mirror := n }
def Dev.generation (d : Dev) : Dev :=
  let n := Nat.min (d.keys.gPending + 1) 255
  (d.onKeys fun k => { k with gPending := n }).onAon fun a => { a with gMirror := n }

/-- What a PURGE or a DESTROY zeroises beside key RAM (R411). -/
def Dev.zeroiseRest (d : Dev) (destroy : Bool) : Dev :=
  let d := d.onKeys fun k => { k with nextKek := none }
  let d := d.each (List.range d.nLanes) fun d n => d.onLane n fun l => l.zeroise destroy
  let d := ({ d with staging := { d.staging with keys := none } } : Dev).rngPurge destroy
  d.tilesPurge.each d.purgeEnds Dev.jobEnded

/-- A DESTROY makes a close unsigned, and stops the sequencer outside one (R43, R113). -/
def Dev.signless (d : Dev) : Dev :=
  let d := d.onHive fun h => { h with unsigned := true }
  if d.power.mode = .close then d.closeUnsigned else d.hiveStop true 5

/-- The zeroise action of a response, with its increments (R411, R413, R414). -/
def Dev.zeroise (d : Dev) (resp : Nat) : Dev :=
  if resp < 4 then d
  else
    let d := (d.zeroiseKeyRam (resp == 5)).evidence
    let d := if resp = 5 then d.generation.destroyState else d
    if d.power.mode = .vault then d
    else
      (if resp = 5 then d.signless else d).zeroiseRest (resp == 5)

/-- Every lane freezes: intake and DMA stop, and the unit in the engine parks at a block boundary, which block is a free
value (R88). The lane shows FROZEN and sends its notice (R96, R259). A lane in SCHUSS goes on
(R237). -/
def Dev.freezeLane (d : Dev) (n : Nat) : Dev :=
  let l := d.lane n
  if l.st = .active || l.st = .drain then
    let len := match l.inEngine with | some u => u.desc.payloadLen | none => (l.ctx0.job.map Desc.payloadLen).getD 0
    let f := d.free
    let d := if l.parked.isSome then f.2 else f.2.park n (f.1 % (len + 1) / 16 * 16) true
    ((d.onLane n fun l => { (l.stopIntake 0).stopIntake 1 with st := .frozen }).laneIrq n 6).laneNotice n 0
  else d
def Dev.freeze (d : Dev) (resp : Nat) : Dev :=
  if resp < 2 || d.power.mode = .close then d else d.each (List.range d.nLanes) Dev.freezeLane

/-! ### Alarms -/

/-- Severity of TAMPER_ALARM (R435). -/
def alarmSev (resp : Nat) : Nat := if resp = 0 then 1 else if resp = 1 then 2 else 3

/-- An alarm of a class: zeroise, freeze, CLOSE, log; outside RECORD and INGEST the log record comes before what ends the
mode (R41, R223, R411 to R414). -/
def Dev.alarm (d : Dev) (c : Nat) (injected : Bool) : Dev :=
  let k := vget d.tamper.cfg.cls c {}
  let r := k.resp
  let log := fun (d : Dev) => d.logWith 0x141 (alarmSev r) [u8 c, u8 r, u8 k.n] injected
  let vault := decide (d.power.mode = .vault)
  let d := d.onTamper fun t =>
    { t with events := vupd t.events c fun _ => [], lastResp := r, anyAlarm := true, irq := t.irq || decide (1 ≤ r) }
  let d := d.onAon fun a => { a with latch := setBit a.latch c, vaultAlarm := a.vaultAlarm || vault }
  let d := (d.zeroise r).freeze r
  let d := if 2 ≤ r then d.debugClose else d
  let d :=
    if vault || r < 2 then log d
    else if d.power.mode = .record || d.power.mode = .ingest then log (d.closeTrigger .tamper r)
    else (log d).closeTrigger .tamper r
  if 1 ≤ r then d.wake 4 else d

/-- An event counts in the window of its class, and the N-th within W raises the alarm (R403). -/
def Dev.countEvent (d : Dev) (c : Nat) (injected : Bool) : Dev :=
  let k := vget d.tamper.cfg.cls c {}
  let live := (vget d.tamper.events c []).filter fun t => decide (d.clk ≤ t + k.window)
  let d := d.onTamper fun t =>
    { t with events := vupd t.events c fun _ => d.clk :: live, total := vupd t.total c (satInc 16) }
  if k.n ≤ live.length + 1 then d.alarm c injected else d

/-- Events of a class that have left the window are no longer counted (R422). -/
def Dev.windowExpiry (d : Dev) (c : Nat) : Dev :=
  let k := vget d.tamper.cfg.cls c {}
  d.onTamper fun t => { t with events := vupd t.events c fun es => es.filter fun t => decide (d.clk ≤ t + k.window) }

/-- TAMPER_EVENT: class, detectors fired, site. -/
def Dev.logTamper (d : Dev) (c dets site : Nat) (injected : Bool) : Dev :=
  d.logWith 0x140 1 ([u8 c, u8 dets] ++ le 2 site) injected

/-- An internal indication: one event, logged (R401, R409). -/
def Dev.internalEvent (d : Dev) (c : Nat) : Dev := (d.logTamper c 1 0 false).countEvent c false

/-- The corroboration window of a sensor class, ns (R401); a mesh cycle is longer in VAULT (R405), a loop cycle is 32 bits
at 31.25 kb/s (R406). -/
def corrobWindow (c : Nat) (vault : Bool) : Nat :=
  match c with
  | 0 => 100 | 1 => 100 | 2 => ms 10 | 3 => 1000 | 4 => if vault then ms 1 else 2000 | 5 => ms 1 | 6 => 1024000 | _ => 0

/-- What a firing shows at its site (R405, R423). -/
def Dev.siteBits (d : Dev) (c site : Nat) : Dev :=
  d.onAon fun a =>
    if c = 4 && site < 32 then { a with meshFail := setBit a.meshFail site }
    else if c = 3 && site < 32 then { a with lightLo := setBit a.lightLo site }
    else if c = 3 && site < 64 then { a with lightHi := setBit a.lightHi (site - 32) }
    else a

/-- A detector of a sensor class fires (1 A, 2 B, 3 both on one edge), at a site (R402). -/
def Dev.fire (d : Dev) (c det site : Nat) (injected : Bool) : Dev :=
  let d := d.siteBits c site
  if c = 7 || det = 3 then (d.logTamper c det site injected).countEvent c injected
  else
    match d.tamper.corrob.find? fun k => k.cls == c && k.det != det && decide (d.clk ≤ k.until_) with
    | some k => (d.onTamper fun t => { t with corrob := t.corrob.erase k }).logTamper c 3 k.site k.inj
    | none =>
      let k := { cls := c, det := det, site := site, until_ := d.clk + corrobWindow c (d.power.mode = .vault), inj := injected }
      (d.onTamper fun t => { t with corrob := t.corrob ++ [k] }).countEvent c injected

/-- CORROBORATION_WINDOW_EXPIRY: the partners that stayed silent (R402). -/
def Dev.corrobExpiry (d : Dev) : Dev :=
  let late := d.tamper.corrob.filter fun k => d.past k.until_
  let d := d.onTamper fun t => { t with corrob := t.corrob.filter fun k => !d.past k.until_ }
  d.each late fun d k =>
    ((d.logTamper k.cls k.det k.site k.inj).onAon fun a => { a with detFault := setBit a.detFault k.cls }).logWith 0x142 2
      [u8 k.cls, u8 (3 - k.det)] k.inj

/-- The monitors of a class watch: those of R401 in VAULT, none in FIELD, all with main power (R414, R416). -/
def Dev.watches (d : Dev) (c : Nat) : Bool :=
  match d.power.mode with
  | .vault => d.supply.vbat && (c == 2 || c == 4 || c == 5 || c == 6)
  | .field => false
  | _ => d.supply.pgood

/-- The site takes part: an enclosure input or loop only while it is enabled (R406). -/
def Tamper.takesPart (t : Tamper) (c site : Nat) : Bool :=
  match c with
  | 5 => decide (site < 8) && t.cfg.inEn.testBit site
  | 6 => decide (site < 4) && t.cfg.loopEn.testBit site
  | _ => true

/-- A consumer finds a word-code mismatch: its unit takes its local action and one event is reported (R409). Sites 0 to 63 are the
lanes and 64 is the store controller; other consumers act in their own rows. The numbers are the model's (log entry 51). -/
def Dev.wordFault (d : Dev) (site : Nat) : Dev :=
  let d := if site < d.nLanes then d.laneFaults site else if site = 64 then d.storeFaults else d
  d.internalEvent 8

/-- A cell event of the comparator adds to the evidence counter in FLEET (R418); classes 8 to 10 are internal indications
(R401). -/
def Dev.sensorFire (d : Dev) (c det site : Nat) : Dev :=
  if 8 ≤ c && c ≤ 10 then (if !d.supply.clocks then d else if c = 8 then d.wordFault site else d.internalEvent c)
  else if !(decide (c ≤ 7) && decide (1 ≤ det) && decide (det ≤ 3) && d.watches c && d.tamper.takesPart c site) then d
  else if c = 7 then
    if det ≠ 1 then d else (if d.life.st = .fleet then d.evidence else d).fire 7 1 0 false
  else if c = 5 && det ≠ 2 then d
  else d.fire c det site false

/-- An enclosure input changes its level: the debounce starts, or starts again (R406). -/
def Dev.encLevel (d : Dev) (n : Nat) (level : Bool) : Dev :=
  if !(decide (n < 8) && d.watches 5) then d
  else
    d.onTamper fun t =>
      let rest := t.encDebounce.filter fun e => e.1 != n
      { t with encDebounce := if t.encLevel.testBit n = level then rest else rest ++ [(n, level, d.clk + t.cfg.encDeb * 100000)] }

/-- ENC_DEB_EXPIRY: the level is accepted, and fires where it is the alarm level of an enabled input (R406). -/
def Dev.encExpiry (d : Dev) (n : Nat) : Dev :=
  match d.tamper.encDebounce.find? fun e => e.1 == n && d.past e.2.2 with
  | none => d
  | some e =>
    let d := d.onTamper fun t =>
      { t with encDebounce := t.encDebounce.erase e,
               encLevel := if e.2.1 then t.encLevel ||| 2 ^ n else t.encLevel - (t.encLevel &&& 2 ^ n) }
    if d.watches 5 && d.tamper.cfg.inEn.testBit n && d.tamper.cfg.inPol.testBit n == e.2.1 then d.fire 5 1 n false else d

/-- TMP_CTRL.INJ_GO (R421). -/
def Dev.inject (d : Dev) (c det : Nat) : Dev :=
  if !(d.life.st = .provision || d.life.st = .service) then d.tmpErr 3
  else if 7 < c || det = 0 || 3 < det then d
  else d.fire c det 0 true

/-! ### The evidence counter -/

/-- Pending increments are programmed; beyond 4,096 they are discarded (R416, R419). -/
def Dev.tecProgram (d : Dev) : Dev :=
  let n := Nat.max d.aon.pending d.aon.mirror
  if n = 0 then d
  else
    let k := Nat.min n (4096 - d.tamper.count)
    let c := d.tamper.count + k
    let d := d.onTamper fun t => { t with tec1 := c, tec2 := c }
    let d := d.onAon fun a => { a with pending := 0, mirror := 0 }
    if k < n then d.logEvent 0x147 2 [u8 (n - k)] else d

/-- TEC_INCREMENT: with main power, outside CLOSE (R416). -/
def Dev.tecIncrement (d : Dev) : Dev :=
  if d.supply.pgood && d.supply.clocks && decide (d.power.mode ≠ .close) then d.tecProgram else d

/-- The ROM reads both copies at a main power-up (R419). -/
def Dev.tecRead (d : Dev) : Dev :=
  let a := d.tamper.tec1
  let b := d.tamper.tec2
  let c := Nat.max a b
  if a = b then d
  else if c ≤ Nat.min a b + 1 then d.onTamper fun t => { t with tec1 := c, tec2 := c }
  else (d.tmpErr 2).logEvent 0x146 3 (le 2 a ++ le 2 b)

/-- The pending increments of g (R362). -/
def Dev.genProgram (d : Dev) : Dev :=
  let n := Nat.max d.keys.gPending d.aon.gMirror
  (d.onKeys fun k => { k with g := Nat.min 256 (k.g + n), gPending := 0 }).onAon fun a => { a with gMirror := 0 }

/-! ### The canary -/

/-- The clean-shutdown marker of a canary (R417). -/
def canaryMark (canary : List Byte) : List Byte := shake (ascii "QCAN" ++ canary) 32

/-- Key RAM's canary matches one of the two newest marker rows. -/
def AonTamper.canaryOk (a : AonTamper) : Bool := a.marker1 == canaryMark a.canary || a.marker2 == canaryMark a.canary

/-- The canary check of a main power-up; a failure is a cell event (R417, R418). -/
def Dev.canaryCheck (d : Dev) : Dev :=
  if d.aon.canaryOk then d.onAon fun a => { a with canaryDue := false, canaryLost := false }
  else
    let d := (d.onAon fun a => { a with canaryDue := true, canaryLost := true }).onKeys fun k => { k with err := setBit k.err 3 }
    let d := if d.life.st = .blank then d else d.evidence
    d.fire 7 2 0 false

/-- Once random output is ready: a new canary after a failed check, and a fresh aon_salt (R410, R417). -/
def Dev.canaryMend (d : Dev) : Dev :=
  let s := d.draw 32
  let d := s.2.onAon fun a => { a with salt := s.1 }
  if d.aon.canaryDue then
    let c := d.draw 32
    c.2.onAon fun a => { a with marker2 := a.marker1, marker1 := canaryMark c.1, canary := c.1, canaryDue := false }
  else d

/-- The word-code salt at reset release (R410). -/
def Dev.saltForm (d : Dev) : Dev :=
  let r := d.draw 96
  r.2.onTamper fun t => { t with salt := unle (shake (ascii "QWCS" ++ fitBytes 32 Config.saltSeed ++ r.2.aon.salt ++ r.1) 6) }

end Sys2Proof.Machine
end

