-- ==== Sys2Proof/Machine/LifeOps.lean ====
section
/-! DEFINITION. Life-cycle transitions and what they destroy, the receipt signing key, debug accesses and the unlock
(R371 to R374, R383, R438 to R457). -/
namespace Sys2Proof.Machine

/-- Change the LC_ block. -/
def Dev.onLife (d : Dev) (f : Life → Life) : Dev := { d with life := f d.life }

/-! ### The life-cycle log -/

/-- The entry of a state, and the state of an entry (R438). -/
def entryOf (s : Nat) : Nat := s * 16 + (15 - s)
def LcSt.ofCode : Nat → Option LcSt
  | 0 => some .blank | 1 => some .provision | 2 => some .fleet | 3 => some .service | 4 => some .tampered
  | 5 => some .retired | _ => none
def entryState (e : Nat) : Option LcSt := if e = entryOf (e / 16) && 0 < e / 16 then LcSt.ofCode (e / 16) else none

/-- The state that the highest valid entry names. -/
def stateOf (es : List Nat) : LcSt := (es.filterMap entryState).getLast?.getD .blank

/-- Unprogrammed entries. -/
def Life.free (l : Life) : Nat := 64 - l.entries.length

/-- A state's copy in field-page memory (R556). -/
def Dev.lcCopy (d : Dev) : Dev := d.onFieldMem fun m => { m with lcCopy := d.life.st.code }

/-- The ROM reads the log: cut entries become void (R439), and a pending TAMPERED entry is programmed (R444). -/
def Dev.lifeRead (d : Dev) : Dev :=
  let bad := fun (e : Nat) => e != 0xFF && (entryState e).isNone
  let d := if d.life.entries.any bad then
      d.onLife fun l => { l with entries := l.entries.map fun e => if bad e then 0xFF else e, err := setBit l.err 0 }
    else d
  let d := d.onLife fun l => { l with st := stateOf l.entries }
  if d.life.pendingTampered || d.field.mem.pendingTampered then
    let d := if d.life.st = .provision || d.life.st = .fleet || d.life.st = .service then
        d.onLife fun l => { l with entries := l.entries ++ [entryOf 4], st := .tampered }
      else d
    ((d.onLife fun l => { l with pendingTampered := false }).onFieldMem fun m => { m with pendingTampered := false }).lcCopy
  else d

/-- TAMPERED_ENTRY_PROGRAM (R444): at close-done, or in IDLE, STANDBY or TEST. -/
def Dev.tamperedEntry (d : Dev) (ok : Bool) : Dev :=
  let may := match d.power.mode with
    | .idle => true | .standby => true | .test => true | .close => d.power.closeDone | _ => false
  if !(d.life.pendingTampered && may) then d
  else if ok then
    ((d.onLife fun l => { l with entries := l.entries ++ [entryOf 4], pendingTampered := false }).onFieldMem fun m =>
      { m with pendingTampered := false }).lcCopy
  else
    let f := d.free
    f.2.onLife fun l => { l with entries := l.entries ++ [if f.1 % 256 = entryOf 4 then 0 else f.1 % 256], err := setBit l.err 2 }

/-! ### Keys of transitions -/

/-- A key pair is generated, enters its slot, and gets its statement with its key log record (R372, R374, R380). -/
def Dev.makeKey (d : Dev) (n attr : Nat) : Dev :=
  let r := d.randDraw 0 (seedLen (attrAlg attr)) true
  let k := keyFrom (attrAlg attr) r.1
  let slot : KeySlot :=
    { attr := attr, key := k.1, pub := k.2, tag := zeros 16, created := d.now, pcyc := d.time.aon.pcyc, meas := d.keys.meas.mS }
  let d := r.2.setKey n slot
  let d := if n = 1024 then d.onKeys fun q => { q with identityPub := k.2, idDigest := shake k.2 64 } else d
  let s := d.makeStatement n slot
  s.2.keyRecord { kind := 1, index := n, slot := { slot with statement := s.1 } }

/-- The receipt signing key of FLEET or SERVICE (R374). -/
def Dev.makeReceiptKey (d : Dev) : Dev := d.makeKey 1025 (mkAttr 7 5 0 false (if d.life.st = .service then 2 else 1) true 0 4)

/-- R443: a missing receipt signing key is made once the firmware runs and random output is ready. -/
def Dev.receiptKeyCheck (d : Dev) : Dev :=
  if d.power.bootDone && (d.life.st = .fleet || d.life.st = .service) && !(d.keySlot 1025).full && d.canDraw 0
    && (d.keySlot 1024).full then d.makeReceiptKey else d

/-- The slots that a transition destroys (R383). -/
def destroyed (old new : LcSt) (a : Nat) : Bool :=
  let cls := attrClass a
  let basic := cls == 0 || cls == 1 || cls == 2
  match old, new with
  | _, .retired => true
  | _, .tampered => cls != 5 && cls != 6
  | .provision, .fleet => basic || attrLc a == 3 || attrExport a
  | .fleet, .service => basic || cls == 3 || cls == 4 || attrLc a == 1
  | .service, .fleet => basic || cls == 4 || attrLc a == 2
  | .tampered, .service => cls == 0
  | _, _ => false

/-- Entry to RETIRED: the key log, the trust table, the certificate and the HUK end (R361, R383). -/
def Dev.retireKeys (d : Dev) : Dev :=
  d.onKeys fun k =>
    { k with slots := [], trust := Vector.replicate 16 {}, cert := [], log := [], huk := some (List.replicate 32 0xFF#8),
             hukDead := true, identityPub := [], idDigest := zeros 64, nextKek := none }

/-- Entry to PROVISION: the HUK, the identity key and the transport key (R361, R372). -/
def Dev.provisionKeys (d : Dev) : Dev :=
  let h := d.randDraw 0 32 true
  let d := h.2.onKeys fun k => { k with huk := some h.1 }
  (d.makeKey 1024 (mkAttr 7 5 0 false 0 true 0 5)).makeKey 64 (mkAttr 4 2 0 false 0 true 0 6)

/-- What a transition destroys, and what it makes (R374, R383). -/
def Dev.transitionKeys (d : Dev) (old new : LcSt) : Dev :=
  let d := d.each (List.range d.nInst) Dev.reseed
  let d := if new = .retired then d.retireKeys else d.clearSlots fun _ k => destroyed old new k.attr
  match new with
  | .provision => d.provisionKeys
  | .fleet => d.makeReceiptKey
  | .service => d.makeReceiptKey
  | .tampered => d.generation
  | _ => d

/-- After the log's replay, the newest mark whose target is the present state destroys what is older than it (R442). -/
def Dev.markApply (d : Dev) : Dev :=
  match d.keys.log.find? fun r => r.kind == 7 && r.mark.isSome with
  | none => d
  | some m =>
    if m.mark ≠ some d.life.st.code then d
    else
      let from_ := (entryState ((d.life.entries.filter fun e => (entryState e).isSome).dropLast.getLast?.getD 0)).getD .blank
      let newest := fun (n : Nat) => ((d.keys.log.find? fun r => r.kind == 1 && r.index == n).map KeyRec.seq).getD 0
      d.clearSlots fun n k => attrPersist k.attr && decide (newest n < m.seq) && destroyed from_ d.life.st k.attr

/-! ### Transitions -/

/-- A row of *Life-cycle transitions* for a command of a role (R441). -/
def lcRow (old new : LcSt) (fleetRole : Bool) : Bool :=
  match old, new with
  | .provision, .fleet => fleetRole
  | .fleet, .service => fleetRole
  | .service, .fleet => true
  | .provision, .tampered => true
  | .fleet, .tampered => true
  | .service, .tampered => true
  | .tampered, .service => fleetRole
  | .provision, .retired => true
  | .fleet, .retired => true
  | .service, .retired => true
  | .tampered, .retired => true
  | _, _ => false

/-- The further preconditions of a row (R441). -/
def Dev.lcPre (d : Dev) (old new : LcSt) : Bool :=
  let t := d.keys.trust.toList
  let encaps := t.any fun e => e.purpose == 3
  match old, new with
  | .provision, .fleet =>
    (vget d.keys.trust 0 {}).purpose == 1 && !d.keys.cert.isEmpty && encaps && (t.any fun e => e.purpose == 2 && e.role == 2)
      && !d.tamper.cfgDefault && decide (d.dbg.level = .closed) && decide (0 < d.flash.level)
  | .service, .fleet => decide (d.dbg.level = .closed) && !d.tamper.cfgDefault && encaps
  | .tampered, .service =>
    d.aon.pending == 0 && d.tamper.events.toList.all fun es => es.isEmpty
  | _, .retired => d.store.holds.isEmpty
  | _, _ => true

/-- The common preconditions (R440, R441): IDLE, random output, free entries. -/
def Dev.lcCommon (d : Dev) (new : LcSt) : Bool :=
  decide (d.power.mode = .idle) && d.power.target.isNone && d.canDraw 0 && d.life.going.isNone
    && (new = .tampered || new = .retired || decide (3 ≤ d.life.free))

/-- A transition begins with its mark in the key log (R442). -/
def Dev.lcStart (d : Dev) (new : LcSt) (source slot : Nat) : Dev :=
  (d.onLife fun l => { l with going := some { target := new, source := source, slot := slot } }).keyWrite
    { kind := 7, index := new.code, mark := some new.code } { done := .transition }

/-- LC_ERR.REFUSED. -/
def Dev.lcRefused (d : Dev) : Dev := d.onLife fun l => { l with err := setBit l.err 1 }

/-- The commit edge and what follows it (R442): state, keys, debug level, sessions, records, and the response. -/
def Dev.lcCommit (d : Dev) (g : LcGoing) : Dev :=
  let old := d.life.st
  let d := d.onLife fun l =>
    { l with st := g.target, going := none, entries := l.entries ++ [entryOf g.target.code], lastFrom := old.code,
             lastTo := g.target.code, lastSource := g.source, lastTime := d.now,
             eraseLeft := if g.target = .retired then d.variant.blocks else l.eraseLeft }
  let d := d.lcCopy.logEvent 0x105 3 [u8 old.code, u8 g.target.code, u8 g.source]
  let d := d.debugClose.onDebug fun b => { b with level := restLevel g.target, chal := none }
  let d := (d.transitionKeys old g.target).endSessions
  let d := if g.target = .fleet then
      { ((d.onReceipts fun r => { r with lastPeriodic := [], lastAny := [] }).onLife fun l =>
          { l with fleetFrom := d.time.aon.pcyc * 2 ^ 32 + d.hive.snapSeq }) with hive := { d.hive with lastSigned := 0 } }
    else d
  let d := d.hiveSettle.tagSettle
  d.finish .transition fun _ => [u8 g.target.code] ++ zeros 7

/-- LC_ENTRY_PROGRAMMED: the entry's last bit has programmed, or it failed (R442, R457). -/
def Dev.lcEntry (d : Dev) (ok : Bool) : Dev :=
  match d.life.going with
  | none => d
  | some g =>
    if !g.marked then d
    else if ok then d.lcCommit g
    else
      let f := d.free
      let v := if f.1 % 256 = entryOf g.target.code then 0 else f.1 % 256
      (f.2.onLife fun l => { l with going := none, entries := l.entries ++ [v], err := setBit l.err 2 }).finishBad .transition
        Status.internalFault.code

/-- The mark is written, or its record was given up. -/
def Dev.lcMarked (d : Dev) (ok : Bool) : Dev :=
  if ok then d.onLife fun l => { l with going := l.going.map fun g => { g with marked := true } }
  else (d.onLife fun l => { l with going := none }).finishBad .transition Status.internalFault.code

/-- DBG_CTRL.LC_PROVISION and LC_RETIRE from the debug port (R441). -/
def Dev.dbgTransition (d : Dev) (new : LcSt) : Dev :=
  if d.power.mode = .standby then d
  else if d.dbg.level = .full && d.life.st = .blank && d.lcCommon new then d.lcStart new 5 99
  else d.lcRefused

/-- RETIRE_STORE_ERASE: the next block is erased in IDLE; after the last one nothing is found (R455). -/
def Dev.retireErase (d : Dev) : Dev :=
  if !(d.life.st = .retired && d.power.mode = .idle && 0 < d.life.eraseLeft) then d
  else
    let b := d.variant.blocks - d.life.eraseLeft
    let d := d.onLife fun l => { l with eraseLeft := l.eraseLeft - 1 }
    let k := d.blk b
    let d := (d.eraseCounted b k.region k.fast).onBlk b fun q => { q with bad := k.bad }
    if d.life.eraseLeft = 0 then
      let d := d.onStore fun s =>
        { s with journal := {}, holds := [], container := none, taken := [], pages := [], supQ := [], rewrite := [],
                 reserve := { nextBlock := s.reserve.nextBlock } }
      { d with log := { d.log with blocks := [[]], openPages := 0, oldest := d.log.next } }
    else d

/-! ### Debug accesses -/

/-- A debug access to a locked region (R447): what it reads is 0xA5A5_A5A5_A5A5. -/
def Dev.lockedAccess (d : Dev) (space addr : Nat) : Dev :=
  let d := d.onDebug fun b =>
    if b.hitValid then { b with lockedHit := true }
    else { b with lockedHit := true, hitValid := true, hitSpace := space % 16, hitAddr := addr % 2 ^ 32 }
  d.logEvent 0x104 2 (u8 space :: le 4 addr)
def lockedValue : W48 := 0xA5A5A5A5A5A5#48

/-- The debug port works: main power, and not in VAULT or FIELD (R454); the level in force (R453). -/
def Dev.debugOn (d : Dev) : Bool := d.supply.pgood && d.power.startStep ≠ .reset || decide (d.power.mode = .standby)

/-- The debug level, treated as CLOSED once the unlock window has run out (R456). -/
def Dev.debugClock (d : Dev) : Nat := d.now
def Dev.levelNow (d : Dev) : DbgLevel :=
  match d.dbg.until_ with
  | some t => if t ≤ d.debugClock then .closed else d.dbg.level
  | none => d.dbg.level

/-- A core in reach for halt, resume and step (R445). -/
def Dev.coreInReach (d : Dev) (core : Nat) : Bool :=
  decide (core ≤ d.nCombs) &&
    match d.levelNow with
    | .full => true
    | .limited => decide (0 < core) && decide ((d.core core).psw.priv = .user)
    | .closed => false

/-- DBG_CORE.HALT (R457). DESIGN CHOICE (log entry 94): the bit of a comb that the variant lacks names a core outside every level's
reach, so it is a locked access; the spec speaks of no absent core here. -/
def Dev.dbgHalt (d : Dev) (mask : Nat) : Dev :=
  if !d.debugOn || d.power.mode = .standby then d
  else
    d.each (List.range 9) fun d c =>
      if !mask.testBit c then d
      else if d.coreInReach c then d.onDebug fun b => { b with halted := b.halted ||| 2 ^ c }
      else d.lockedAccess 2 0x54418

/-- DBG_CORE.RESUME and STEP. -/
def Dev.inReachMask (d : Dev) : Nat := ((List.range 9).map fun c => if d.dbg.halted.testBit c && d.coreInReach c then 2 ^ c else 0).sum
def Dev.dbgResume (d : Dev) : Dev :=
  if !d.debugOn || d.power.mode = .standby then d
  else d.onDebug fun b => { b with halted := b.halted - d.inReachMask, step := b.step - (b.step &&& d.inReachMask) }
def Dev.dbgStep (d : Dev) : Dev :=
  if !d.debugOn || d.power.mode = .standby then d else d.onDebug fun b => { b with step := b.step ||| d.inReachMask }

/-- UNLOCK_WINDOW_EXPIRY (R451, R456): expiry wins. -/
def Dev.unlockExpiry (d : Dev) : Dev :=
  match d.dbg.until_ with
  | some t => if t ≤ d.debugClock then d.debugClose else d
  | none => d

/-- DEBUG_CHALLENGE_EXPIRY (R456): expiry wins. -/
def Dev.debugChalExpiry (d : Dev) : Dev :=
  match d.dbg.chal with
  | some c => if c.2.2 ≤ d.now then d.onDebug fun b => { b with chal := none } else d
  | none => d

/-- Seconds of the unlock window left (R457). -/
def Dev.debugRemain (d : Dev) : Nat :=
  match d.dbg.until_ with
  | some t => if t ≤ d.debugClock then 0 else ceilDiv (t - d.debugClock) (2 ^ 32)
  | none => 0

/-- A level that the state admits with an unlock, and the signer's digest (R448). -/
def Dev.admits (d : Dev) (level : Nat) : Bool :=
  match d.life.st with
  | .provision => level == 1 || level == 2
  | .fleet => level == 1
  | .service => level == 1 || level == 2
  | .tampered => level == 1 || level == 2
  | _ => false
def Dev.debugSigner (d : Dev) (level : Nat) (digest : List Byte) : Bool :=
  if level = 1 then
    let t := vget d.keys.trust 0 {}
    t.purpose == 1 && shake t.key 64 == digest
  else Config.debugKeys.contains digest

/-- The unlock checks after the challenge's own, in order (R450). -/
def Dev.unlockCheck (d : Dev) (level expires : Nat) (chal m : List Byte) : Option Status :=
  let z := fun (o n : Nat) => numAt m o n == 0
  let shape := m.take 4 == ascii "QDBR" && numAt m 4 1 == 1 && z 6 2 && numAt m 8 4 == 3280 && z 0xC 4 && z 0xBC 4 && z 0x7C1 7
    && numAt m 0x7C8 2 == 1280 && z 0x7CA 6 && decide (1 ≤ numAt m 0xB8 4) && decide (numAt m 0xB8 4 ≤ 86400)
  let pk := bytesAt m 0xC0 1793
  let mine := numAt m 5 1 == level && bytesAt m 0x10 32 == fitBytes 32 chal && bytesAt m 0x30 64 == fitBytes 64 d.keys.idDigest
    && numAt m 0x70 8 == expires
  let signer := shake pk 64 == bytesAt m 0x78 64 && d.admits level && d.debugSigner level (bytesAt m 0x78 64)
  let sig := Config.falconVerify pk (m.take 0x7D0) (bytesAt m 0x7D0 1280)
  firstBad [(!shape, .badField), (!(mine && signer && sig), .debugDenied),
            (level == 2 && !(decide (d.power.mode = .idle) && d.power.target.isNone && !d.anyOpen), .debugDenied)]

/-- DEBUG_UNLOCK of a response (R450): the challenge is consumed, the outcome is logged, and the level takes effect. -/
def Dev.unlock (d : Dev) (m : List Byte) : Status × Dev :=
  let chal := d.dbg.chal
  let d := d.onDebug fun b => { b with chal := none }
  let done := fun (d : Dev) (level outcome : Nat) => d.logEvent 0x103 2 [u8 level, u8 outcome]
  match chal with
  | none => (.challengeExpired, done d (numAt m 5 1) 1)
  | some c =>
    if c.2.2 ≤ d.now then (.challengeExpired, done d c.1 1)
    else
      match d.unlockCheck c.1 c.2.2 c.2.1 m with
      | some .badField => (.badField, done d c.1 2)
      | some s => (s, done d c.1 3)
      | none =>
        let d := d.onDebug fun b =>
          { b with level := if c.1 = 2 then .full else .limited, until_ := some (d.debugClock + numAt m 0xB8 4 * 2 ^ 32) }
        (.ok, (done d c.1 0).hiveSettle)

end Sys2Proof.Machine
end

