-- ==== Sys2Proof/Machine/CmdOps.lean ====
section
/-! DEFINITION. How Sharnolos starts, refuses and completes commands (R257, R279 to R287). -/
namespace Sys2Proof.Machine

/-- Objects on which commands wait for one another (R257, R287). -/
inductive CmdObj where
  | lane (n : Nat)
  | hold (id : Nat)
  | flash
  | settings
  | page
  | lifeCycle
  | delivery
  | reader
  | log
  deriving DecidableEq, Repr

/-- The lane whose context 0 seals a stream. -/
def Dev.laneOf (d : Dev) (sid : Nat) : Option Nat :=
  (List.range d.nLanes).find? fun n => decide ((d.lane n).ctx0.dir = .seal) && (d.lane n).ctx0.stream == sid

/-- The objects of a request frame. -/
def Dev.objectsOf (d : Dev) (frame : List Byte) : List CmdObj :=
  let b := frame.drop 16
  match numAt frame 6 2 with
  | 0x0101 | 0x0103 | 0x0104 | 0x0105 | 0x0106 => [.lane (numAt b 0 1)]
  | 0x0102 => match d.laneOf (numAt b 0 8) with | some n => [.lane n] | none => []
  | 0x0302 => [.hold (numAt b 0 8)]
  | 0x0502 => [.delivery]
  | 0x0604 => [.log]
  | 0x0702 => [.lifeCycle]
  | 0x0802 => [.page]
  | 0x0803 | 0x0804 => [.reader]
  | 0x0901 | 0x0905 | 0x0906 => [.flash]
  | 0x0A02 | 0x0A04 => [.settings]
  | 0x0A03 => [.flash, .settings]
  | _ => []

/-- The tag of SET_COMMIT's rows (R335). -/
def commitTag : Nat := 0x10000

/-- The objects of commands that have started and are not complete. -/
def WaitFor.objects : WaitFor → List CmdObj
  | .opened n | .closed n => [.lane n]
  | .verifyEnd n _ | .redeliver n _ => [.lane n]
  | .hold id _ | .release id => [.hold id]
  | .flash t => if t = commitTag then [.flash, .settings] else [.flash]
  | .transition => [.lifeCycle]
  | .logRec _ => [.log]
  | .mode => []
def KeyDone.objects : KeyDone → List CmdObj
  | .deliver _ _ => [.delivery]
  | _ => []
def FieldWork.objects : FieldWork → List CmdObj
  | .command _ _ => [.page]
  | _ => []
def Dev.busyObjects (d : Dev) : List CmdObj :=
  (d.waits.flatMap fun w => w.for_.objects) ++ (d.keys.pending.flatMap fun p => p.done.objects)
    ++ (d.field.waits.flatMap fun w => w.work.objects) ++ (d.field.reader.toList.map fun _ => .reader)

/-- The first request whose objects are free: one that waits keeps its objects from the later ones (R257). -/
def Dev.firstFree (d : Dev) : List CmdObj → List (Nat × Nat) → Option (Nat × Nat)
  | _, [] => none
  | busy, r :: rest =>
    let os := d.objectsOf (d.request r.1 r.2)
    if os.any busy.contains then d.firstFree (busy ++ os) rest else some r

/-- The request that Sharnolos starts next (R257). -/
def Dev.nextRequest (d : Dev) : Option (Nat × Nat) := d.firstFree d.busyObjects d.portsCfg.arrivals

/-- Sharnolos starts the request of a slot or session, if it is the next and of this opcode: the frame's rights are
checked, and `f` is the command on the frame's body (R257, R282). -/
def Dev.command (d : Dev) (op p s : Nat) (f : List Byte → Dev → Dev) : Dev :=
  if d.serves && decide (d.nextRequest = some (p, s)) && numAt (d.request p s) 6 2 == op then
    let d := d.onPorts fun c => { c with arrivals := c.arrivals.erase (p, s) }
    match d.frameRights p s with
    | some st => d.refuse p s st
    | none => f ((d.request p s).drop 16) d
  else d

/-- The checks of a command in order, then its effect. -/
def Dev.guarded (d : Dev) (p s : Nat) (checks : List (Bool × Status)) (f : Dev → Dev) : Dev :=
  match firstBad checks with
  | some st => d.refuse p s st
  | none => f d

/-- A command whose response waits. -/
def Dev.await (d : Dev) (p s : Nat) (w : WaitFor) (body : List Byte) : Dev :=
  { d with waits := d.waits ++ [{ port := p, slot := s, for_ := w, body := body }] }

/-- Checks of an input reference into the session buffer, and of an output of `n` bytes (R283). -/
def bufChecks (p off len : Nat) : List (Bool × Status) :=
  [(len == 0, .badLength), (decide (bufWords p < off + ceilDiv len 6), .lenTooLarge)]
def outCheck (p off n : Nat) : Bool × Status := (decide (bufWords p < off + ceilDiv n 6), .lenTooLarge)

/-- Bytes of a body that must be zero. -/
def nonZero (b : List Byte) (o n : Nat) : Bool := numAt b o n != 0

/-- The role code of a slot's or session's role. -/
def Dev.roleCode (d : Dev) (p s : Nat) : Nat := (d.roleOf p s).code

/-- Reconciliation has not ended, or the device is in TEST (R297, R309). -/
def Dev.closePending (d : Dev) : Bool :=
  d.power.mode = .test || (decide (d.power.startStep ≠ .done) && decide (d.power.startStep ≠ .recovery))

/-- The modes in which streams and contexts open. -/
def Dev.ringMode (d : Dev) : Bool := d.power.mode = .record || d.power.mode = .ingest

end Sys2Proof.Machine
end

