-- ==== Sys2Proof/Machine/CmdExt.lean ====
section
/-! DEFINITION. Extension and firmware commands (R330, R331, R366 to R368, R517 to R519). -/
namespace Sys2Proof.Machine

/-- Tags of Sharnolos's own code flash work: FW_STAGE, FW_ACTIVATE and the erase ahead of a commit (R519, R524, R534). -/
def stageTag : Nat := 0x10001
def activateTag : Nat := 0x10002
def preEraseTag : Nat := 0x10003

/-- The combs of a mask. -/
def maskCombs (mask : Nat) : List Nat := (List.range 8).filter fun c => mask.testBit c

/-- A comb has an open context. -/
def Dev.combOpen (d : Dev) (c : Nat) : Bool :=
  (List.range 8).any fun i => decide ((d.lane (8 * c + i)).ctx0.dir ≠ .closed) || decide ((d.lane (8 * c + i)).ctx1.dir ≠ .closed)

/-- Words of a comb controller's instruction memory (R366). -/
def combWords : Nat := 262144

/-- A bundle, a manifest with its image behind it, is a valid extension (R366, R367). -/
def Dev.bundleOk (d : Dev) (m image : List Byte) : Bool :=
  let words := numAt m 0x10 4
  let load := numAt m 0x14 4
  let entry := numAt m 0x18 4
  manifestOk 2 m && imageOk m image && decide (load + words ≤ combWords) && decide (load ≤ entry) && decide (entry < load + words)
    && d.keys.trust.toList.any fun t => t.purpose == 4 && shake t.key 64 == bytesAt m 0x60 64

/-- A bundle enters a comb (R330, R367, R368): its words, its measurement and, where it is newer, the stored version. -/
def Dev.extLoad (d : Dev) (m image : List Byte) (c : Nat) : Dev :=
  let v := numAt m 0xC 1
  let d := d.onCore (1 + c) fun k => { k with imem := spSetAll zeroWord k.imem (numAt m 0x14 4) (packWords image) }
  let d := d.onKeys fun k => { k with meas := { k.meas with ext := vupd k.meas.ext c (fun _ => m), extState := vupd k.meas.extState c (fun _ => 1) } }
  let d := if vget d.keys.meas.extMin c 0 < v then d.keyRecord { kind := 6, index := c, body := [u8 v] } else d
  d.clearStale fun o => o == 1 + c

/-- EXT_LOAD (R330). -/
def execExtLoad (port slot : Nat) (s : State) : Host.Outcome State Fault Refusal :=
  s.on fun d => d.command 0x0901 port slot fun b d =>
    let mask := numAt b 0 1
    let off := numAt b 4 4
    let len := numAt b 8 4
    let bs := d.bufGet port slot off len
    let m := fitBytes 3248 bs
    let n := numAt m 0x10 4 * 6
    let image := (bs.drop 3248).take n
    let cs := maskCombs mask
    d.guarded port slot
      ([(nonZero b 1 3 || mask == 0, .badField)] ++ bufChecks port off len
        ++ [(cs.any fun c => decide (d.nCombs ≤ c), .badLane), (cs.any fun c => d.combOpen c, .laneBusy),
            (cs.any fun c => vget d.keys.meas.extState c 0 == 2, .extRunning), (decide (len < numAt m 8 4) || decide (len < 3248 + n), .lenTooLarge),
            (!d.bundleOk m image, .badBundle), (cs.any fun c => decide (numAt m 0xC 1 < vget d.keys.meas.extMin c 0), .rollback),
            (cs.any fun c => !d.keys.room 6 c 1, .lenTooLarge)]) fun d =>
      let d := d.each cs fun d c => d.extLoad m image c
      d.reply port slot .ok (d.combMeasure (cs.headD 0))

/-- U-level code of combs may issue or halts, and the state of each loaded extension follows (R330). -/
def Dev.extSet (d : Dev) (cs : List Nat) (st : Nat) (halt : Bool) : Dev :=
  d.each cs fun d c =>
    (d.onKeys fun k => { k with meas := { k.meas with extState := vupd k.meas.extState c (fun e => if e = 0 then 0 else st) } }).onCore (1 + c)
      fun k => { k with extHalt := halt }

/-- EXT_START (R330). -/
def execExtStart (port slot : Nat) (s : State) : Host.Outcome State Fault Refusal :=
  s.on fun d => d.command 0x0902 port slot fun b d =>
    let cs := maskCombs (numAt b 0 1)
    d.guarded port slot
      [(cs.any fun c => decide (d.nCombs ≤ c), .badLane), (cs.any fun c => vget d.keys.meas.extState c 0 == 0, .extNotLoaded)] fun d =>
      (d.extSet cs 2 false).reply port slot .ok []

/-- EXT_STOP (R330, R368): U-level code halts, and M_c is computed again. -/
def execExtStop (port slot : Nat) (s : State) : Host.Outcome State Fault Refusal :=
  s.on fun d => d.command 0x0903 port slot fun b d =>
    let cs := maskCombs (numAt b 0 1)
    d.guarded port slot [(cs.any fun c => decide (d.nCombs ≤ c), .badLane)] fun d =>
      ((d.extSet cs 1 true).each cs fun d c => d.clearStale fun o => o == 1 + c).reply port slot .ok []

/-- EXT_STATUS (R330): a running extension whose core has locked up is faulted. -/
def execExtStatus (port slot : Nat) (s : State) : Host.Outcome State Fault Refusal :=
  s.on fun d => d.command 0x0904 port slot fun _ d =>
    d.reply port slot .ok ((List.range 8).flatMap fun c =>
      let st := vget d.keys.meas.extState c 0
      [u8 (if st = 2 && (d.core (1 + c)).lockup then 3 else st)] ++ zeros 3 ++ le 4 (numAt (vget d.keys.meas.ext c []) 0xC 1))

/-- First offsets of the sectors whose first word lies in a range of a bank. -/
def sectorsIn (off n : Nat) : List Nat :=
  ((List.range (ceilDiv n 8)).map fun i => off + 8 * i).filter fun r => decide ((sectorOf r).1 = r)

/-- The rows of a staged piece: six bytes a word, filled up with erased bits (R331). -/
def stageWords (bs : List Byte) : List W48 :=
  let ws := packWords bs
  ws ++ List.replicate ((8 - ws.length % 8) % 8) (BitVec.allOnes 48)

/-- FW_STAGE (R331, R521): a sector or boot block whose first word is staged is erased first where it is not erased. The
rest of it must be erased. -/
def execFwStage (port slot : Nat) (s : State) : Host.Outcome State Fault Refusal :=
  s.on fun d => d.command 0x0905 port slot fun b d =>
    let off := numAt b 0 4
    let boff := numAt b 4 4
    let len := numAt b 8 4
    let ws := stageWords (d.bufGet port slot boff len)
    let n := ws.length
    let bank := d.flash.staging
    let rows := (List.range (n / 8)).map fun i => off + 8 * i
    let erase := (sectorsIn off n).filter fun r => !d.flash.sectorErased bank r
    d.guarded port slot
      (bufChecks port boff len
        ++ [(off % 8 != 0, .badAddr), (decide (2097152 < off + n), .lenTooLarge),
            (rows.any fun r => !d.flash.permits 2 bank r, .regionDenied),
            (rows.any fun r => !erase.contains (sectorOf r).1 && !d.flash.rowErased bank r, .pageOrder)]) fun d =>
      let d := d.each erase fun d r => d.flashSubmit { op := 3, tag := stageTag, bank := bank, offset := r, count := 1 }
      (d.flashSubmit { op := 2, tag := stageTag, bank := bank, offset := off, count := n / 8, data := ws }).await port slot
        (.flash stageTag) []

/-- An activation row (R517). -/
def actRowOf (seq version : Nat) : List W48 :=
  let bs := le 6 seq ++ le 6 0x54434151 ++ u8 version :: zeros 29
  packWords (bs ++ le 4 (crc32 bs) ++ zeros 2)

/-- FW_ACTIVATE (R331, R367, R519). -/
def execFwActivate (port slot : Nat) (s : State) : Host.Outcome State Fault Refusal :=
  s.on fun d => d.command 0x0906 port slot fun _ d =>
    let bank := d.flash.staging
    let m := d.flash.manifest bank
    let seq := (d.flash.bank d.flash.runBank).act.getD 0 + 1
    d.guarded port slot
      [(!d.imageGood bank, .badBundle), (!d.imageNew bank, .rollback), (decide (2 ^ 48 - 2 < seq), .counterExhausted),
       (!d.flash.rowErased bank actRow, .pageOrder)] fun d =>
      (d.flashSubmit { op := 4, tag := activateTag, bank := bank, offset := actRow, count := 1, data := actRowOf seq (numAt m 0xC 1) }).await
        port slot (.flash activateTag) (le 4 (numAt m 0xC 1) ++ d.flash.measure bank)

end Sys2Proof.Machine
end

