-- ==== Sys2Proof/Machine/Waggle.lean ====
section
/-! DEFINITION. The commands of the hive sequencer, the lane epochs and the waggle tree (R98 to R124). -/
namespace Sys2Proof.Machine

/-- The root issues the snapshot of a reserved slot (R102). -/
def execSnapshotIssue (s : State) : Host.Outcome State Fault Refusal := s.on Dev.snapshotIssue

/-- A snapshot reaches the endpoints (R106). -/
def execSnapshotCapture (s : State) : Host.Outcome State Fault Refusal := s.on Dev.snapshotCapture

/-- A hive boundary (R110). -/
def execHiveBoundary (s : State) : Host.Outcome State Fault Refusal := s.on Dev.hiveBoundary

/-- The root of the tree is computed (R109). -/
def execHiveRootComputed (s : State) : Host.Outcome State Fault Refusal := s.on Dev.rootComputed

/-- HIVE_CTRL.DEMAND (R115). -/
def execHiveCtrlDemand (s : State) : Host.Outcome State Fault Refusal := s.on fun d => d.byCore fun d => d.demand none

/-- HIVE_CTRL.AT_ARM and AT_CANCEL (R120). -/
def execHiveCtrlAtArm (s : State) : Host.Outcome State Fault Refusal := s.on fun d => d.byCore Dev.atArm
def execHiveCtrlAtCancel (s : State) : Host.Outcome State Fault Refusal := s.on fun d => d.byCore Dev.atCancel

/-- Writes of HIVE_PERIOD_NEXT and HIVE_EPOCH_NEXT (R116, R117). -/
def execHivePeriodNextWrite (value : Nat) (s : State) : Host.Outcome State Fault Refusal :=
  s.on fun d => d.byCore fun d => (d.periodNext value).2
def execHiveEpochNextWrite (value : Nat) (s : State) : Host.Outcome State Fault Refusal :=
  s.on fun d => d.byCore fun d => (d.epochNext value).2

/-- A lane epoch boundary (R117). -/
def execEpochBoundary (s : State) : Host.Outcome State Fault Refusal := s.on Dev.epochBoundary

/-- A lane's oldest pending link is appended (R117). -/
def execEpochLinkAppend (lane : Nat) (s : State) : Host.Outcome State Fault Refusal := s.on (Dev.linkAppend · lane)

/-- A link is late (R118). -/
def execHiveLinkMaxExpiry (lane : Nat) (s : State) : Host.Outcome State Fault Refusal := s.on (Dev.linkLate · lane)

/-- A completed epoch signature is appended (R119). -/
def execEpochSignatureAppend (lane : Nat) (s : State) : Host.Outcome State Fault Refusal := s.on (Dev.signatureAppend · lane)

/-- A request of an operation: it issues at once where it may (R101). -/
def Dev.wagGo (d : Dev) (op : WagOp) : Dev := d.byCore fun d => (d.wagRequest op).wagIssue

/-- WAG_CMD with OP BARRIER and an identifier (R103). -/
def Dev.wagBarrierGo (d : Dev) (id : Nat) : Dev :=
  d.byCore fun d =>
    if d.wag.pending.contains .barrier then d.wagRequest .barrier
    else (d.onWag fun w => { w with barNext := id % 16 }).wagGo .barrier
def execWagBarrier (id : Nat) (s : State) : Host.Outcome State Fault Refusal := s.on (Dev.wagBarrierGo · id)

/-- WAG_CMD with OP BROADCAST and SNAPSHOT (R101). -/
def execWagBroadcast (s : State) : Host.Outcome State Fault Refusal := s.on (Dev.wagGo · .broadcast)
def execWagSnapshot (s : State) : Host.Outcome State Fault Refusal := s.on (Dev.wagGo · .snapshot)

/-- WAG_CMD with OP RESET, written at M or not (R104). -/
def Dev.wagResetGo (d : Dev) (machine : Bool) : Dev :=
  if machine then d.wagGo .reset else d.byCore fun d => d.onWag fun w => { w with privRefused := true }
def execWagReset (machine : Bool) (s : State) : Host.Outcome State Fault Refusal := s.on (Dev.wagResetGo · machine)

/-- WAG_EP_ARRIVE of a comb controller (R103). -/
def execWagEpArrive (comb id : Nat) (s : State) : Host.Outcome State Fault Refusal :=
  s.on fun d => d.byCore fun d => d.arrive comb id

/-- The release of a barrier, and its timeout (R103). -/
def execBarrierRelease (s : State) : Host.Outcome State Fault Refusal := s.on Dev.barrierRelease
def execWagBarTimeoutExpiry (s : State) : Host.Outcome State Fault Refusal := s.on Dev.barrierTimeout

/-- An operation completes at the root, or an endpoint stays silent (R99, R105). -/
def execWagOpComplete (s : State) : Host.Outcome State Fault Refusal := s.on Dev.wagComplete
def execWagAckLimitExpiry (ep : Nat) (s : State) : Host.Outcome State Fault Refusal := s.on (Dev.ackLimit · ep)

end Sys2Proof.Machine
end

