-- ==== Sys2Proof/Machine/CmdField.lean ====
section
/-! DEFINITION. Field link commands (R327 to R329, R550, R561, R562). -/
namespace Sys2Proof.Machine

/-- FIELD_STATUS (R327). -/
def execFieldStatus (port slot : Nat) (s : State) : Host.Outcome State Fault Refusal :=
  s.on fun d => d.command 0x0801 port slot fun _ d =>
    let l := d.field
    d.reply port slot .ok
      (le 2 (64 - l.mem.used) ++ le 2 (b2n l.fallback + 2 * b2n l.readerEn + 4 * b2n d.supply.field) ++ [u8 l.mem.active]
        ++ zeros 3 ++ le 4 l.sessions ++ le 8 l.lastEnd ++ le 8 l.lastCommit ++ zeros 4)

/-- FIELD_PAGE_UPDATE (R328, R555, R557, R558): the page is committed at once, or it waits for a session. -/
def execFieldPageUpdate (port slot : Nat) (s : State) : Host.Outcome State Fault Refusal :=
  s.on fun d => d.command 0x0802 port slot fun b d =>
    d.fieldWork { work := .command port slot, page := d.composePage false b, until_ := some (d.clk + ms 200) }

/-- FIELD_PAGE_COMMIT_EXPIRY: 200 ms have passed since a FIELD_PAGE_UPDATE (R328, R337). -/
def execFieldPageCommitExpiry (s : State) : Host.Outcome State Fault Refusal := s.on fun d => d.clocked Dev.fieldCommits

/-- Reader mode cannot run for a command: no amplifier is fitted; a session is active, or the mode is another one (R329,
R561). -/
def Dev.readerChecks (d : Dev) : List (Bool × Status) :=
  [(!(d.setting 0x70).testBit 0, .readerAbsent), (!d.readerMay, .notReady)]

/-- Reader mode is switched on for a command, and off again where the command switched it on. -/
def Dev.readerOn (d : Dev) : Dev := (d.onField fun l => { l with readerEn := true }).tagSettle
def Dev.readerBack (d : Dev) (was : Bool) : Dev := d.onField fun l => { l with readerEn := was }

/-- FIELD_INVENTORY (R329, R550): the search begins; the replies are what the tags answer to its first WALKs. -/
def execFieldInventory (port slot : Nat) (replies : List (List Bool × Bool)) (s : State) : Host.Outcome State Fault Refusal :=
  s.on fun d => d.command 0x0803 port slot fun b d =>
    let time := numAt b 0 2
    let n := numAt b 2 2
    d.guarded port slot
      ([(!inRange 10 5000 time, .badField), (n == 0, .badLength), (decide ((if port = 4 then 508 else 2044) < n), .lenTooLarge)]
        ++ d.readerChecks) fun d =>
      let r : ReaderOp := { port := port, slot := slot, maxTags := n, until_ := d.clk + ms time, own := !d.field.readerEn }
      d.readerOn.readerStart r replies

/-- FIELD_INVENTORY_DURATION_EXPIRY (R329, R337). -/
def execFieldInventoryDurationExpiry (s : State) : Host.Outcome State Fault Refusal := s.on fun d => d.clocked Dev.readerEnd

/-- A pairing record (R562). -/
def pairRecord (status : Nat) (id : List Byte) (time : Nat) (token sel : List Byte) (keyId rssi : Nat) : List Byte :=
  ascii "QFPR" ++ [1#8, u8 status, 0#8, 0#8] ++ fitBytes 8 id ++ le 8 time ++ fitBytes 16 token ++ bytesAt sel 1 4
    ++ [u8 keyId] ++ sel.take 1 ++ le 2 rssi ++ zeros 16

/-- The record is written and the command answered. -/
def Dev.pairEnd (d : Dev) (port slot off : Nat) (was : Bool) (record : List Byte) : Dev :=
  (((d.readerSend 9 []).readerBack was).bufPut port slot off record).reply port slot .ok (le 4 64)

/-- PAIR with a token of its own, after a good PROVE (R562). -/
def Dev.pairToken (d : Dev) (port slot off : Nat) (was : Bool) (id sel kMac : List Byte) (keyId code rssi : Nat) : Dev :=
  let t := d.randDraw 0 16 false
  let d := t.2.readerSend 0x0A (bitsOf (t.1 ++ (cmac kMac t.1).take 8))
  let d := d.onField fun l => { l with rssi := rssi % 65536 }
  d.pairEnd port slot off was (pairRecord code id d.now t.1 sel keyId (rssi % 65536))

/-- The authentication of R552 with the roles reversed: the reader's draw goes out with AUTH, the tag's answer is judged,
and PROVE follows. -/
def Dev.pairAuth (d : Dev) (port slot off : Nat) (was : Bool) (id sel auth : List Byte) (prove pair rssi : Nat) : Dev :=
  let k := d.field.mem.key0
  let out := fun (d : Dev) (status : Nat) => d.pairEnd port slot off was (pairRecord status id 0 [] sel k.keyId 0)
  if !k.valid then out d 3
  else
    let r := d.randDraw 0 16 false
    let rr := r.1
    let d := r.2.readerSend 6 (bitsOf (u8 k.keyId :: rr))
    if auth.length = 1 then out d (numAt auth 0 1)
    else
      let rt := bytesAt auth 0 16
      if bytesAt auth 16 16 != cmac k.key (ascii "QFT" ++ id ++ [u8 k.keyId] ++ rr ++ rt) then out d 1
      else
        let d := d.readerSend 7 (bitsOf (cmac k.key (ascii "QFR" ++ id ++ [u8 k.keyId] ++ rt ++ rr)))
        if prove ≠ 0 then out d prove
        else
          let kMac := cmac k.key ([1#8] ++ ascii "QFSM" ++ rr ++ rt) ++ cmac k.key ([2#8] ++ ascii "QFSM" ++ rr ++ rt)
          d.pairToken port slot off was id sel kMac k.keyId pair rssi

/-- FIELD_PAIR (R329, R562): `sel` is the tag's select reply without its CRC, none for silence; `auth` its reply to AUTH,
`prove` and `pair` its status codes, and `rssi` the level of the last reply. -/
def execFieldPair (port slot : Nat) (sel : Option (List Byte)) (auth : List Byte) (prove pair rssi : Nat) (s : State) :
    Host.Outcome State Fault Refusal :=
  s.on fun d => d.command 0x0804 port slot fun b d =>
    let id := bytesAt b 0 8
    let off := numAt b 8 4
    d.guarded port slot (d.readerChecks ++ [outCheck port off 64, (!d.canDraw 0, .notReady)]) fun d =>
      let was := d.field.readerEn
      let d := (d.readerOn.readerSend 1 []).readerSend 3 (bitsOf id)
      match sel with
      | none => (d.readerBack was).refuse port slot .noTag
      | some r => d.pairAuth port slot off was id (fitBytes 7 r) auth prove pair rssi

end Sys2Proof.Machine
end

