-- ==== Sys2Proof/Machine/RegLane.lean ====
section
/-! DEFINITION. The registers of the lanes, their ring pairs, the combs and the arbiter (R95 to R97). Registers are
numbered by byte offset ÷ 4. -/
namespace Sys2Proof.Machine

/-- A write of 1 clears. -/
def clr (old : Word) (v : Nat) : Word := w1c old (BitVec.ofNat 32 v)

/-- A 64-bit value's half: 0 the low one. -/
def half (hi : Nat) (v : Nat) : Nat := if hi = 0 then v % 2 ^ 32 else v >>> 32 % 2 ^ 32

/-- 32-bit word `i` of some bytes. -/
def word32 (bs : List Byte) (i : Nat) : Nat := numAt bs (4 * i) 4

/-- LANE_STATUS (R96). -/
def Dev.laneStatus (d : Dev) (n : Nat) : Nat :=
  let l := d.lane n
  l.st.code + b2n l.parked.isSome * 2 ^ 4 + b2n (d.mayAccept n) * 2 ^ 5 + b2n (l.ring0.valid && l.ring0.room == 0) * 2 ^ 6
    + b2n (l.ring1.valid && l.ring1.room == 0) * 2 ^ 7 + l.freePages * 2 ^ 16

/-- LANE_OWED (R96). -/
def Lane.owedReg (l : Lane) : Nat := l.owedBytes % 2 ^ 20 + l.owedUnits % 2 ^ 7 * 2 ^ 20

/-- A ring pair's register (R96). -/
def RingPair.read (r : RingPair) (i : Nat) : Option Nat :=
  match i with
  | 0 => some (half 0 r.inBase)
  | 1 => some (half 1 r.inBase)
  | 2 => some (r.inSize + r.cls * 2 ^ 5 + r.port * 2 ^ 7 + b2n r.valid * 2 ^ 31)
  | 3 => some r.inTail
  | 4 => some r.inHead
  | 5 => some (half 0 r.cmpBase)
  | 6 => some (half 1 r.cmpBase)
  | 7 => some (r.cmpSize + r.msix * 2 ^ 5 + r.coalTime * 2 ^ 16 + b2n r.valid * 2 ^ 31)
  | 8 => some r.cmpHead
  | 9 => some r.cmpTail
  | 10 => some r.err.toNat
  | _ => none

/-- A lane window register; `machine` admits LANE_CTXSAVE, which others read as zero (R96). -/
def Dev.laneRead (d : Dev) (n i : Nat) (machine : Bool) : Option Nat :=
  let l := d.lane n
  match i with
  | 0 => some (b2n l.regs.en + l.ctx0.dir.code * 2 + l.ctx1.dir.code * 8 + b2n l.regs.suspEn * 32 + b2n l.regs.drain * 64)
  | 1 => some (d.laneStatus n)
  | 2 => some l.regs.irqStatus.toNat
  | 3 => some l.regs.irqEn.toNat
  | 4 => some (half 0 (if l.ctx0.dir = .closed then 0 else l.ctx0.stream))
  | 5 => some (half 1 (if l.ctx0.dir = .closed then 0 else l.ctx0.stream))
  | 6 => some (half 0 l.ctx0.nextSeq)
  | 7 => some (half 1 l.ctx0.nextSeq % 2 ^ 16)
  | 8 => some l.owedReg
  | 9 => some (l.regs.maxUnit + l.regs.ctx1Pages * 2 ^ 20)
  | 10 => some (l.regs.suspMin + l.regs.suspMax * 2 ^ 8)
  | 11 => some l.regs.err.toNat
  | 12 => some l.regs.statUnits
  | 13 => some l.regs.statLatch
  | 14 => some (half 1 l.regs.statBytes)
  | _ =>
    if 16 ≤ i && i < 32 then some (word32 l.ctx0.head (i - 16))
    else if 32 ≤ i && i < 48 then some (word32 l.ctx1.head (i - 32))
    else if 48 ≤ i && i < 64 then
      some (match l.parked with | some p => if machine then word32 p.saved (i - 48) else 0 | none => 0)
    else if 64 ≤ i && i < 75 then l.ring0.read (i - 64)
    else if 80 ≤ i && i < 91 then l.ring1.read (i - 80)
    else none

/-- A read of LANE_STAT_BYTES_HI latches LANE_STAT_BYTES_LO (R96). -/
def Dev.laneLatch (d : Dev) (n i : Nat) : Dev :=
  if i = 14 then d.onRegs n fun r => { r with statLatch := half 0 r.statBytes } else d

/-- LANE_CTRL.EN (R90): setting it takes the lane out of OFF while the comb clock runs; clearing it puts an idle lane
into OFF, and a lane with an open context once that closes. -/
def Dev.laneEnable (d : Dev) (n : Nat) (on : Bool) : Dev :=
  d.onLane n fun l =>
    let l := { l with regs := { l.regs with en := on } }
    if on && decide (l.st = .off) && (d.comb (n / 8)).clkEn then { l with st := .idle }
    else if !on && decide (l.st = .idle) then { l with st := .off }
    else l

/-- LANE_CTRL. A write whose LANE_RESET is refused has its other effects: R91's 'the write is ignored' is taken of the reset.
DESIGN CHOICE (log entry 72). -/
def Dev.laneCtrl (d : Dev) (n v : Nat) : Dev :=
  let d := d.laneEnable n (v.testBit 0)
  let d := d.onRegs n fun r => { r with suspEn := v.testBit 5 }
  let d := if v.testBit 6 then d.drain n else d
  if v.testBit 7 then d.laneReset n else d

/-- LANE_LIMITS and LANE_SUSP: a field out of its range is ignored and sets CFG_RANGE. -/
def Dev.laneLimits (d : Dev) (n v : Nat) : Dev :=
  let m := bitsAt v 0 20
  let c := bitsAt v 20 5
  let mOk := decide (4096 ≤ m) && decide (m ≤ 524288)
  let cOk := decide (2 ≤ c) && decide (c ≤ 16) && decide ((d.lane n).ctx1.dir = .closed)
  let d := d.onRegs n fun r =>
    { r with maxUnit := if mOk then m else r.maxUnit, ctx1Pages := if cOk then c else r.ctx1Pages }
  if mOk && cOk then d else d.laneErr n 0
def Dev.laneSusp (d : Dev) (n v : Nat) : Dev :=
  let m := bitsAt v 8 16
  let d := d.onRegs n fun r => { r with suspMin := bitsAt v 0 8, suspMax := if m = 0 then r.suspMax else m }
  if m = 0 then d.laneErr n 0 else d

/-- A ring register's write by the supervisor or the owning comb: base, size, class, port, vector are locked while the
context is open, and COAL_TIME is not (R96). A SIZE_LOG2 out of its range keeps its value, sets no flag and leaves the write's
other fields alone. DESIGN CHOICE (log entry 72). -/
def RingPair.write (r : RingPair) (i v : Nat) : RingPair :=
  let lk := fun (q : RingPair) => if r.valid then r else q
  match i with
  | 0 => lk { r with inBase := half 1 r.inBase * 2 ^ 32 + v / 4096 * 4096 }
  | 1 => lk { r with inBase := half 0 r.inBase + v * 2 ^ 32 }
  | 2 => lk { r with inSize := if 4 ≤ bitsAt v 0 5 && bitsAt v 0 5 ≤ 16 then bitsAt v 0 5 else r.inSize,
                     cls := if bitsAt v 5 2 = 0 then r.cls else bitsAt v 5 2, port := bitsAt v 7 1 }
  | 5 => lk { r with cmpBase := half 1 r.cmpBase * 2 ^ 32 + v / 4096 * 4096 }
  | 6 => lk { r with cmpBase := half 0 r.cmpBase + v * 2 ^ 32 }
  | 7 =>
    let r := { r with coalTime := bitsAt v 16 10 }
    if r.valid then r
    else { r with cmpSize := if 7 ≤ bitsAt v 0 5 && bitsAt v 0 5 ≤ 16 then bitsAt v 0 5 else r.cmpSize, msix := bitsAt v 5 11 }
  | 10 => { r with err := clr r.err v }
  | _ => r

/-- A write of a lane window register by the supervisor or the owning comb controller (R96, R217). A lane in OFF takes it too,
since LANE_CTRL.EN must be writable there: R90's 'no register changes' is taken of what the lane does by itself. DESIGN CHOICE
(log entry 72). -/
def Dev.laneWrite (d : Dev) (n i v : Nat) : Dev :=
  match i with
  | 0 => d.laneCtrl n v
  | 2 => d.onRegs n fun r => { r with irqStatus := clr r.irqStatus v }
  | 3 => d.onRegs n fun r => { r with irqEn := BitVec.ofNat 32 (v % 128) }
  | 9 => d.laneLimits n v
  | 10 => d.laneSusp n v
  | 11 => d.onRegs n fun r => { r with err := clr r.err v }
  | _ =>
    if 64 ≤ i && i < 75 then d.onRing n 0 fun r => r.write (i - 64) v
    else if 80 ≤ i && i < 91 then d.onRing n 1 fun r => r.write (i - 80) v
    else d

/-- A host write in the lane window from port `p`: the doorbell, the consumer index and the error register of a ring it
owns (R65, R96). -/
def Dev.laneHostWrite (d : Dev) (p n i v : Nat) : Dev :=
  let x := if 80 ≤ i then 1 else 0
  match if 80 ≤ i then i - 80 else i - 64 with
  | 3 => if 64 ≤ i then d.ringTail p n x v else d
  | 8 => if 64 ≤ i then d.cmpHeadWrite p n x v else d
  | 10 =>
    if i < 64 then d
    else
      let w := d.ringWrite p n x
      if w.1 then w.2.onRing n x fun r => { r with err := clr r.err v } else w.2
  | _ => d

/-- LANE_CMB_CTRL and LANE_CMB_STATUS of a comb (R96). -/
def Dev.combRead (d : Dev) (c i : Nat) : Option Nat :=
  let b := d.comb c
  let bits := fun (p : Lane → Bool) => ((List.range 8).map fun k => b2n (p (d.lane (8 * c + k))) * 2 ^ k).sum
  match i with
  | 0 => some (b2n b.clkEn)
  | 1 => some (bits (fun l => l.st = .active || l.st = .drain)
      + bits (fun l => l.regs.irqStatus &&& l.regs.irqEn != 0#32) * 2 ^ 8 + b2n (!b.clkEn) * 2 ^ 16
      + b2n b.modeLimit * 2 ^ 17 + b2n b.clkRefused * 2 ^ 18)
  | _ => none
def Dev.combRegWrite (d : Dev) (c i v : Nat) : Dev :=
  match i with
  | 0 => d.combWrite c (v.testBit 0)
  | 1 => d.onComb c fun b =>
    { b with modeLimit := b.modeLimit && !v.testBit 17, clkRefused := b.clkRefused && !v.testBit 18 }
  | _ => d

/-- The arbiter's registers (R85, R96, R97). DESIGN CHOICE (log entry 95): CLOSE_ACTIVE reads 1 for the whole of mode CLOSE; R96 says no
more than that class CLOSE is in use. -/
def Dev.arbRead (d : Dev) (i : Nat) : Option Nat :=
  match i with
  | 0 => some (d.arb.wUrgent + d.arb.wNormal * 2 ^ 8 + d.arb.wBulk * 2 ^ 16)
  | 1 => some d.arb.age
  | 2 => some (b2n (decide (d.power.mode = .close)) + d.arb.promotions * 2 ^ 16)
  | _ => none
def Dev.arbWrite (d : Dev) (i v : Nat) : Dev :=
  match i with
  | 0 =>
    if bitsAt v 0 8 = 0 || bitsAt v 8 8 = 0 || bitsAt v 16 8 = 0 then d
    else { d with arb := { d.arb with wUrgent := bitsAt v 0 8, wNormal := bitsAt v 8 8, wBulk := bitsAt v 16 8 } }
  | 1 => if 256 ≤ bitsAt v 0 20 then { d with arb := { d.arb with age := bitsAt v 0 20 } } else d
  | 2 => if v.testBit 16 then { d with arb := { d.arb with promotions := 0 } } else d
  | _ => d

end Sys2Proof.Machine
end

