-- ==== Sys2Proof/Machine/RegStore.lean ====
section
/-! DEFINITION. The STOR_, STOR_BLK and STG_ registers (R214 to R216), by byte offset ÷ 4. -/
namespace Sys2Proof.Machine

/-- The controller has left OFF: until then its status counts read zero (R214, R215). -/
def Dev.storUp (d : Dev) : Bool := decide (d.store.st ≠ .off)

/-- STOR_STATUS, STOR_FREE and STOR_GEOM (R214). -/
def Dev.storStatus (d : Dev) : Nat :=
  let s := d.store
  s.st.code + b2n s.container.isSome * 8 + b2n (d.storUp && d.floorOk) * 16 + b2n (s.queue.sqHead == s.queue.sqTail) * 32
def Dev.storFree (d : Dev) : Nat := if d.storUp then d.crErased + d.spares * 2 ^ 9 + Nat.min 15 d.ringErased * 2 ^ 18 else 0
def Dev.storGeom (d : Dev) : Nat := d.variant.blocks + d.variant.dies * 2 ^ 15

/-- A STOR_ register. -/
def Dev.storRead (d : Dev) (i : Nat) : Option Nat :=
  let s := d.store
  match i with
  | 0 => some (b2n s.queue.en + b2n s.writerEn * 2 + s.preerase * 4)
  | 1 => some d.storStatus
  | 2 => some s.queue.sqBase
  | 3 => some s.queue.sizeLog2
  | 4 => some s.queue.sqTail
  | 5 => some s.queue.sqHead
  | 6 => some s.queue.cqBase
  | 7 => some s.queue.cqHead
  | 8 => some s.queue.cqTail
  | 9 => some (match s.container with | some c => c.block + (d.blk c.block).next % 1024 * 2 ^ 14 | none => 0)
  | 10 => some d.storFree
  | 11 => some d.heldBlocks
  | 12 => some (if d.storUp then half 0 s.nextSeq else 0)
  | 13 => some (if d.storUp then half 1 s.nextSeq else 0)
  | 14 => some s.err.toNat
  | 15 => some s.trig.en.toNat
  | 16 => some s.trig.pol.toNat
  | 17 => some s.trig.deb
  | 18 => some ((s.trig.fifo.head?.map fun t => t.1 + 32).getD 0 + s.trig.overflow * 2 ^ 16)
  | 19 => some (half 0 s.trig.popTime)
  | 20 => some (half 1 s.trig.popTime)
  | 21 => some d.storGeom
  | _ => none

/-- STOR_BLK_b. -/
def Dev.storBlk (d : Dev) (b : Nat) : Nat :=
  let k := d.blk b
  k.ecnt % 2 ^ 24 + k.region.code * 2 ^ 24 + b2n k.fast * 2 ^ 27 + b2n (decide (0 < k.holds)) * 2 ^ 28
    + b2n (decide (0 < k.readPins) || k.inClose) * 2 ^ 29 + b2n k.erased * 2 ^ 30 + b2n k.open_ * 2 ^ 31

/-- A supervisor write of a STOR_ register. -/
def Dev.storWrite (d : Dev) (i v : Nat) : Dev :=
  match i with
  | 0 =>
    let d := d.onStore fun s => { s with writerEn := v.testBit 1, queue := { s.queue with en := v.testBit 0 } }
    if 1 ≤ bitsAt v 2 4 && bitsAt v 2 4 ≤ 8 then d.onStore fun s => { s with preerase := bitsAt v 2 4 } else d.storeErr 0
  | 2 => d.onStoreQueue fun q => { q with sqBase := v }
  | 3 =>
    if d.store.queue.en then d
    else if 4 ≤ bitsAt v 0 4 && bitsAt v 0 4 ≤ 10 then d.onStoreQueue fun q => { q with sizeLog2 := bitsAt v 0 4 }
    else d.storeErr 0
  | 4 => d.storeDoorbell v
  | 6 => d.onStoreQueue fun q => { q with cqBase := v }
  | 7 => d.onStoreQueue fun q => { q with cqHead := v, irq := q.irq && v != q.cqTail }
  | 14 => d.onStore fun s => { s with err := clr s.err v }
  | 15 => d.onStore fun s => { s with trig := { s.trig with en := lo32 v } }
  | 16 => d.onStore fun s => { s with trig := { s.trig with pol := lo32 v } }
  | 17 =>
    if bitsAt v 0 14 ≤ 10000 then d.onStore fun s => { s with trig := { s.trig with deb := bitsAt v 0 14 } } else d.storeErr 0
  | 18 => if bitsAt v 16 16 = 0 then d else d.onStore fun s => { s with trig := { s.trig with overflow := 0 } }
  | _ => d

/-- Lanes of a word of STG_LANES that have staged segments. -/
def Dev.stgLanes (d : Dev) (j : Nat) : Nat :=
  ((List.range 32).map fun i => b2n ((d.lane (32 * j + i)).units.any fun u => u.staged) * 2 ^ i).sum

/-- A STG_ register. -/
def Dev.stgRead (d : Dev) (i : Nat) : Option Nat :=
  let s := d.staging
  match i with
  | 0 => some (b2n s.en)
  | 1 => some (s.st.code + s.chPresent * 8 + b2n s.keys.isSome * 128)
  | 2 => some s.cfgReg
  | 3 => some (if s.st = .off then 0 else s.capPages / 256)
  | 4 => some s.laneMax
  | 5 => some d.stagedPages
  | 6 => some d.stagedSegs
  | 7 => some (d.stgLanes 0)
  | 8 => some (d.stgLanes 1)
  | 9 => some s.eccCe
  | 10 => some s.err.toNat
  | _ => none

/-- STG_CTRL.EN cleared puts staging OFF; with segments staged, which stay owed (R209), once the last of them has gone (R216; log
entry 77). Set, it lets the next entry to INGEST train (R207). -/
def Dev.stgEnable (d : Dev) (on : Bool) : Dev := ({ d with staging := { d.staging with en := on } } : Dev).drainDone

/-- A supervisor write of a STG_ register. -/
def Dev.stgWrite (d : Dev) (i v : Nat) : Dev :=
  let s := d.staging
  let bad := { d with staging := { s with err := setBit s.err 0 } }
  match i with
  | 0 => d.stgEnable (v.testBit 0)
  | 2 =>
    if !(decide (s.st = .off)) then d
    else if stgCfgOk (v % 128) then { d with staging := s.withCfg v } else bad
  | 4 => if bitsAt v 0 24 = 0 then bad else { d with staging := { s with laneMax := bitsAt v 0 24 } }
  | 9 => if v.testBit 0 then { d with staging := { s with eccCe := 0 } } else d
  | 10 => { d with staging := { s with err := clr s.err v } }
  | _ => d

end Sys2Proof.Machine
end

