-- ==== Sys2Proof/Machine/RegTime.lean ====
section
/-! DEFINITION. The TIME_ registers (R173 to R175), by byte offset ÷ 4. -/
namespace Sys2Proof.Machine

/-- A signed value in a field of `w` bits, two's complement. -/
def signed (w : Nat) (v : Int) : Nat := (v % (2 ^ w : Int)).toNat

/-- A field read as a signed number. -/
def asSigned (w v : Nat) : Int := if 2 ^ (w - 1) ≤ v then (v : Int) - (2 ^ w : Int) else v

/-- TIME_STATUS (R173). -/
def Dev.timeStatus (d : Dev) : Nat :=
  let s := d.time.servo
  b2n s.run + s.dstate.code * 2 + b2n s.uncertain * 2 ^ 4 + b2n s.aonLost * 2 ^ 5 + b2n (s.slew != 0) * 2 ^ 6
    + b2n d.time.aon.xtalFail * 2 ^ 7 + s.srcActive * 2 ^ 8 + b2n s.onSrcB * 2 ^ 11 + b2n s.ckptUsed * 2 ^ 12

/-- Bits of the alarms: EN, WAKE and FIRED. -/
def Time.alarmBits (t : Time) (p : Alarm → Bool) : Nat :=
  ((List.range 4).map fun n => b2n (p (vget t.aon.alarms n {})) * 2 ^ n).sum

/-- A TIME_ register as a requester reads it; the pairs follow R174. -/
def Dev.timeRead (d : Dev) (who : Requester) (i : Nat) : Option Nat :=
  let t := d.time
  let alarm := fun n => vget t.aon.alarms n {}
  match i with
  | 0 => some (b2n t.cfg.discEn + b2n t.cfg.labelArm * 2 + b2n t.cfg.forceHold * 4 + b2n t.cfg.stepEn * 8)
  | 1 => some d.timeStatus
  | 2 => some (half 0 (if t.servo.run then d.now else 0))
  | 3 => some (half 1 (t.latched who 0x08))
  | 4 => some d.boundNow
  | 5 => some (signed 32 t.servo.offset)
  | 6 => some (signed 32 t.servo.rate)
  | 7 => some (refCfg t.cfg.srcA t.cfg.srcB t.cfg.ppsFall t.cfg.bw)
  | 8 => some (half 0 t.cfg.ppsCap)
  | 9 => some (half 1 (t.latched who 0x20))
  | 10 => some t.cfg.label
  | 11 => some 0
  | 12 => some 0
  | 13 => some t.cfg.stepThr
  | 14 => some t.cfg.uncThr
  | 15 => some t.cfg.slewMax
  | 16 => some t.cfg.refTo
  | 17 => some t.cfg.hoStab
  | 18 => some t.cfg.startWait
  | 19 => some (half 0 d.aonTime)
  | 20 => some (half 1 (t.latched who 0x4C))
  | 21 => some (signed 12 t.aon.temp + signed 16 t.aon.corr * 2 ^ 16)
  | 22 => some (signed 16 t.aon.trim)
  | 23 => some t.aon.pcyc
  | 24 => some t.aon.oph
  | 25 => some t.cfg.err.toNat
  | 26 => some (t.alarmBits (fun a => a.en) + t.alarmBits (fun a => a.wake) * 2 ^ 4 + t.alarmBits (fun a => a.fired) * 2 ^ 8)
  | _ =>
    if 28 ≤ i && i < 36 then some (half (i % 2) (alarm ((i - 28) / 2)).value)
    else if 36 ≤ i && i < 40 then some (alarm (i - 36)).per
    else none

/-- The value of a register pair by its LO offset (R174): TIME_NOW, TIME_PPS_CAP and TIME_AON. -/
def Dev.timePair (d : Dev) (reg : Nat) : Option Nat :=
  match reg with
  | 0x08 => some (if d.time.servo.run then d.now else 0)
  | 0x20 => some d.time.cfg.ppsCap
  | 0x4C => some d.aonTime
  | _ => none

/-- Comb controllers read TIME_NOW alone of the pairs (R173). -/
def Requester.readsPair : Requester → Nat → Bool
  | .comb _, reg => reg == 0x08
  | _, _ => true

/-- A read of a LO register of a pair latches its value for the requester (R174). -/
def Dev.latchPair (d : Dev) (who : Requester) (reg : Nat) : Dev :=
  match d.timePair reg with
  | some v => if who.readsPair reg then { d with time := d.time.latch who reg v } else d
  | none => d

/-- A configuration value is written, or TIME_ERR.CFG_RANGE is set (R175). -/
def Dev.timeCfgWrite (d : Dev) (ok : Bool) (f : TimeCfg → TimeCfg) : Dev := if ok then d.onTimeCfg f else d.timeErr 0

/-- The alarms' values, periods and control bits (R171, R173). -/
def Dev.onAlarm (d : Dev) (n : Nat) (f : Alarm → Alarm) : Dev :=
  d.onAonTime fun a => { a with alarms := vupd a.alarms n f }
def Dev.alarmCtrl (d : Dev) (v : Nat) : Dev :=
  d.each (List.range 4) fun d n => d.onAlarm n fun a =>
    { a with en := v.testBit n, wake := v.testBit (4 + n), fired := a.fired && !v.testBit (8 + n) }

/-- A supervisor write of a TIME_ register; TIME_AON_TRIM at M only (R173). -/
def Dev.timeWrite (d : Dev) (machine : Bool) (i v : Nat) : Dev :=
  match i with
  | 0 =>
    let d := d.onTimeCfg fun c => { c with discEn := v.testBit 0, stepEn := v.testBit 3 }
    let d := if v.testBit 1 then d.labelArm else d
    d.forceHold (v.testBit 2)
  | 1 => if v.testBit 7 then d.onAonTime fun a => { a with xtalFail := false } else d
  | 7 => d.timeCfgWrite (refCfgOk v) fun c => c.withRef v
  -- R7: a field's bits are checked, reserved bits are not.
  | 10 => d.onTimeCfg fun c => { c with label := v }
  | 11 => d.onTimeCfg fun c => { c with measLo := v }
  | 12 => (d.measSubmit (lo32 v)).2
  | 13 => d.timeCfgWrite (settingOk 0x12 (le 4 (v % 2 ^ 20))) fun c => { c with stepThr := v % 2 ^ 20 }
  | 14 => d.timeCfgWrite (settingOk 0x13 (le 4 (v % 2 ^ 24))) fun c => { c with uncThr := v % 2 ^ 24 }
  | 15 => d.timeCfgWrite (settingOk 0x14 (le 4 (v % 2 ^ 10))) fun c => { c with slewMax := v % 2 ^ 10 }
  | 16 => d.timeCfgWrite (settingOk 0x15 (le 4 (v % 2 ^ 16))) fun c => { c with refTo := v % 2 ^ 16 }
  | 17 => d.timeCfgWrite (settingOk 0x16 (le 4 (v % 2 ^ 16))) fun c => { c with hoStab := v % 2 ^ 16 }
  | 18 => d.timeCfgWrite (settingOk 0x11 (le 4 (v % 2 ^ 14))) fun c => { c with startWait := v % 2 ^ 14 }
  | 22 => if machine then d.onAonTime fun a => { a with trim := asSigned 16 (v % 65536) } else d
  | 25 => d.onTimeCfg fun c => { c with err := clr c.err v }
  | 26 => d.alarmCtrl v
  | _ =>
    if 28 ≤ i && i < 36 then
      d.onAlarm ((i - 28) / 2) fun a =>
        { a with value := if i % 2 = 0 then half 1 a.value * 2 ^ 32 + v else half 0 a.value + v * 2 ^ 32 }
    else if 36 ≤ i && i < 40 then d.onAlarm (i - 36) fun a => { a with per := v }
    else d

end Sys2Proof.Machine
end

