-- ==== Sys2Proof/Machine/CmdHive.lean ====
section
/-! DEFINITION. Commands for the hive, the store and holds, and time (R305 to R317). -/
namespace Sys2Proof.Machine

/-- HIVE_DEMAND (R305): it completes with the receipt. -/
def execHiveDemand (port slot : Nat) (s : State) : Host.Outcome State Fault Refusal :=
  s.on fun d => d.command 0x0201 port slot fun _ d =>
    d.guarded port slot [(!d.hiveTakes, .modePrecond)] fun d => d.demand (some (port, slot))

/-- HIVE_AT (R120, R306). -/
def execHiveAt (port slot : Nat) (s : State) : Host.Outcome State Fault Refusal :=
  s.on fun d => d.command 0x0202 port slot fun b d =>
    let t := numAt b 0 8
    d.guarded port slot [(t != 0 && (!d.atAhead t || decide (timeMax < t)), .timeRange), (t != 0 && !d.hiveTakes, .modePrecond)] fun d =>
      (if t = 0 then d.atCancel else d.onHive fun h => { h with atTime := t, atArmed := true }).reply port slot .ok (le 8 t)

/-- HIVE_PERIODS (R116, R117, R307): a refused field leaves both unchanged, and sets HIVE_ERR.CFG_RANGE as a refused write does. -/
def execHivePeriods (port slot : Nat) (s : State) : Host.Outcome State Fault Refusal :=
  s.on fun d => d.command 0x0203 port slot fun b d =>
    let h := numAt b 0 4
    let e := numAt b 4 4
    let a := if h = 0 then (true, d.passChanges) else d.periodNext h
    let c := if e = 0 then (true, a.2) else a.2.epochNext e
    if a.1 && c.1 then
      c.2.reply port slot .ok (le 8 (c.2.hive.periodAt.getD 0) ++ le 8 (c.2.hive.epochAt.getD 0))
    else (d.hiveErr 0).refuse port slot .badField

/-- HIVE_GET (R138, R308). -/
def execHiveGet (port slot : Nat) (s : State) : Host.Outcome State Fault Refusal :=
  s.on fun d => d.command 0x0204 port slot fun b d =>
    let kind := numAt b 0 1
    let lane := numAt b 1 1
    let r := if kind = 0 then d.receipts.lastPeriodic else d.receipts.lastAny
    let proofs := if kind = 0 then d.receipts.lastPeriodicProofs else d.receipts.lastAnyProofs
    let proof := if lane = 0xFF then [] else proofs.getD lane []
    d.guarded port slot
      [(decide (1 < kind), .badField), (lane != 0xFF && decide (d.nLanes ≤ lane), .badLane), (r.isEmpty, .notFound)] fun d =>
      d.reply port slot .ok (r ++ le 4 proof.length ++ zeros 4 ++ proof)

/-- HOLD_PLACE (R309): persistent, and answered, when its journal record is programmed. -/
def execHoldPlace (port slot : Nat) (s : State) : Host.Outcome State Fault Refusal :=
  s.on fun d => d.command 0x0301 port slot fun b d =>
    let start := numAt b 0 8
    let stop := numAt b 8 8
    let bs := d.holdWants start stop
    d.guarded port slot
      [(decide (timeMax < start) || decide (timeMax < stop), .timeRange), (decide (stop < start), .badField),
       (d.closePending, .closePending), (bs.isEmpty, .notFound), (d.holdExceeds bs, .holdLimit)] fun d =>
      let d := d.each bs fun d k => d.pin k
      let i := d.nextHold
      let h := i.2.holdSpan { id := i.1, start := start, stop := stop, origin := 2, source := port, blocks := bs }
      let d := (i.2.reviseHold h).logEvent 0x041 1 (le 8 h.id ++ le 4 bs.length)
      d.await port slot (.hold h.id 1) h.body

/-- HOLD_RELEASE (R34, R196, R310). -/
def execHoldRelease (port slot : Nat) (s : State) : Host.Outcome State Fault Refusal :=
  s.on fun d => d.command 0x0302 port slot fun b d =>
    match d.store.holds.find? fun h => h.id == numAt b 0 8 with
    | none => d.refuse port slot .holdNotFound
    | some h => (d.releaseHold h port (d.roleCode port slot)).await port slot (.release h.id) []

/-- HOLD_LIST (R311). -/
def execHoldList (port slot : Nat) (s : State) : Host.Outcome State Fault Refusal :=
  s.on fun d => d.command 0x0303 port slot fun b d =>
    let start := numAt b 0 4
    let n := numAt b 4 2
    let hs := sortBy (fun (x y : Hold) => decide (x.id ≤ y.id)) d.store.holds
    let got := (hs.drop start).take n
    d.guarded port slot
      [(nonZero b 6 2, .badField), (n == 0, .badLength), (decide ((if port = 4 then 63 else 255) < n), .lenTooLarge)] fun d =>
      d.reply port slot .ok (le 4 got.length ++ le 4 hs.length ++ got.flatMap Hold.body)

/-- The container of the last reconciled close (R189, R312): the one its newest RECON_START names. -/
def Dev.reconContainer (d : Dev) : Option Nat :=
  match d.store.journal.programmed fun r => r.kind == 0x52 with
  | none => none
  | some r => (d.store.journal.programmed fun q => q.kind == 0x56 && q.opening == r.opening).map fun q => numAt q.body 64 8

/-- The containers that an export selects, ascending (R312). -/
def Dev.exportSelect (d : Dev) (sel first last : Nat) : List (Nat × Block) :=
  d.containers.filter fun b =>
    match sel with
    | 0 => decide (first ≤ b.2.seq) && decide (b.2.seq ≤ last)
    | 1 => b.2.overlaps first last
    | _ => d.reconContainer == some b.2.seq

/-- STORE_EXPORT (R203, R312): the export begins, and its response follows its last container. -/
def execStoreExport (port slot : Nat) (s : State) : Host.Outcome State Fault Refusal :=
  s.on fun d => d.command 0x0304 port slot fun b d =>
    let sel := numAt b 0 1
    let first := numAt b 8 8
    let last := numAt b 0x10 8
    let addr := numAt b 0x18 8
    let len := numAt b 0x20 8
    let cs := d.exportSelect sel first last
    let need := (cs.map fun c => ceilDiv c.2.exported.length 16 * 16).sum
    d.guarded port slot
      [(decide (2 < sel) || nonZero b 1 7 || (isUdp port && (addr != 0 || len != 0)), .badField),
       (addr % 16 != 0 || decide (2 ^ 64 < addr + len), .badAddr), (decide (last < first), .badField),
       (d.exports.any fun e => e.port == port, .resourceHeld), (cs.isEmpty, .notFound),
       (cs.any (fun c => decide (0 < c.2.holds)) && decide (d.roleOf port slot ≠ .evidence), .roleInsufficient)] fun d =>
      let e : Export := { port := port, slot := slot, left := cs.map fun c => c.2.seq }
      if isUdp port then ({ d with exports := d.exports ++ [e] }).exportGo port slot
      else if len < need then d.answer port slot Status.outTooSmall.code (le 8 need)
      else { d with exports := d.exports ++ [{ e with addr := some addr }] }

/-- STORE_INFO (R313). -/
def execStoreInfo (port slot : Nat) (s : State) : Host.Outcome State Fault Refusal :=
  s.on fun d => d.command 0x0305 port slot fun _ d =>
    d.reply port slot .ok
      (le 4 d.storStatus ++ le 4 d.storFree ++ le 4 d.heldBlocks ++ le 4 d.storGeom ++ le 8 d.store.nextSeq
        ++ le 8 ((d.containers.head?.map fun c => c.2.seq).getD 0))

/-- TIME_GET (R174, R314). -/
def execTimeGet (port slot : Nat) (s : State) : Host.Outcome State Fault Refusal :=
  s.on fun d => d.command 0x0401 port slot fun _ d =>
    d.reply port slot .ok
      (le 8 (if d.time.servo.run then d.now else 0) ++ le 4 d.boundNow ++ le 4 d.timeStatus
        ++ le 4 (signed 32 d.time.servo.offset) ++ le 4 d.time.aon.pcyc ++ le 4 d.time.aon.oph ++ zeros 4)

/-- TIME_SET (R155, R163, R315): a MANUAL measurement, and what it did. -/
def execTimeSet (port slot : Nat) (s : State) : Host.Outcome State Fault Refusal :=
  s.on fun d => d.command 0x0402 port slot fun b d =>
    let t := numAt b 0 8
    d.guarded port slot [(decide (timeMax < t), .timeRange)] fun d =>
      let o : Int := (t : Int) - (d.now : Int)
      let m := d.measManual o
      let action := if m.1.isSome || (decide (d.time.servo.dstate = .startWait) && m.2.time.servo.run) then 2
        else if m.2.time.servo.slew != 0 && m.2.time.servo.slew != d.time.servo.slew then 1 else 0
      m.2.reply port slot .ok (le 8 (signed 64 o) ++ [u8 action] ++ zeros 7)

/-- TIME_LABEL (R162, R316). -/
def execTimeLabel (port slot : Nat) (s : State) : Host.Outcome State Fault Refusal :=
  s.on fun d => d.command 0x0403 port slot fun b d =>
    let v := numAt b 0 4
    d.guarded port slot
      [(decide (0xFFFF0000 < v), .timeRange), (d.time.cfg.srcA != 1 && d.time.cfg.srcB != 1, .noSource)] fun d =>
      ((d.onTimeCfg fun c => { c with label := v }).labelArm).reply port slot .ok []

/-- TIME_ALARM (R171, R317). -/
def execTimeAlarm (port slot : Nat) (s : State) : Host.Outcome State Fault Refusal :=
  s.on fun d => d.command 0x0404 port slot fun b d =>
    let n := numAt b 0 1
    let flags := numAt b 1 1
    let v := numAt b 8 8
    d.guarded port slot [(decide (3 < n) || decide (3 < flags) || nonZero b 2 2, .badField), (decide (timeMax < v), .timeRange)] fun d =>
      (d.onAlarm n fun _ => { en := flags.testBit 0, wake := flags.testBit 1, value := v, per := numAt b 4 4 }).reply port slot .ok []

end Sys2Proof.Machine
end

