-- ==== Sys2Proof/Machine/CmdKeys.lean ====
section
/-! DEFINITION. Identity and key commands (R318 to R320, R376 to R380). -/
namespace Sys2Proof.Machine

/-- IDENTITY_GET (R318). -/
def execIdentityGet (port slot : Nat) (s : State) : Host.Outcome State Fault Refusal :=
  s.on fun d => d.command 0x0501 port slot fun b d =>
    let off := numAt b 0 4
    let data := d.keys.identityPub ++ d.keys.cert
    d.guarded port slot [outCheck port off data.length] fun d =>
      (d.bufPut port slot off data).reply port slot .ok (le 4 data.length ++ zeros 4 ++ fitBytes 64 d.keys.idDigest)

/-- A delivery message read by R376. -/
structure Delivery where
  kind    : Nat
  replace : Bool
  index   : Nat
  counter : Nat
  issued  : Nat
  attr    : Nat
  payload : List Byte
  deriving DecidableEq, Repr

/-- The fields of a message. -/
def Delivery.of (m : List Byte) : Delivery :=
  { kind := numAt m 5 1, replace := (numAt m 6 2).testBit 0, index := numAt m 0x0C 2, counter := numAt m 0x10 8,
    issued := numAt m 0x18 8, attr := numAt m 0x60 8, payload := bytesAt m 0x70 (numAt m 0x68 4) }

/-- Bytes of the public key that a trust algorithm has (R376). -/
def trustLen (alg : Nat) : Nat := match alg with | 1 => 1793 | 2 => 97 | 3 => 1568 | _ => 0

/-- The payload length that a kind asks for (R376). -/
def Delivery.payloadLen (v : Delivery) : Nat :=
  match v.kind with
  | 1 => 1568 + 8 + ceilDiv (algLen (attrAlg v.attr)) 8 * 8
  | 3 => 8 + trustLen (numAt v.payload 2 1)
  | 5 => 3280
  | 6 => 1793
  | _ => 0

/-- A slot is the target; a trust entry is; attributes are given (R376). -/
def Delivery.onSlot (v : Delivery) : Bool := v.kind == 1 || v.kind == 2 || v.kind == 4
def Delivery.makesKey (v : Delivery) : Bool := v.kind == 1 || v.kind == 2
def Delivery.onTrust (v : Delivery) : Bool := v.kind == 3 || v.kind == 6

/-- The message's own length and reserved fields (R376, R378). -/
def Dev.deliveryShape (d : Dev) (m : List Byte) (v : Delivery) : List (Bool × Status) :=
  let total := numAt m 8 4
  let len := numAt m 0x68 4
  let tail := 0x70 + len
  [(decide (m.length < total) || decide (5288 < total) || decide (3888 < len), .lenTooLarge),
   (total != 112 + len + 1288 || len != v.payloadLen, .badLength),
   (m.take 4 != ascii "QKDM" || numAt m 4 1 != 1 || v.kind == 0 || decide (6 < v.kind) || decide (1 < numAt m 6 2)
      || nonZero m 0x0E 2 || decide (2 ^ 48 ≤ v.counter) || nonZero m 0x6C 4 || (!v.onSlot && v.attr != 0)
      || numAt m tail 2 != 1280 || nonZero m (tail + 2) 6 || (v.kind == 3 && nonZero v.payload 3 5)
      || (v.onSlot && decide (1087 < v.index)) || (v.onTrust && decide (15 < v.index)), .badField),
   (v.onSlot && d.slotAbsent v.index, .badLane)]

/-- The signature of a message (R377): by the fleet authority, or by the key that a first REPLACE_FLEET carries. -/
def Dev.deliverySigned (d : Dev) (m : List Byte) (v : Delivery) : Bool :=
  let fleet := vget d.keys.trust 0 {}
  let text := m.take (0x70 + v.payload.length)
  let sig := bytesAt m (0x70 + v.payload.length + 8) 1280
  if fleet.purpose = 1 then Config.falconVerify fleet.key text sig
  else v.kind == 6 && decide (d.life.st = .provision) && Config.falconVerify v.payload text sig

/-- The message is fresh (R378, R384): expiry wins on both sides. -/
def Dev.deliveryFresh (d : Dev) (v : Delivery) : Bool :=
  decide (v.issued ≤ d.now + 60 * 2 ^ 32) && decide (d.now < v.issued + d.keys.fresh * 2 ^ 32)

/-- The target is occupied without REPLACE; a second AUTHORITY_ENCAPS entry would stand (R377, R378). -/
def Dev.deliveryOccupied (d : Dev) (v : Delivery) : Bool :=
  match v.kind with
  | 3 =>
    ((vget d.keys.trust v.index {}).purpose != 0 && !v.replace)
      || (numAt v.payload 0 1 == 3 && (List.range 16).any fun i => i != v.index && (vget d.keys.trust i {}).purpose == 3)
  | 4 => false
  | 5 => !d.keys.cert.isEmpty && !v.replace
  | 6 => (vget d.keys.trust 0 {}).purpose != 0 && !v.replace
  | _ => (d.keySlot v.index).full && !v.replace

/-- The role may deliver to the target (R378, check 6). -/
def Dev.deliveryRole (d : Dev) (role : Role) (v : Delivery) : Bool :=
  let authority := (v.onSlot && slotClass v.index == 3) || (v.kind == 3 && numAt v.payload 0 1 == 3)
  match role with
  | .fleet => true
  | .evidence => authority
  | .none => decide (d.life.st = .provision)
  | _ => false

/-- A trust entry that a delivery may write (R376, R377). -/
def trustFits (v : Delivery) : Bool :=
  let purpose := numAt v.payload 0 1
  let role := numAt v.payload 1 1
  let alg := numAt v.payload 2 1
  v.index != 0 && match purpose with
    | 2 => decide (1 ≤ role) && decide (role ≤ 5) && (alg == 1 || alg == 2)
    | 3 => role == 0 && alg == 3
    | 4 => role == 0 && alg == 1
    | _ => false

/-- Check 6 of R378 fails. -/
def Dev.deliveryDenied (d : Dev) (role : Role) (v : Delivery) : Bool :=
  let cls := slotClass v.index
  let touched := attrPersist v.attr || attrPersist (d.keySlot v.index).attr
  !d.deliveryRole role v
    || (v.onSlot && (cls == 5 || cls == 6 || (touched && d.keys.genClosed 1 v.index)))
    || (v.makesKey && (d.barred 64 || !attrFits v.index v.attr || !lcAdmits (attrLc v.attr) d.life.st || d.tooNew v.attr
          || attrOrigin v.attr != (if v.kind = 2 then 0 else 1)))
    || (v.kind == 3 && !trustFits v) || (v.kind == 6 && v.index != 0)

/-- The key that INSTALL_SECRET carries (R376): by the transport key, k_t and AES key wrap with padding. -/
def Dev.deliveredKey (d : Dev) (v : Delivery) : Option (List Byte) :=
  let t := d.keySlot 64
  if !t.full then none
  else
    let ss := fitBytes 32 (Config.kemDecaps t.key (v.payload.take 1568))
    let kt := shake (ascii "QKDT" ++ ss ++ le 8 v.counter ++ fitBytes 64 d.keys.idDigest) 32
    match Config.kwpUnwrap kt (v.payload.drop 1568) with
    | none => none
    | some k => if k.length = algLen (attrAlg v.attr) then some k else none

/-- The key log has room for the record that a message writes (R363, R364): kind, index and body bytes. -/
def Dev.deliveryRoom (d : Dev) (v : Delivery) : Bool :=
  let slot := fun stmt => if attrPersist v.attr then d.keys.room 1 v.index (24 + algLen (attrAlg v.attr) + stmt) else d.keys.room 7 0 0
  match v.kind with
  | 1 => slot 0
  | 2 => slot (statementLen (attrAlg v.attr))
  | 3 => d.keys.room 3 v.index v.payload.length
  | 5 => d.keys.room 5 0 3280
  | 6 => d.keys.room 3 0 (8 + 1793)
  | _ => d.keys.room 7 0 0

/-- Checks 1 to 9 of R378. -/
def Dev.deliveryChecks (d : Dev) (port slot outOff : Nat) (m : List Byte) (v : Delivery) : List (Bool × Status) :=
  [(bytesAt m 0x20 64 != fitBytes 64 d.keys.idDigest, .wrongDevice), (!d.deliverySigned m v, .badSignature),
   (decide (v.counter ≤ d.keys.counter) || d.keys.counter == 0xFFFFFFFFFFFF, .counterStale),
   (!d.deliveryFresh v, .deliveryExpired), (d.deliveryOccupied v, .slotOccupied),
   (v.kind == 4 && !(d.keySlot v.index).full, .slotEmpty), (d.deliveryDenied (d.roleOf port slot) v, .attrDenied),
   (v.kind == 1 && (d.deliveredKey v).isNone, .noKey), (v.kind == 2 && !d.canDraw 0, .notReady),
   (!d.deliveryRoom v, .lenTooLarge),
   (v.kind == 2 && (outCheck port outOff (statementLen (attrAlg v.attr))).1, .lenTooLarge)]

/-- The record of a change of a slot (R363, R379): a slot with PERSIST = 0 is changed with a record that clears what
was persistent there, or only counts. -/
def Dev.deliverSlot (d : Dev) (v : Delivery) (k : KeySlot) (p : KeyPending) : Dev :=
  if attrPersist k.attr then d.keyWrite { kind := 1, index := v.index, slot := k, counter := v.counter } p
  else
    d.keyWrite { kind := if attrPersist (d.keySlot v.index).attr then 2 else 7, index := v.index, counter := v.counter }
      { p with ram := some (v.index, k) }

/-- The response of KEY_DELIVER (R319). -/
def Delivery.response (v : Delivery) (stmt : Nat) (digest : List Byte) : List Byte :=
  le 2 v.index ++ zeros 2 ++ le 4 stmt ++ le 8 v.counter ++ fitBytes 64 digest

/-- An accepted message begins its key log record (R379); what it generates is generated now. -/
def Dev.deliver376 (d : Dev) (port slot outOff : Nat) (v : Delivery) : Dev :=
  let p : KeyPending := { done := .deliver port slot }
  match v.kind with
  | 1 =>
    let key := (d.deliveredKey v).getD []
    let k : KeySlot := { attr := v.attr, key := key, pub := pubOf (attrAlg v.attr) key, tag := d.tagOf v.attr, created := d.now,
                         pcyc := d.time.aon.pcyc, meas := d.keys.meas.mS }
    d.deliverSlot v k { p with resp := v.response 0 k.digest }
  | 2 =>
    let g := d.generate v.index v.attr 0
    let s := if g.1.statement.isEmpty then g.2.makeStatement v.index g.1 else (g.1.statement, g.2)
    let k := { g.1 with statement := s.1 }
    s.2.deliverSlot v k { p with resp := v.response s.1.length k.digest, outOff := outOff, outData := s.1 }
  | 3 =>
    let key := v.payload.drop 8
    d.keyWrite
      { kind := 3, index := v.index, counter := v.counter,
        trust := { purpose := numAt v.payload 0 1, role := numAt v.payload 1 1, alg := numAt v.payload 2 1, key := key } }
      { p with resp := v.response 0 (shake key 64) }
  | 4 => d.deliverSlot v {} { p with resp := v.response 0 (zeros 64) }
  | 5 => d.keyWrite { kind := 5, counter := v.counter, body := v.payload } { p with resp := v.response 0 (zeros 64) }
  | _ =>
    d.keyWrite { kind := 3, index := 0, counter := v.counter, trust := { purpose := 1, role := 0, alg := 1, key := v.payload } }
      { p with resp := v.response 0 (shake v.payload 64) }

/-- KEY_DELIVER (R319, R376 to R379): it completes with its key log record. -/
def execKeyDeliver (port slot : Nat) (s : State) : Host.Outcome State Fault Refusal :=
  s.on fun d => d.command 0x0502 port slot fun b d =>
    let off := numAt b 0 4
    let len := numAt b 4 4
    let outOff := numAt b 8 4
    let m := d.bufGet port slot off len
    let v := Delivery.of m
    d.guarded port slot
      (bufChecks port off len ++ d.deliveryShape m v ++ d.deliveryChecks port slot outOff m v) fun d =>
      d.deliver376 port slot outOff v

/-- KEY_STATEMENT (R320, R380): of a key with PERSIST = 0 it is formed now and kept. -/
def execKeyStatement (port slot : Nat) (s : State) : Host.Outcome State Fault Refusal :=
  s.on fun d => d.command 0x0503 port slot fun b d =>
    let n := numAt b 0 2
    let off := numAt b 4 4
    let k := d.keySlot n
    d.guarded port slot
      [(nonZero b 2 2 || decide (1087 < n), .badField), (d.slotAbsent n, .badLane), (!k.full, .slotEmpty),
       (attrOrigin k.attr != 0 || (k.statement.isEmpty && d.barred 1024), .attrDenied), outCheck port off (statementLen (attrAlg k.attr)),
       (k.statement.isEmpty && !d.canDraw 0, .notReady)] fun d =>
      let t := if k.statement.isEmpty then d.makeStatement n k else (k.statement, d)
      ((t.2.setKey n { k with statement := t.1 }).bufPut port slot off t.1).reply port slot .ok (le 4 t.1.length)

/-- KEY_INFO (R320, R359). -/
def execKeyInfo (port slot : Nat) (s : State) : Host.Outcome State Fault Refusal :=
  s.on fun d => d.command 0x0504 port slot fun b d =>
    let n := numAt b 0 2
    d.guarded port slot
      [(decide (1087 < n), .badField), (d.slotAbsent n, .badLane), (!(d.keySlot n).full, .slotEmpty)] fun d =>
      d.reply port slot .ok (le 8 (d.keySlot n).attr ++ (d.keySlot n).digest)

end Sys2Proof.Machine
end

