-- ==== Sys2Proof/Machine/CmdLife.lean ====
section
/-! DEFINITION. Life-cycle and debug commands (R324 to R326, R441, R442, R448 to R451). -/
namespace Sys2Proof.Machine

/-- LC_GET (R324). -/
def execLcGet (port slot : Nat) (s : State) : Host.Outcome State Fault Refusal :=
  s.on fun d => d.command 0x0701 port slot fun _ d =>
    d.reply port slot .ok
      ([u8 d.life.st.code, u8 d.levelNow.code, u8 d.power.mode.code, 0#8] ++ le 4 d.tamper.count ++ le 8 d.keys.counter
        ++ fitBytes 64 d.keys.idDigest ++ zeros 8)

/-- LC_TRANSITION (R325, R441, R442): the response follows the commit edge. -/
def execLcTransition (port slot : Nat) (s : State) : Host.Outcome State Fault Refusal :=
  s.on fun d => d.command 0x0702 port slot fun b d =>
    if nonZero b 1 7 || (LcSt.ofCode (numAt b 0 1)).isNone then d.refuse port slot .badField
    else if bytesAt b 8 64 != fitBytes 64 d.keys.idDigest then d.refuse port slot .wrongDevice
    else
      match LcSt.ofCode (numAt b 0 1) with
      | none => d.refuse port slot .badField
      | some new =>
        if d.lcCommon new && lcRow d.life.st new (decide (d.roleOf port slot = .fleet)) && d.lcPre d.life.st new then
          (d.lcStart new port slot).await port slot .transition []
        else d.lcRefused.refuse port slot .lcPrecond

/-- DEBUG_CHALLENGE (R326, R448, R456). -/
def execDebugChallenge (port slot : Nat) (s : State) : Host.Outcome State Fault Refusal :=
  s.on fun d => d.command 0x0703 port slot fun b d =>
    let level := numAt b 0 1
    d.guarded port slot
      [(!inRange 1 2 level, .badField), (!d.admits level, .debugDenied), (!d.canDraw 0, .notReady)] fun d =>
      let c := d.randDraw 0 32 false
      let expires := d.now + d.dbg.chalTime * 2 ^ 32
      (c.2.onDebug fun g => { g with chal := some (level, c.1, expires) }).reply port slot .ok (c.1 ++ le 8 expires)

/-- DEBUG_UNLOCK; a response whose own length passes the buffer's is refused before the challenge is used up (R11, R283, R326, R449,
R450). -/
def execDebugUnlock (port slot : Nat) (s : State) : Host.Outcome State Fault Refusal :=
  s.on fun d => d.command 0x0704 port slot fun b d =>
    let off := numAt b 0 4
    let len := numAt b 4 4
    d.guarded port slot (bufChecks port off len ++ [(decide (len < numAt (d.bufGet port slot off len) 8 4), .lenTooLarge)]) fun d =>
      let r := d.unlock (d.bufGet port slot off len)
      if r.1 = .ok then r.2.reply port slot .ok [] else r.2.refuse port slot r.1

/-- DEBUG_LOCK (R326, R451). -/
def execDebugLock (port slot : Nat) (s : State) : Host.Outcome State Fault Refusal :=
  s.on fun d => d.command 0x0705 port slot fun _ d => d.debugClose.reply port slot .ok []

end Sys2Proof.Machine
end

