-- ==== Sys2Proof/Machine/CmdLog.lean ====
section
/-! DEFINITION. Event log commands (R321 to R323, R433, R434). -/
namespace Sys2Proof.Machine

/-- LOG_READ (R321, R425): the records from an index upwards that the log keeps. -/
def execLogRead (port slot : Nat) (s : State) : Host.Outcome State Fault Refusal :=
  s.on fun d => d.command 0x0601 port slot fun b d =>
    let start := numAt b 0 8
    let n := numAt b 8 2
    d.guarded port slot
      [(nonZero b 10 6, .badField), (n == 0, .badLength), (decide ((if port = 4 then 126 else 510) < n), .lenTooLarge)] fun d =>
      let kept := d.log.newestFirst.reverse.filter fun r => decide (d.log.oldest ≤ r.index)
      let got := (kept.filter fun r => decide (start ≤ r.index)).take n
      d.reply port slot .ok
        (le 8 ((got.head?.map fun r => r.index).getD start) ++ le 2 got.length
          ++ le 2 (b2n d.log.frozen + 2 * b2n (decide (start < d.log.oldest))) ++ zeros 4 ++ got.flatMap LogRec.bytes)

/-- Another session holds the freeze (R287, R322). -/
def Dev.frozenBy (d : Dev) (p s : Nat) : Bool := d.log.frozen && d.log.holder != some (p, sessOf p s)

/-- LOG_FREEZE and LOG_UNFREEZE (R322, R433). -/
def execLogFreeze (port slot : Nat) (s : State) : Host.Outcome State Fault Refusal :=
  s.on fun d => d.command 0x0602 port slot fun _ d =>
    d.guarded port slot [(d.frozenBy port slot, .resourceHeld)] fun d =>
      (d.logFreeze port (sessOf port slot)).reply port slot .ok []
def execLogUnfreeze (port slot : Nat) (s : State) : Host.Outcome State Fault Refusal :=
  s.on fun d => d.command 0x0603 port slot fun _ d =>
    d.guarded port slot [(d.frozenBy port slot, .resourceHeld)] fun d =>
      (if d.log.frozen then d.logUnfreeze else d).reply port slot .ok []

/-- LOG_CLEAR (R323, R434): the response follows the programming of the clear record. -/
def execLogClear (port slot : Nat) (s : State) : Host.Outcome State Fault Refusal :=
  s.on fun d => d.command 0x0604 port slot fun b d =>
    d.guarded port slot
      [(numAt b 0 8 != d.log.next - 1, .stale), (d.frozenBy port slot, .resourceHeld)] fun d =>
      let i := d.log.next
      (d.logClear port (d.roleCode port slot)).await port slot (.logRec i) (le 8 i)

end Sys2Proof.Machine
end

