-- ==== Sys2Proof/Machine/CmdSession.lean ====
section
/-! DEFINITION. Session and device commands (R290 to R295). -/
namespace Sys2Proof.Machine

/-- The part number (R290). -/
def Variant.part : Variant → Nat | .vtz8064 => 0x8064 | .vtz8032 => 0x8032

/-- GET_INFO (R290). -/
def execGetInfo (port slot : Nat) (s : State) : Host.Outcome State Fault Refusal :=
  s.on fun d => d.command 0x0001 port slot fun _ d =>
    let q := d.sess port (sessOf port slot)
    d.reply port slot .ok
      (le 2 d.variant.part ++ [0xA2#8, 0#8, 4#8, 2#8] ++ le 2 Config.buildNumber
        ++ [u8 d.life.st.code, u8 d.levelNow.code, u8 d.power.mode.code, u8 port, u8 (d.roleCode port slot)] ++ zeros 3
        ++ le 8 (if q.st = .active then q.id else 0) ++ le 4 d.time.aon.pcyc ++ le 4 d.settings.generation
        ++ fitBytes 64 d.keys.idDigest ++ zeros 16)

/-- Another slot of the port is BUSY (R252). -/
def Dev.otherBusy (d : Dev) (p s : Nat) : Bool :=
  (List.range 4).any fun i => i != s && decide ((d.slot p i).st = .busy)

/-- AUTH_HELLO (R248, R249, R251, R252, R291). -/
def execAuthHello (port slot : Nat) (s : State) : Host.Outcome State Fault Refusal :=
  s.on fun d => d.command 0x0002 port slot fun b d =>
    d.guarded port slot
      [(!helloOk port b, .badField), (d.otherBusy port slot, .sessionBusy), (d.portLocked port, .authLocked),
       (!d.roleOk port (numAt b 0 1), .roleDenied), (!d.canDraw 0, .notReady)] fun d =>
      let c := d.challenge port 0 b
      c.2.reply port slot .ok c.1

/-- AUTH_PROVE (R250 to R252, R291). -/
def execAuthProve (port slot : Nat) (s : State) : Host.Outcome State Fault Refusal :=
  s.on fun d => d.command 0x0003 port slot fun b d =>
    d.guarded port slot
      [(nonZero b 2 6, .badField), (d.otherBusy port slot, .sessionBusy), (d.portLocked port, .authLocked)] fun d =>
      if d.proves port 0 b then
        let g := d.grant port 0
        g.2.reply port slot .ok g.1
      else (d.authFail port 0 (numAt (d.sess port 0).hello 0 1)).refuse port slot .authFail

/-- LOGOUT (R291). -/
def execLogout (port slot : Nat) (s : State) : Host.Outcome State Fault Refusal :=
  s.on fun d => d.command 0x0004 port slot fun _ d => (d.reply port slot .ok []).endSession port 0

/-- BUF_WRITE and BUF_READ (R283, R284, R292). -/
def execBufWrite (port slot : Nat) (s : State) : Host.Outcome State Fault Refusal :=
  s.on fun d => d.command 0x0005 port slot fun b d =>
    let off := numAt b 0 4
    let data := b.drop 8
    d.guarded port slot ((nonZero b 4 4, .badField) :: bufChecks port off data.length) fun d =>
      (d.bufPut port slot off data).reply port slot .ok []
def execBufRead (port slot : Nat) (s : State) : Host.Outcome State Fault Refusal :=
  s.on fun d => d.command 0x0006 port slot fun b d =>
    let off := numAt b 0 4
    let len := numAt b 4 4
    d.guarded port slot (bufChecks port off len ++ [(decide (respMax port < len), .lenTooLarge)]) fun d =>
      d.reply port slot .ok (d.bufGet port slot off len)

/-- NOTICE_SUBSCRIBE (R293). -/
def execNoticeSubscribe (port slot : Nat) (s : State) : Host.Outcome State Fault Refusal :=
  s.on fun d => d.command 0x0007 port slot fun b d =>
    let classes := numAt b 0 1
    let sev := numAt b 1 1
    d.guarded port slot [(decide (32 ≤ classes) || decide (4 ≤ sev) || nonZero b 2 2, .badField)] fun d =>
      let d := if isUdp port then d.onSess port slot fun q => { q with classes := classes, minSev := sev }
        else d.onMbx port fun m => { m with notices := { m.notices with classes := classes, minSev := sev } }
      d.reply port slot .ok []

/-- SET_MODE (R221, R294): the response follows the transition. -/
def execSetMode (port slot : Nat) (s : State) : Host.Outcome State Fault Refusal :=
  s.on fun d => d.command 0x0008 port slot fun b d =>
    d.guarded port slot [(nonZero b 1 3, .badField), (decide (8 ≤ numAt b 0 1), .modeInvalid)] fun d =>
      let r := d.modeRequest (numAt b 0 1)
      if r.1 ≠ .ok then r.2.refuse port slot r.1
      else if r.2.power.target.isSome then r.2.await port slot .mode []
      else r.2.reply port slot .ok []

/-- SHUTDOWN and RECOVERY: the response comes first (R222, R230, R294). -/
def execShutdown (port slot : Nat) (s : State) : Host.Outcome State Fault Refusal :=
  s.on fun d => d.command 0x0009 port slot fun _ d => (d.reply port slot .ok []).shutdown
def execRecovery (port slot : Nat) (s : State) : Host.Outcome State Fault Refusal :=
  s.on fun d => d.command 0x000A port slot fun _ d =>
    if !d.mayRecover then (d.askDrain Dev.mayRecover).refuse port slot .modePrecond
    else
      (d.reply port slot .ok []).onPower fun p => { p with target := some .test }

/-- RNG_READ (R295, R395). -/
def execRngRead (port slot : Nat) (s : State) : Host.Outcome State Fault Refusal :=
  s.on fun d => d.command 0x000B port slot fun b d =>
    let n := numAt b 0 4
    d.guarded port slot
      [(n == 0, .badLength), (decide ((if port = 4 then 4064 else 16352) < n), .lenTooLarge), (!d.rng.ready, .notReady)] fun d =>
      (d.onRng fun r => { r with fills := r.fills ++ [{ port := port, slot := slot, count := n, until_ := d.clk + 990000 }] }).serveHost

end Sys2Proof.Machine
end

