-- ==== Sys2Proof/Machine/CmdSettings.lean ====
section
/-! DEFINITION. Settings commands, and the end of Sharnolos's own code flash work (R332 to R336, R532 to R534). -/
namespace Sys2Proof.Machine

/-- Change the settings. -/
def Dev.onSettings (d : Dev) (f : Settings → Settings) : Dev := { d with settings := f d.settings }

/-- The shadow belongs to a session (R287, R332). -/
def SetShadow.mine (h : SetShadow) (p s : Nat) : Bool := h.port == p && h.slot == sessOf p s
def Dev.ownsShadow (d : Dev) (p s : Nat) : Bool := match d.settings.shadow with | some h => h.mine p s | none => false
def Dev.shadowElse (d : Dev) (p s : Nat) : Bool := match d.settings.shadow with | some h => !h.mine p s | none => false

/-- A role writes the settings of a class: 0 O, 1 E, 2 F (R333, R336). -/
def roleWrites (r : Role) (cls : Nat) : Bool :=
  match r with
  | .operator => cls == 0
  | .evidence => cls == 1
  | .service => cls == 0 || cls == 2
  | .fleet => true
  | _ => false

/-- The value in the register that a setting loads; a setting without one has its persistent value (R334, R336). -/
def Dev.runningValue (d : Dev) (id : Nat) : List Byte :=
  let t := d.time.cfg
  match id with
  | 0x02 => le 4 d.portsCfg.chalTime
  | 0x03 => le 4 d.portsCfg.lockout
  | 0x04 => le 4 d.portsCfg.idle
  | 0x10 => le 4 (refCfg t.srcA t.srcB t.ppsFall t.bw)
  | 0x11 => le 4 t.startWait
  | 0x12 => le 4 t.stepThr
  | 0x13 => le 4 t.uncThr
  | 0x14 => le 4 t.slewMax
  | 0x15 => le 4 t.refTo
  | 0x16 => le 4 t.hoStab
  | 0x20 => le 4 d.hive.period
  | 0x21 => le 4 d.hive.epoch
  | 0x22 => le 4 d.keys.epochS
  | 0x23 => le 4 d.keys.fresh
  | 0x30 => le 4 d.power.wakeEn.toNat
  | 0x31 => le 4 d.power.wakeGpio.toNat
  | 0x32 => le 4 d.power.wakePol.toNat
  | 0x40 => le 4 d.store.trig.en.toNat
  | 0x41 => le 4 d.store.trig.pol.toNat
  | 0x42 => le 4 d.store.trig.deb
  | 0x54 => le 4 ((d.port 2).eth.latTx + (d.port 2).eth.latRx <<< 16)
  | 0x55 => le 4 ((d.port 3).eth.latTx + (d.port 3).eth.latRx <<< 16)
  | 0x57 => le 4 (d.port 2).eth.reasm
  | 0x58 => le 4 (d.port 2).eth.retx
  | 0x50 => le 4 (d.port 2).eth.ifReg
  | 0x51 => le 4 (d.port 3).eth.ifReg
  | 0x60 => le 4 d.staging.cfgReg
  | 0x61 => le 4 d.staging.laneMax
  | n => d.settings.get n

/-- SET_READ (R334). -/
def execSetRead (port slot : Nat) (s : State) : Host.Outcome State Fault Refusal :=
  s.on fun d => d.command 0x0A01 port slot fun b d =>
    let id := numAt b 0 2
    let src := numAt b 2 1
    let shadow := match d.settings.shadow with | some h => spGet settingDefault h.vals id | none => []
    let v := if src = 0 then d.settings.get id else if src = 1 then shadow else d.runningValue id
    d.guarded port slot
      [(decide (2 < src) || nonZero b 3 1, .badField), ((settingInfo id).isNone, .badSetting),
       (src == 1 && d.shadowElse port slot, .resourceHeld), (src == 1 && d.settings.shadow.isNone, .notFound)] fun d =>
      d.reply port slot .ok (le 2 v.length ++ zeros 2 ++ v)

/-- A value enters the session's shadow, which begins as a copy of the persistent settings (R332). -/
def Dev.shadowPut (d : Dev) (p s id : Nat) (v : List Byte) : Dev :=
  d.onSettings fun q =>
    let h := q.shadow.getD { port := p, slot := sessOf p s, vals := q.vals }
    { q with shadow := some { h with vals := spSet settingDefault h.vals id v } }

/-- SET_WRITE (R332, R333). -/
def execSetWrite (port slot : Nat) (s : State) : Host.Outcome State Fault Refusal :=
  s.on fun d => d.command 0x0A02 port slot fun b d =>
    let id := numAt b 0 2
    let size := numAt b 2 2
    let v := b.drop 4
    let info := (settingInfo id).getD (0, 0, [])
    d.guarded port slot
      [((settingInfo id).isNone, .badSetting), (size != info.2.1 || v.length != size, .badLength),
       (!roleWrites (d.roleOf port slot) info.1, .roleInsufficient), (!settingOk id v, .settingRange),
       (d.shadowElse port slot, .resourceHeld)] fun d =>
      (d.shadowPut port slot id v).reply port slot .ok []

/-- The first id that a cross-check refuses (R336): TIME_REF_CFG, STG_CFG, the ETH_IF settings, PORT_ROLES. -/
def Dev.setConflict (d : Dev) (vals : Sparse (List Byte)) : Option Nat :=
  let v := fun id => unle (spGet settingDefault vals id)
  let roles := spGet settingDefault vals 0x01
  let locked := fun p => (List.range (nSess p)).any (fun i => decide ((d.sess p i).st = .active))
    && !(List.range (nSess p)).any fun i =>
      decide ((d.sess p i).st = .active) && (numAt roles p 1).testBit (d.sess p i).role.code
  if !refCfgOk (v 0x10) then some 0x10
  else if !stgCfgOk (v 0x60) then some 0x60
  else if !ethRateOk (v 0x50) then some 0x50
  else if !ethRateOk (v 0x51) then some 0x51
  else if (List.range 5).any locked then some 0x01
  else none

/-- The image of a generation is programmed (R532, R534): the sector is erased first where it is not wholly erased, then
body rows, then the commit row. -/
def Dev.programSettings (d : Dev) (gen : Nat) (vals : Sparse (List Byte)) : Dev :=
  let body := settingsBody vals
  let sec := settingsSector gen
  let ws := stageWords body
  let d := d.onSettings fun q => { q with committing := some vals }
  let d := if d.flash.sectorErased 0 sec then d else d.flashSubmit { op := 3, tag := commitTag, bank := 0, offset := sec, count := 1 }
  let d := d.flashSubmit { op := 2, tag := commitTag, bank := 0, offset := sec + 8, count := ws.length / 8, data := ws }
  d.flashSubmit { op := 2, tag := commitTag, bank := 0, offset := sec, count := 1, data := packWords (commitRow gen body) }

/-- SET_COMMIT (R335, R534): it completes with the commit row. -/
def execSetCommit (port slot : Nat) (s : State) : Host.Outcome State Fault Refusal :=
  s.on fun d => d.command 0x0A03 port slot fun b d =>
    match d.settings.shadow with
    | none => d.refuse port slot .resourceHeld
    | some h =>
      let changed := settingIds.filter fun id => spGet settingDefault h.vals id != d.settings.get id
      d.guarded port slot
        [(!h.mine port slot, .resourceHeld), (numAt b 0 4 != d.settings.generation, .stale), (changed.isEmpty, .nothingPending),
         (decide (0xFFFFFFFF ≤ d.settings.generation), .counterExhausted)] fun d =>
        match d.setConflict h.vals with
        | some id => d.answer port slot Status.settingsConflict.code (le 2 id)
        | none =>
          let gen := d.settings.generation + 1
          (d.programSettings gen h.vals).await port slot (.flash commitTag) (le 4 gen ++ le 4 changed.length)

/-- SET_DISCARD (R335). -/
def execSetDiscard (port slot : Nat) (s : State) : Host.Outcome State Fault Refusal :=
  s.on fun d => d.command 0x0A04 port slot fun _ d =>
    d.guarded port slot [(d.shadowElse port slot, .resourceHeld), (!d.ownsShadow port slot, .nothingPending)] fun d =>
      (d.onSettings fun q => { q with shadow := none }).reply port slot .ok []

/-- The commit edge of SET_COMMIT (R335, R534): the settings are in force, those marked Commit load, and the sector after
the next one's place is erased ahead. -/
def Dev.settingsCommitted (d : Dev) : Dev :=
  match d.settings.committing with
  | none => d
  | some vals =>
    let d := d.onSettings fun q =>
      { q with vals := vals, generation := q.generation + 1, defaulted := false, shadow := none, committing := none }
    let d := d.each settingIds fun d id => d.loadSetting false id
    let next := settingsSector (d.settings.generation + 1)
    if d.flash.sectorErased 0 next then d
    else d.flashSubmit { op := 3, tag := preEraseTag, bank := 0, offset := next, count := 1 }

/-- Sharnolos's own code flash work has ended, one job of it: a failure gives the rest up and completes the command with
FLASH_FAIL; the last job completes it (R331, R335, R519). -/
def Dev.flashEnded (d : Dev) (tag : Nat) (st : Status) : Dev :=
  if st ≠ .ok then
    let d := (d.flashDrop tag).onSettings fun q => if tag = commitTag then { q with committing := none } else q
    d.finishBad (.flash tag) Status.flashFail.code
  else if d.flash.pendingTag tag then d
  else (if tag = commitTag then d.settingsCommitted else d).finish (.flash tag) id

end Sys2Proof.Machine
end

