-- ==== Sys2Proof/Machine/CmdStream.lean ====
section
/-! DEFINITION. Commands for streams and verify contexts (R296 to R304). -/
namespace Sys2Proof.Machine

/-- The ring fields of a command (R296, R299, R302). -/
structure RingArgs where
  cls      : Nat := 0
  inSize   : Nat := 0
  cmpSize  : Nat := 0
  msix     : Nat := 0
  inBase   : Nat := 0
  cmpBase  : Nat := 0
  coalTime : Nat := 0
  deriving DecidableEq, Repr

/-- A ring field is out of its range. -/
def RingArgs.bad (a : RingArgs) : Bool :=
  decide (3 < a.cls) || !inRange 4 16 a.inSize || !inRange 7 16 a.cmpSize || decide (2047 < a.msix) || decide (1023 < a.coalTime)

/-- A base is misaligned, or a ring reaches beyond 2^64. -/
def RingArgs.badAddr (a : RingArgs) : Bool :=
  a.inBase % 4096 != 0 || a.cmpBase % 4096 != 0 || decide (2 ^ 64 < a.inBase + 2 ^ a.inSize * 64)
    || decide (2 ^ 64 < a.cmpBase + 2 ^ a.cmpSize * 64)

/-- The ring pair as an open command leaves it: every index is 0, and the error bits stay (R65, R96). A ring_class of 0 is class
2 on context 1 too, since R299 gives the field its meaning of STREAM_OPEN. DEDUCED (log entry 73): R84 has context-1 rings
URGENT by default. -/
def RingArgs.ring (a : RingArgs) (port : Nat) (err : Word) : RingPair :=
  { inBase := a.inBase, inSize := a.inSize, cls := if a.cls = 0 then 2 else a.cls, port := port, cmpBase := a.cmpBase,
    cmpSize := a.cmpSize, msix := a.msix, coalTime := a.coalTime, err := err, valid := true }

/-- The lane of a command exists. -/
def Dev.noLane (d : Dev) (n : Nat) : Bool := decide (d.nLanes ≤ n)

/-- The lane cannot take a new context: it drains, or stands frozen, in SCHUSS or in FAULT. -/
def Lane.stands (l : Lane) : Bool := l.st = .frozen || l.st = .schuss || l.st = .fault

/-- The comb's clock runs or may start (R218). -/
def Dev.combFree (d : Dev) (c : Nat) : Bool := (d.comb c).clkEn || decide (d.combsOn < d.combsMax)

/-- A context opens on a lane: the comb clock runs and the lane is enabled. -/
def Dev.laneWake (d : Dev) (n : Nat) : Dev :=
  let d := if (d.comb (n / 8)).clkEn then d else d.combClock (n / 8) true
  d.onRegs n fun r => { r with en := true }

/-! ### STREAM_OPEN -/

/-- The ring fields of a STREAM_OPEN. -/
def openArgs (b : List Byte) : RingArgs :=
  { cls := numAt b 3 1, inSize := numAt b 4 1, cmpSize := numAt b 5 1, msix := numAt b 6 2, inBase := numAt b 8 8,
    cmpBase := numAt b 0x10 8, coalTime := numAt b 0x18 2 }

/-- Counters that forbid another stream (R12, R168). -/
def Dev.opensDone (d : Dev) : Bool := d.time.aon.pcyc == 0xFFFFFFFF || decide (0xFFFFFFFF ≤ d.power.opens)

/-- The keys that a stream needs are absent (R297, check 9). -/
def Dev.noStreamKey (d : Dev) (options : Nat) : Bool :=
  (d.keys.trustOf 3).isNone || !d.kekCurrent || (options.testBit 0 && !(d.keySlot 1025).full)

/-- The checks of STREAM_OPEN up to the keys (R297). -/
def Dev.openChecks (d : Dev) (b : List Byte) : List (Bool × Status) :=
  let n := numAt b 0 1
  [(decide (63 < n) || decide (2 < numAt b 1 1) || decide (1 < numAt b 2 1) || (openArgs b).bad || nonZero b 0x1A 6, .badField),
   ((openArgs b).badAddr, .badAddr), (d.noLane n, .badLane), (d.closePending, .closePending), (!d.ringMode, .modePrecond),
   (d.opensDone, .counterExhausted), (decide ((d.lane n).ctx0.dir ≠ .closed) || (d.lane n).stands, .laneBusy),
   (!d.combFree (n / 8), .combLimit)]

/-- The policy of a code. -/
def Policy.ofCode : Nat → Policy | 1 => .store | 2 => .storeOnly | _ => .host

/-- The commit edge of STREAM_OPEN: identifier, context, rings, key and the two elements (R296, R297). -/
def Dev.openStream (d : Dev) (p s : Nat) (b : List Byte) : Dev :=
  let n := numAt b 0 1
  let policy := Policy.ofCode (numAt b 1 1)
  let options := numAt b 2 1
  let label := bytesAt b 0x20 32
  let sid := d.time.aon.pcyc * 2 ^ 32 + (d.power.opens + 1)
  let d := (d.laneWake n).onPower fun q => { q with opens := q.opens + 1 }
  let epoch := d.boundaryNow d.hive.epoch
  let time := d.now
  let d := d.onLane n fun l =>
    { l with st := .active, ring0 := (openArgs b).ring p l.ring0.err,
             ctx0 := { dir := .seal, stream := sid, head := headZero sid d.keys.idDigest, nextSeq := 1, policy := policy },
             stream := { options := options, label := label, epochStart := epoch },
             regs := { l.regs with statUnits := 0, statBytes := 0 } }
  let d := d.installKey n epoch
  let key := (d.lane n).key.getD {}
  let d := d.appendElement n 1 0 time (d.openBody n policy options label) none
  let d := d.appendWrapped n key (some (.opened n)) 0
  let l := d.lane n
  d.await p s (.opened n)
    (le 8 sid ++ le 8 time ++ le 8 epoch ++ le 8 2 ++ fitBytes 64 l.ctx0.head ++ le 4 ((l.key.map fun k => k.salt).getD 0))

/-- STREAM_OPEN (R296, R297). While the KEK is being prepared, the request waits. -/
def execStreamOpen (port slot : Nat) (preparing : Bool) (s : State) : Host.Outcome State Fault Refusal :=
  s.on fun d =>
    let b := (d.request port slot).drop 16
    if preparing && (firstBad (d.openChecks b)).isNone && d.noStreamKey (numAt b 2 1) then d
    else d.command 0x0101 port slot fun b d =>
      d.guarded port slot (d.openChecks b ++ [(d.noStreamKey (numAt b 2 1), .noKey), (!d.canDraw (1 + numAt b 0 1 / 8), .notReady)])
        fun d => d.openStream port slot b

/-! ### STREAM_CLOSE -/

/-- STREAM_CLOSE (R298): the lane drains, and the response follows the CLOSE element's entry. -/
def execStreamClose (port slot : Nat) (s : State) : Host.Outcome State Fault Refusal :=
  s.on fun d => d.command 0x0102 port slot fun b d =>
    if d.closePending then d.refuse port slot .closePending
    else
      match d.laneOf (numAt b 0 8) with
      | none => d.refuse port slot .badStream
      | some n =>
        if (d.lane n).ring0.port ≠ port then d.refuse port slot .portDenied
        else
          let d := (d.drain n).onLane n fun l => { l with stream := { l.stream with closing := true } }
          d.await port slot (.closed n) (if (d.lane n).stream.ended then d.closeAnswer n else [])

/-! ### Verify contexts -/

/-- The ring fields of a VERIFY_OPEN. -/
def verifyArgs (b : List Byte) : RingArgs :=
  { cls := numAt b 3 1, inSize := numAt b 4 1, cmpSize := numAt b 5 1, msix := numAt b 6 2, inBase := numAt b 0x10 8,
    cmpBase := numAt b 0x18 8, coalTime := numAt b 0x20 2 }

/-- The fields of a VERIFY_OPEN that are out of range. -/
def verifyBad (b : List Byte) : Bool :=
  decide (63 < numAt b 0 1) || decide (1 < numAt b 1 1) || !inRange 2 3 (numAt b 2 1) || (verifyArgs b).bad || nonZero b 8 8
    || decide (1 < numAt b 0x22 1) || nonZero b 0x23 1 || nonZero b 0x26 2 || (numAt b 2 1 == 2 && nonZero b 0x24 2)
    || (numAt b 0x22 1 == 0 && (numAt b 0x30 8 != 1 || nonZero b 0x38 8))

/-- The checks of VERIFY_OPEN (R300); the authority slot is used by the lane's comb controller (R360). -/
def Dev.verifyChecks (d : Dev) (p s : Nat) (b : List Byte) : List (Bool × Status) :=
  let n := numAt b 0 1
  let opens := numAt b 2 1 == 3
  let k := d.keySlot (numAt b 0x24 2)
  [(verifyBad b, .badField), ((verifyArgs b).badAddr, .badAddr), (d.noLane n, .badLane), (d.closePending, .closePending),
   (!d.ringMode, .modePrecond), (decide (((d.lane n).ctx (numAt b 1 1)).dir ≠ .closed) || (d.lane n).stands, .laneBusy),
   (!d.combFree (n / 8), .combLimit), (opens && decide (d.roleOf p s ≠ .evidence), .roleInsufficient),
   (opens && !k.full, .slotEmpty), (opens && !d.mayUse (1 + n / 8) (numAt b 0x24 2) 2, .attrDenied)]

/-- The commit edge of VERIFY_OPEN (R299). -/
def Dev.openVerify (d : Dev) (p s : Nat) (b : List Byte) : Dev :=
  let n := numAt b 0 1
  let x := numAt b 1 1
  let sid := numAt b 0x28 8
  let ident := bytesAt b 0x40 64
  let head := if numAt b 0x22 1 = 1 then bytesAt b 0x80 56 ++ d.bufGet p s 0 8 else headZero sid ident
  let c : Ctx :=
    { dir := if numAt b 2 1 = 3 then .verifyOpen else .verifyChain, stream := sid, head := head, elements := numAt b 0x38 8,
      nextSeq := numAt b 0x30 8, lastSeq := numAt b 0x30 8 - 1, authSlot := numAt b 0x24 2, ident := ident }
  let d := (d.laneWake n).onLane n fun l =>
    let l := (l.onCtx x fun _ => c).onRing x fun r => (verifyArgs b).ring p r.err
    { l with st := if l.st = .drain then .drain else .active,
             regs := if x = 0 then { l.regs with statUnits := 0, statBytes := 0 } else l.regs }
  d.reply p s .ok (fitBytes 64 head)

/-- VERIFY_OPEN (R299, R300). -/
def execVerifyOpen (port slot : Nat) (s : State) : Host.Outcome State Fault Refusal :=
  s.on fun d => d.command 0x0103 port slot fun b d =>
    d.guarded port slot (d.verifyChecks port slot b) fun d => d.openVerify port slot b

/-- No verify context is open there. -/
def Dev.noVerify (d : Dev) (n x : Nat) : Bool :=
  let k := ((d.lane n).ctx x).dir
  k = .closed || k = .seal

/-- VERIFY_CLOSE (R301): it waits for the descriptor in progress. -/
def execVerifyClose (port slot : Nat) (s : State) : Host.Outcome State Fault Refusal :=
  s.on fun d => d.command 0x0104 port slot fun b d =>
    let n := numAt b 0 1
    let x := numAt b 1 1
    d.guarded port slot
      [(decide (1 < x), .badField), (d.noLane n, .badLane), (d.closePending, .closePending), (d.noVerify n x, .badStream)] fun d =>
      ((d.onCtx n x fun k => { k with closing := true }).await port slot (.verifyEnd n x) []).verifyEnded n x

/-- VERIFY_REANCHOR (R79, R301): accepted only while the context is stopped by R79, which no closed or seal context is. -/
def execVerifyReanchor (port slot : Nat) (s : State) : Host.Outcome State Fault Refusal :=
  s.on fun d => d.command 0x0105 port slot fun b d =>
    let n := numAt b 0 1
    let x := numAt b 1 1
    d.guarded port slot
      [(decide (1 < x) || nonZero b 2 6, .badField), (d.noLane n, .badLane), (d.closePending, .closePending),
       (d.noVerify n x || !((d.lane n).ctx x).broken, .laneBusy)] fun d =>
      let d := (d.onCtx n x fun k =>
        { k with nextSeq := numAt b 8 8, lastSeq := numAt b 8 8 - 1, elements := numAt b 0x10 8, head := bytesAt b 0x18 64,
                 broken := false }).settle n
      d.reply port slot .ok []

/-! ### RING_RETARGET -/

/-- The ring fields of a RING_RETARGET. -/
def retargetArgs (b : List Byte) : RingArgs :=
  { msix := numAt b 4 2, coalTime := numAt b 6 2, inSize := numAt b 8 1, cmpSize := numAt b 9 1, inBase := numAt b 0x10 8,
    cmpBase := numAt b 0x18 8 }

/-- Bytes that a segment takes at 16-byte steps (R303). -/
def segStep (u : MediaUnit) : Nat := ceilDiv (u.payload.length + 144) 16 * 16

/-- Bytes that every owed unit's segment needs (R303). -/
def Lane.redeliverNeed (l : Lane) : Nat := (l.units.map segStep).sum

/-- The units with new output addresses, from `addr` on; segments that the ring took are to be taken again. -/
def readdress (addr : Nat) : List MediaUnit → List MediaUnit
  | [] => []
  | u :: us => { u with desc := { u.desc with outputAddr := addr }, ringTook := false, written := false } :: readdress (addr + segStep u) us

/-- The SEALED entry of a unit (R59). -/
def sealedPost (lane sid : Nat) (p : Policy) (u : MediaUnit) : Post :=
  { entry := entryBytes 2 0 u.desc.index sid u.seq u.time u.desc.payloadLen u.desc.cookie
      (gcmNonce u.key.salt u.seq lane ++ le 4 u.segment.length ++ le 2 (b2n u.truncated + b2n (decide (p = .storeOnly)) * 2)),
    irq := u.desc.flags.testBit 0, seq := u.seq }

/-- The ring pair of a re-targeted context: new rings with indices at 0, on the arriving port, with the entries that wait
(R302, R303). -/
def RingArgs.retarget (a : RingArgs) (port : Nat) (r : RingPair) (again : List Post) : RingPair :=
  { a.ring port r.err with cls := r.cls, posts := again ++ r.posts }

/-- A verify context without its descriptor in progress, which counts as not consumed; a stop by R87 ends, and one by R79
stays until the context is re-anchored or closed. -/
def Ctx.unread (k : Ctx) : Ctx :=
  { k with job := none, running := false, jobFailed := false, jobUntil := 0, jobAt := 0, stopped := false }

/-- A verify context is re-targeted. -/
def Dev.retargetVerify (d : Dev) (p s n x : Nat) (a : RingArgs) : Dev :=
  let r := (d.lane n).ring x
  let next := match ((d.lane n).ctx x).job with | some c => c.index | none => r.inHead
  let d := (d.onLane n fun l => (l.onCtx x Ctx.unread).onRing x fun r => a.retarget p r []).settle n
  d.reply p s .ok (zeros 16 ++ le 4 next ++ zeros 4)

/-- The seal context is re-targeted, and what the host may not hold is redelivered: each segment is written ahead of its SEALED
entry (R303). -/
def Dev.retargetSeal (d : Dev) (p s n : Nat) (a : RingArgs) (addr : Nat) : Dev :=
  let need := (d.lane n).redeliverNeed
  let d := d.onLane n fun l => l.stopIntake 0
  let l := d.lane n
  let again := (l.units.filter fun u => u.ringTook).map (sealedPost n l.ctx0.stream l.ctx0.policy)
  let tokens := l.units.countP fun u => !u.tokenPosted
  let units := readdress addr l.units
  let answer := le 8 need ++ le 4 units.length ++ le 4 tokens ++ le 4 l.ring0.inHead ++ zeros 4
  let d := d.onLane n fun l =>
    { l with units := units, ring0 := a.retarget p l.ring0 again, ctx0 := { l.ctx0 with stopped := false },
             redeliverTo := units.getLast?.map fun u => u.seq }
  if units.isEmpty then d.reply p s .ok answer else d.await p s (.redeliver n 0) answer

/-- The read-back of staged segments: 1 a MAC mismatch, 2 an uncorrectable error, 3 a corrected one (R211). -/
def Dev.readBackFails (d : Dev) (n outcome : Nat) : Bool :=
  ((d.lane n).units.any fun u => u.staged) && (outcome == 1 || outcome == 2)
def Dev.stagingFault (d : Dev) (outcome : Nat) : Dev :=
  let s := d.staging
  { d with staging := { s with err := setBit s.err (if outcome = 1 then 2 else 3), st := .fault } }.internalEvent 8

/-- RING_RETARGET (R302, R303). -/
def execRingRetarget (port slot readBack : Nat) (s : State) : Host.Outcome State Fault Refusal :=
  s.on fun d => d.command 0x0106 port slot fun b d =>
    let n := numAt b 0 1
    let x := numAt b 1 1
    let a := retargetArgs b
    let addr := numAt b 0x20 8
    let len := numAt b 0x28 8
    let r := (d.lane n).ring x
    let sealing := x == 0 && decide ((d.lane n).ctx0.dir = .seal)
    d.guarded port slot
      [(decide (63 < n) || decide (1 < x) || a.bad || nonZero b 2 2 || nonZero b 0x0A 6, .badField),
       (a.badAddr || addr % 16 != 0 || decide (2 ^ 64 < addr + len), .badAddr), (d.noLane n, .badLane),
       (d.closePending, .closePending), (decide (((d.lane n).ctx x).dir = .closed), .badStream),
       (!(r.faulted || r.dead || r.severed), .laneBusy)] fun d =>
      if sealing then
        let need := (d.lane n).redeliverNeed
        if len < need then d.answer port slot Status.outTooSmall.code (le 8 need)
        else if d.readBackFails n readBack then (d.stagingFault readBack).refuse port slot .internalFault
        else
          let d := if readBack = 3 && (d.lane n).units.any (fun u => u.staged) then
              { d with staging := { d.staging with eccCe := Nat.min 0xFFFFFFFF (d.staging.eccCe + 1) } } else d
          d.retargetSeal port slot n a addr
      else d.retargetVerify port slot n x a

/-- STREAM_STATUS (R108, R304). -/
def execStreamStatus (port slot : Nat) (s : State) : Host.Outcome State Fault Refusal :=
  s.on fun d => d.command 0x0107 port slot fun b d =>
    let n := numAt b 0 1
    d.guarded port slot [(d.noLane n, .badLane)] fun d =>
      let l := d.lane n
      d.reply port slot .ok (l.shadowNow.leaf n ++ le 4 (d.laneStatus n) ++ le 4 l.owedReg ++ le 4 l.ring0.inHead)

end Sys2Proof.Machine
end

