-- ==== Sys2Proof/Machine/CodeFlashRows.lean ====
section
/-! DEFINITION. The commands of code flash (R512 to R537). -/
namespace Sys2Proof.Machine

/-- A write of CFL_SQ_TAIL (R520). -/
def execCflSqDoorbell (tail : Nat) (s : State) : Host.Outcome State Fault Refusal :=
  s.on fun d => d.byCore fun d => d.cflDoorbell tail

/-- The descriptor at the head of the queue, of one operation (R521 to R524). -/
def execCflRead (s : State) : Host.Outcome State Fault Refusal := s.on fun d => d.clocked (Dev.cflExec · 1)
def execCflProgram (s : State) : Host.Outcome State Fault Refusal := s.on fun d => d.clocked (Dev.cflExec · 2)
def execCflErase (s : State) : Host.Outcome State Fault Refusal := s.on fun d => d.clocked (Dev.cflExec · 3)
def execCflActivate (s : State) : Host.Outcome State Fault Refusal := s.on fun d => d.clocked (Dev.cflExec · 4)

/-- A lowering from SEALED to OPEN (R531): the counter-only record, the increment of g, the SEALS bit, and then the
zeroised key RAM with a close restart. -/
def Dev.rdpLower (d : Dev) (tag : Nat) (irq : Bool) : Dev :=
  let d := (d.keyRecord { kind := 7 }).onKeys fun k => { k with g := Nat.min 256 (k.g + 1) }
  let d := ((d.rdpSet 0).cflComplete tag 0 1 irq).onKeys fun k => { k with slots := [] }
  d.closeRestart

/-- RDP (R529 to R531). -/
def Dev.cflRdp (d : Dev) : Dev :=
  let w := d.cflWords
  if !d.cflReady || wordOf w 0 % 256 != 5 || d.power.mode = .close then d
  else
    let tag := wordOf w 0 >>> 16 % 65536
    let irq := (wordOf w 0).testBit 8
    let level := wordOf w 3 % 4
    match d.cflCheck w <|> d.rdpCheck level with
    | some st => d.cflTake.cflComplete tag st.code 0 irq
    | none =>
      if level < d.flash.level then d.cflTake.rdpLower tag irq
      else (d.cflTake.rdpSet level).cflComplete tag 0 1 irq
def execCflRdp (s : State) : Host.Outcome State Fault Refusal := s.on fun d => d.byCore Dev.cflRdp

/-- What ended is Sharnolos's own work, or a completion has been written (R523). -/
def Dev.flashAfter (r : Option (Nat × Status) × Dev) : Dev :=
  match r.1 with
  | some e => r.2.flashEnded e.1 e.2
  | none => r.2

/-- A bank's row has programmed, or its erase ended; well or not (R523, R537). -/
def execCflRowProgrammed (bank : Nat) (ok : Bool) (s : State) : Host.Outcome State Fault Refusal :=
  s.on fun d => d.clocked fun d => Dev.flashAfter (d.flashRowDone bank ok)
def execCflEraseDone (bank : Nat) (ok : Bool) (s : State) : Host.Outcome State Fault Refusal :=
  s.on fun d => d.clocked fun d => Dev.flashAfter (d.flashEraseDone bank ok)

/-- The quiet time of a suspended erase has passed (R526, R535). -/
def execCflEraseResumeExpiry (bank : Nat) (s : State) : Host.Outcome State Fault Refusal :=
  s.on fun d => d.clocked fun d => d.eraseResume bank

/-- A write of CFL_FCTRL (R516, R536). -/
def Dev.fctrlWrite (d : Dev) (pf bc : Bool) : Dev := (d.onFlash fun c => { c with pfEn := pf, bcEn := bc }).flashDiscard
def execCflFctrlWrite (pf bc : Bool) (s : State) : Host.Outcome State Fault Refusal :=
  s.on fun d => d.byCore fun d => d.fctrlWrite pf bc

end Sys2Proof.Machine
end

