-- ==== Sys2Proof/Machine/CpuOps.lean ====
section
/-! DEFINITION. What every Kwaxon-48 instruction shares: when a core issues, fetch, the memory protection unit, exception
entry, escalation and lockup, and the order in which instructions follow each other (R471 to R479, R485 to R510). -/
namespace Sys2Proof.Machine

/-- PSW as a word (R485). -/
def Psw.word (p : Psw) : Nat :=
  p.priv.code + b2n p.exm * 4 + b2n p.prec * 8 + b2n p.lact0 * 16 + b2n p.lact1 * 32 + b2n p.esc * 64

/-- The PSW that a word spells, at a privilege already decoded. -/
def Psw.ofWord (p : Priv) (n : Nat) : Psw :=
  { priv := p, exm := n.testBit 2, prec := n.testBit 3, lact0 := n.testBit 4, lact1 := n.testBit 5, esc := n.testBit 6 }

/-- The greater of two privileges. -/
def Priv.max (a b : Priv) : Priv := if a.code < b.code then b else a

/-- Change a core's MPU, and its error register. -/
def Dev.onMpu (d : Dev) (n : Nat) (f : Mpu → Mpu) : Dev := d.onCore n fun c => { c with mpu := f c.mpu }
def Dev.cpuErr (d : Dev) (n b : Nat) : Dev := d.onCore n fun c => { c with err := setBit c.err b }

/-! Events and interrupts (R489, R490). -/

/-- A port has a request that is not answered. -/
def Dev.portLine (d : Dev) (p : Nat) : Bool := (d.port p).mbx.slots.toList.any fun s => s.st == .busy

/-- A comb controller asks for the supervisor (R499, R506). -/
def Dev.combLine (d : Dev) (c : Nat) : Bool := let k := d.core (1 + c); k.lockup || flag k.err 0

/-- The interrupt lines of a core that are asserted, bit i for IRQi. -/
def Dev.supervisorLines (d : Dev) : List Bool :=
  [d.portLine 0, d.portLine 1, d.portLine 4, d.portLine 2 || d.portLine 3, d.store.queue.irq, (vget d.tiles.queues 0 {}).irq,
    (vget d.keys.ops 0 {}).done, d.rng.err != 0#32, d.power.err != 0#32, d.flash.irq, d.staging.err != 0#32,
    d.ringsPaused 0 || d.ringsPaused 1, d.log.err != 0#32, false, false, false]
    ++ (List.range 8).map d.combLine
def Dev.combLines (d : Dev) (c : Nat) : List Bool :=
  ((List.range 8).map fun i => let r := (d.lane (8 * c + i)).regs; r.irqStatus &&& r.irqEn != 0#32)
    ++ [(vget d.tiles.queues (1 + c) {}).irq, (vget d.keys.ops (1 + c) {}).done,
        (List.range 8).any fun i => !(d.lane (8 * c + i)).caps.isEmpty]
def lineBits (bs : List Bool) : Nat := bs.foldr (fun b n => b2n b + 2 * n) 0
def Dev.irqLines (d : Dev) (n : Nat) : Nat := lineBits (if n = 0 then d.supervisorLines else d.combLines (n - 1))

/-- Vectors 17, 18 and 19 are asserted: TAMPER, WAGGLE, TIME. -/
def Dev.wagLine (d : Dev) (n : Nat) : Bool :=
  if n = 0 then d.wag.done
  else let e := vget d.wagEps (n - 1) {}; e.released || e.timedOut || e.bcast
def Dev.timeLine (d : Dev) : Bool := d.time.aon.alarms.toList.any fun a => a.fired
def Dev.eventLines (d : Dev) (n : Nat) : Nat :=
  b2n (n == 0 && d.tamper.irq) * 2 + b2n (d.wagLine n) * 4 + b2n (n == 0 && d.timeLine) * 8

/-- The pending events whose enable bits are set, by vector, the lowest first; EXM is not looked at (R490). -/
def Dev.pendingVec (d : Dev) (n : Nat) : Option Nat :=
  let c := d.core n
  if c.arith.isSome then some 16
  else
    let ev := d.eventLines n &&& c.evEn
    let irq := d.irqLines n &&& c.irqEn.toNat
    match [1, 2, 3].find? fun i => ev.testBit i with
    | some i => some (16 + i)
    | none => ((List.range 32).find? fun i => irq.testBit i).map (24 + ·)

/-- No event is taken at this boundary (R490, R492). -/
def Core.masked (c : Core) : Bool := c.psw.exm || c.slot.isSome || c.shadow.isSome || c.afterShadow

/-- The core is clocked, of the part, and neither locked up nor held (R218, R232, R330, R445, R498). -/
def Dev.coreRuns (d : Dev) (n : Nat) : Bool :=
  let c := d.core n
  d.supply.clocks && decide (n ≤ d.nCombs) && (n == 0 || (d.comb (n - 1)).clkEn) && !c.lockup && d.power.mode != .close
    && (!d.dbg.halted.testBit n || d.dbg.step.testBit n) && !(c.extHalt && decide (0 < n) && c.psw.priv == .user)

/-- An instruction may issue at this boundary: no event is taken, and WAIT has ended (R468, R490). -/
def Dev.mayIssue (d : Dev) (n : Nat) : Bool :=
  let c := d.core n
  d.coreRuns n
    && match d.pendingVec n with
      | some _ => c.masked
      | none => !c.waiting

/-! The memory protection unit (R507 to R510). Spaces here: 0 I-space, 1 D-space, 2 IO-space; kinds: 0 read, 1 write,
2 fetch. -/

/-- Words of a space. -/
def spaceWords : Nat → Nat | 0 => 2 ^ 24 | 1 => 2 ^ 32 | _ => 2 ^ 20

/-- MPU_ATTR.SPACE names the spaces in another order. -/
def MpuRegion.spaceCode (r : MpuRegion) : Nat := match r.space with | 0 => 1 | 1 => 0 | n => n

/-- The shape is valid (R508). -/
def MpuRegion.shaped (r : MpuRegion) : Bool :=
  r.base % 64 == 0 && decide (r.base ≤ r.limit) && (r.limit + 1 - r.base) % 512 == 0
    && decide (r.limit < spaceWords r.spaceCode)

/-- The region meets the conditions of R508. -/
def MpuRegion.decides (r : MpuRegion) (space addr : Nat) : Bool :=
  r.ren && r.shaped && r.spaceCode == space && decide (r.base ≤ addr) && decide (addr ≤ r.limit)
    && !r.suboff.testBit ((addr - r.base) / ((r.limit + 1 - r.base) / 8))

/-- The deciding region, or 31 for none (R508). -/
def Mpu.region_ (m : Mpu) (space addr : Nat) : Nat :=
  ((List.range 16).find? fun r => (vget m.regions r {}).decides space addr).getD 31

/-- The access is allowed (R508). -/
def Mpu.allows (m : Mpu) (priv : Priv) (space kind addr : Nat) : Bool :=
  let r := m.region_ space addr
  if r = 31 then priv == .supervisor && m.sdef
  else (if priv = .user then (vget m.regions r {}).uperm else (vget m.regions r {}).sperm).testBit kind

/-- The first fault is recorded (R509). -/
def Mpu.record (m : Mpu) (priv : Priv) (space kind addr : Nat) : Mpu :=
  if m.valid then { m with multi := true }
  else { m with valid := true, kind := kind, space := space, priv := priv.code, region := m.region_ space addr, faddr := addr }

/-! Exceptions (R490 to R501). -/

/-- An exception: vector, cause, frame words FAULT and AUX, and RET.PC where it is not the instruction itself. -/
structure Exc where
  vec   : Nat
  cause : Nat
  fault : Nat := 0
  aux   : Nat := 0
  ret   : Option Nat := none
  deriving DecidableEq, Repr

/-- BUS_ERROR and MPU_FAULT of an access (R493). -/
def faultWord (space kind addr : Nat) : Nat := addr % 2 ^ 32 + space * 2 ^ 32 + kind * 2 ^ 35
def busError (cause space kind addr : Nat) : Exc := { vec := 3, cause := cause, fault := faultWord space kind addr }
def Mpu.fault (m : Mpu) (space kind addr : Nat) : Exc :=
  { vec := 4, cause := kind + 1, fault := faultWord space kind addr, aux := m.region_ space addr }

/-- The check of one access at a privilege: M is never checked (R507). -/
def Dev.mpuCheck (d : Dev) (n : Nat) (priv : Priv) (space kind addr : Nat) : Option (Dev × Exc) :=
  let m := (d.core n).mpu
  if priv = .machine || m.allows priv space kind addr then none
  else some (d.onMpu n fun m => m.record priv space kind addr, m.fault space kind addr)

/-- Where execution goes on after the slot: CONT (R493). -/
def Core.cont (c : Core) : Nat :=
  match c.slot with
  | some s => (if s.taken then s.target else c.pc + 1) % 2 ^ 24
  | none => 0

/-- The frame of an exception (R493, R494). -/
def Core.frame (c : Core) (e : Exc) (reason : Nat) : List W48 :=
  let ds := e.ret.isNone && c.slot.isSome
  let sh := e.ret.isNone && c.shadow.isSome
  [e.ret.getD c.pc + b2n ds * 2 ^ 24 + b2n sh * 2 ^ 25, c.psw.word, e.vec + e.cause * 2 ^ 8 + reason * 2 ^ 12,
    if ds then c.cont else 0, e.fault, if sh then (c.shadow.map Psw.word).getD 0 else 0, (vget c.a 15 0#48).toNat, e.aux].map
    (BitVec.ofNat 48)

/-- A word of a core's D-space exists (R460). -/
def inDspace (n addr : Nat) : Bool := decide (addr < sramWords n)

/-- The frame is pushed word by word, checked at a privilege; a fault leaves the words already written (R491). -/
def Dev.push (d : Dev) (n : Nat) (priv : Priv) (base : W48) : List W48 → Bool × Dev
  | [] => (true, d)
  | w :: ws =>
    if 2 ^ 32 ≤ base.toNat then (false, d)
    else
      match d.mpuCheck n priv 1 1 base.toNat with
      | some r => (false, r.1)
      | none =>
        if inDspace n base.toNat then
          (d.onCore n fun c => { c with dmem := spSet (fun _ => 0#48) c.dmem base.toNat w }).push n priv (base + 1#48) ws
        else (false, d)

/-- The core leaves its instruction for a handler. -/
def Core.into (c : Core) (psw : Psw) (sp : W48) (pc : Nat) (e : Exc) : Core :=
  { c with a := vupd c.a 15 fun _ => sp, psw := psw, pc := pc, slot := none, shadow := none, afterShadow := false,
           landed := false, waiting := false, arith := if e.vec = 16 then none else c.arith, lastVec := e.vec,
           lastCause := e.cause }

/-- DBG_CORE.STEP has been used up. -/
def Dev.stepped (d : Dev) (n : Nat) : Dev := { d with dbg := { d.dbg with step := d.dbg.step - (d.dbg.step &&& 2 ^ n) } }

/-- Lockup (R498). -/
def Dev.lockUp (d : Dev) (n : Nat) : Dev :=
  let d := d.onCore n fun c => { c with lockup := true }
  if n = 0 then d.supervisorFault else d

/-- Escalation: 1 ENTRY, 2 EXM (R497). -/
def Dev.escalate (d : Dev) (n : Nat) (e : Exc) (reason : Nat) : Dev :=
  let c := d.core n
  let base := c.esp - 8#48
  let r := d.push n .machine base (c.frame e reason)
  if !r.1 then r.2.lockUp n
  else r.2.onCore n fun c =>
    { c.into { c.psw with priv := .machine, exm := true, esc := true, lact0 := false, lact1 := false } base c.eha e with
      escCnt := satInc 16 c.escCnt, err := setBit c.err 2 }

/-- The entry of a vector: handler address and privilege; none where it is out of reach or not in use (R488, R491). -/
def Dev.vector (d : Dev) (n v : Nat) : Option (Nat × Priv) :=
  let c := d.core n
  let w := (spGet (fun _ => 0#48) c.dmem (c.vbr + v)).toNat
  if !inDspace n (c.vbr + v) || !w.testBit 47 then none
  else
    match w >>> 24 % 4 with
    | 1 => some (w % 2 ^ 24, .supervisor)
    | 3 => some (w % 2 ^ 24, .machine)
    | _ => none

/-- The privilege a handler runs at: ILLEGAL_RETURN stays at the current one (R491, R505). -/
def Core.handlerPriv (c : Core) (e : Exc) (p : Priv) : Priv := if e.vec = 8 then c.psw.priv else p.max c.psw.priv

/-- Exception entry through the vector table (R491). -/
def Dev.enter (d : Dev) (n : Nat) (e : Exc) : Dev :=
  let c := d.core n
  match d.vector n e.vec with
  | none => d.escalate n e 1
  | some (pc, p) =>
    let h := c.handlerPriv e p
    match d.mpuCheck n h 1 0 (c.vbr + e.vec) with
    | some r => r.1.escalate n e 1
    | none =>
      let base := vget c.a 15 0#48 - 8#48
      let r := d.push n h base (c.frame e 0)
      if !r.1 then r.2.escalate n e 1
      else r.2.onCore n fun c => c.into { c.psw with priv := h, exm := true, lact0 := false, lact1 := false } base pc e

/-- A synchronous fault is taken (R490, R495, R498, R499). -/
def Dev.raise (d : Dev) (n : Nat) (e : Exc) : Dev :=
  let d := d.stepped n
  let d := if e.vec = 8 then (d.cpuErr n 0).onCore n fun c => { c with secEvt := satInc 32 c.secEvt } else d
  let c := d.core n
  if c.psw.esc then d.lockUp n
  else if c.psw.exm && e.vec != 8 then d.escalate n e 2
  else d.enter n e

/-- ILLEGAL_INSTRUCTION, PRIVILEGE and ARITHMETIC. -/
def illegal (cause : Nat) : Exc := { vec := 1, cause := cause }
def privilege (cause : Nat) : Exc := { vec := 2, cause := cause }

/-! Fetch (R490, R507, R514, R515). -/

/-- How an access of a core ends: it is served, it stalls, or it raises a fault; each with the device after it. -/
inductive Access where
  | ok (d : Dev) | stall (d : Dev) | fault (d : Dev) (e : Exc)

/-- A mismatch of the word code of a core's read (R409). -/
def Dev.codeFault (d : Dev) (space kind addr : Nat) : Access := .fault (d.internalEvent 8) (busError 2 space kind addr)

/-- I-space of a core: `kind` 0 an ILD, 2 a fetch (R330, R514). -/
def Dev.ispaceRead (d : Dev) (n : Nat) (kind addr : Nat) (code : Bool) : Access :=
  let c := d.core n
  let bad := fun (cause : Nat) (d : Dev) => Access.fault d (busError cause 0 kind addr)
  let served := fun (d : Dev) => if code then Access.ok d else d.codeFault 0 kind addr
  let bank := fun (b off : Nat) =>
    match d.flashFetch b off (kind == 2) c.landed with
    | (.served, d) => served d
    | (.stall, d) => .stall d
    | (.device, d) => bad 3 d
    | (.suspended, d) => bad 4 d
  if n ≠ 0 then if addr < 262144 then served d else bad 3 d
  else if addr < 0x200000 then if addr < 0x4000 && !d.flash.romOff then served d else bank d.flash.runBank addr
  else if addr < 0x400000 then
    if kind = 2 || c.psw.priv = .user then bad 3 d else bank d.flash.staging (addr - 0x200000)
  else if addr < 0x404000 then served d
  else bad 3 d

/-- The fetch of the instruction at the core's pc; while the MPU's rules are not in force it stalls below M (R510). -/
def Dev.fetch (d : Dev) (u : Issue) : Access :=
  let c := d.core u.core
  if c.psw.priv ≠ .machine && !c.mpu.inForce then .stall d
  else
    match d.mpuCheck u.core c.psw.priv 0 2 c.pc with
    | some r => .fault r.1 r.2
    | none => d.ispaceRead u.core 2 c.pc u.fetchCode

/-! The order of instructions (R471 to R479). -/

/-- A taken branch out of a loop body ends the level; one that ends level 0 also ends level 1 (R476). -/
def Core.leaveLoops (c : Core) (target : Nat) : Core :=
  let out := fun (l : LoopRegs) => decide (target < l.start) || decide (l.stop < target)
  let end0 := c.psw.lact0 && out c.loop0
  let end1 := c.psw.lact1 && (out c.loop1 || end0)
  { c with psw := { c.psw with lact0 := c.psw.lact0 && !end0, lact1 := c.psw.lact1 && !end1 } }

/-- The count of a loop after an iteration, 32 bits. -/
def LoopRegs.fewer (l : LoopRegs) : Nat := (l.count + (2 ^ 32 - 1)) % 2 ^ 32

/-- Execution goes on at the next address, unless an active level's last instruction was there (R473). -/
def Core.next0 (c : Core) : Core :=
  if c.psw.lact0 && c.loop0.stop == c.pc then
    let k := c.loop0.fewer
    let c := { c with loop0 := { c.loop0 with count := k } }
    if k = 0 then { c with psw := { c.psw with lact0 := false }, pc := (c.pc + 1) % 2 ^ 24 } else { c with pc := c.loop0.start }
  else { c with pc := (c.pc + 1) % 2 ^ 24 }
def Core.next (c : Core) : Core :=
  if c.psw.lact1 && c.loop1.stop == c.pc then
    let k := c.loop1.fewer
    let c := { c with loop1 := { c.loop1 with count := k } }
    if k = 0 then { c with psw := { c.psw with lact1 := false } }.next0 else { c with pc := c.loop1.start }
  else c.next0

/-- The slot's transfer, or the next address in sequence (R471). -/
def Core.follow (c : Core) : Core :=
  match c.slot with
  | some s =>
    if !s.taken then { c with slot := none, pc := (c.pc + 1) % 2 ^ 24 }
    else if 2 ^ 24 ≤ s.target then { c with slot := none, pc := s.branch }
    else { c.leaveLoops s.target with slot := none, pc := s.target, landed := true }
  | none => c.next

/-- One more instruction has completed, and a pending mode change takes effect after its shadow (R478, R479). -/
def Core.retire (c : Core) (shadow : Option Psw) : Core :=
  { c with retired := (c.retired + 1) % 2 ^ 48, afterShadow := c.shadow.isSome, psw := c.shadow.getD c.psw, shadow := shadow }

/-- An instruction that is no control transfer completes; `shadow` is the PSW of an MTS. The branch whose slot it was raises
its own fault then (R471). -/
def Dev.complete (d : Dev) (n : Nat) (shadow : Option Psw := none) : Dev :=
  let s := (d.core n).slot
  let d := (d.stepped n).onCore n fun c => ({ c with landed := false }.follow).retire shadow
  match s with
  | some s =>
    if s.taken && decide (2 ^ 24 ≤ s.target) then d.raise n { busError 1 0 2 s.target with ret := some s.branch } else d
  | none => d

/-- A delayed branch completes: its slot comes next (R471). -/
def Dev.branch (d : Dev) (n target : Nat) (taken : Bool) : Dev :=
  (d.stepped n).onCore n fun c =>
    { c.retire none with slot := some { branch := c.pc, target := target, taken := taken }, pc := (c.pc + 1) % 2 ^ 24, landed := false }

/-- Another control transfer completes, and execution goes on at `pc`. -/
def Dev.goOn (d : Dev) (n pc : Nat) : Dev := (d.stepped n).onCore n fun c => { c.retire none with pc := pc, landed := false }

/-! Issue (R484, R490). -/

/-- What an instruction brings to its issue: the checks on its word, its class, the checks of R484 that depend on the
core, the privilege it needs, and its own effect. -/
structure Act where
  undef   : Bool := false
  resv    : Bool := false
  /-- A control transfer, and one of the delayed branches among them (R472). -/
  ctl     : Bool := false
  delayed : Bool := false
  late    : Dev → Core → Option Nat := fun _ _ => none
  priv    : Priv := .user
  run     : Dev → Dev

/-- A control transfer stands where R475 forbids it. -/
def Core.loopEnd (c : Core) (a : Act) : Bool :=
  let at_ := fun (on : Bool) (l : LoopRegs) => on && (c.pc == l.stop || (a.delayed && c.pc + 1 == l.stop))
  a.ctl && (at_ c.psw.lact0 c.loop0 || at_ c.psw.lact1 c.loop1)

/-- The first ILLEGAL_INSTRUCTION cause (R484). -/
def Act.cause (a : Act) (d : Dev) (c : Core) : Option Nat :=
  if a.undef then some 1
  else if a.resv then some 2
  else if a.ctl && (c.slot.isSome || c.shadow.isSome) then some 3
  else if c.loopEnd a then some 4
  else a.late d c

/-- The instruction is fetched and its checks have passed, or the first fault is taken. -/
def Dev.execute (d : Dev) (n : Nat) (a : Act) : Dev :=
  let c := d.core n
  match a.cause d c with
  | some cause => d.raise n (illegal cause)
  | none => if c.psw.priv.code < a.priv.code then d.raise n (privilege 1) else a.run d

/-- An instruction issues on a core (R490). -/
def Dev.issue (d : Dev) (u : Issue) (a : Act) : Dev :=
  if !d.mayIssue u.core then d
  else
    match d.fetch u with
    | .stall d => d
    | .fault d e => (d.onCore u.core fun c => { c with waiting := false }).raise u.core e
    | .ok d => (d.onCore u.core fun c => { c with waiting := false }).execute u.core a

/-- The lowest pending event that is not masked is taken (R490, R491). Below M the entry stalls while the MPU's rules are
not in force, unless its handler runs at M. -/
def Dev.takeEvent (d : Dev) (n : Nat) : Dev :=
  let c := d.core n
  match d.pendingVec n with
  | none => d
  | some v =>
    let e : Exc := { vec := v, cause := 0, aux := if v = 16 then (c.arith.map (·.1)).getD 0 else 0, ret := some c.pc }
    let stalls := match d.vector n v with | some (_, p) => c.handlerPriv e p != .machine && !c.mpu.inForce | none => false
    if !d.coreRuns n || c.masked || stalls then d else (d.stepped n).enter n e

end Sys2Proof.Machine
end

