-- ==== Sys2Proof/Machine/Operands.lean ====
section
/-! DEFINITION. The operand forms of Kwaxon-48: register fields, immediates, addressing modes, and arithmetic on 48-bit and
112-bit values (R459 to R466). -/
namespace Sys2Proof

/-- Reserved bits of FR between RS2 and FN (R466). -/
def FormR.resvSet (f : FormR) : Bool := f.resv != 0#17

/-- Immediates, sign- or zero-extended (R466). -/
def FormI.simm (f : FormI) : W48 := f.imm.signExtend 48
def FormI.zimm (f : FormI) : W48 := f.imm.zeroExtend 48
def FormB.simm (f : FormB) : W48 := f.opnd.signExtend 48
def FormB.rs2 (f : FormB) : BitVec 5 := f.opnd.extractLsb' 4 5

/-- A shift immediate: bits 5:0, with bits 29:6 reserved (R466). -/
def FormI.amount (f : FormI) : Nat := f.imm.toNat % 64
def FormI.shiftResv (f : FormI) : Bool := decide (64 ≤ f.imm.toNat)

/-- MODE values 4 and 7 are undefined (R467). -/
def FormM.undef (f : FormM) : Bool := f.mode == 4#3 || f.mode == 7#3

end Sys2Proof
namespace Sys2Proof.Machine

/-- Reading and writing the registers of a core. -/
def Core.dreg (c : Core) (i : BitVec 5) : W48 := vget c.d i.toNat 0#48
def Core.areg (c : Core) (i : Nat) : W48 := vget c.a i 0#48
def Core.acc (c : Core) (i : BitVec 5) : Acc := vget c.ac i.toNat 0#112
def Core.setD (c : Core) (i : BitVec 5) (v : W48) : Core := { c with d := vupd c.d i.toNat fun _ => v }
def Core.setA (c : Core) (i : Nat) (v : W48) : Core := { c with a := vupd c.a i fun _ => v }
def Core.setAc (c : Core) (i : BitVec 5) (v : Acc) : Core := { c with ac := vupd c.ac i.toNat fun _ => v }

/-- A 5-bit field that names an address register, or an accumulator, names none (R459). -/
def badA (i : BitVec 5) : Bool := decide (16 ≤ i.toNat)
def badAc (i : BitVec 5) : Bool := decide (4 ≤ i.toNat)

/-! Addressing modes (R461 to R464). -/

/-- `n` low bits in reverse order. -/
def revBits : Nat → Nat → Nat
  | 0, _ => 0
  | n + 1, v => (v % 2) * 2 ^ n + revBits n (v / 2)

/-- The smallest power of two at or above a length, up to 2^20. -/
def powerAbove (l : Nat) : Nat := 2 ^ (((List.range 21).find? fun i => decide (l ≤ 2 ^ i)).getD 20)

/-- The writeback of modulo post-modify (R463). -/
def moduloNext (len a : Nat) (d : Int) : Nat :=
  let b := a - a % powerAbove len
  b + (((a : Int) - b + d) % (len : Int)).toNat

/-- The writeback of bit-reversed post-modify (R463). -/
def reversedNext (n a : Nat) (d : Int) : Nat :=
  let m := 2 ^ n
  a - a % m + revBits n ((revBits n (a % m) + revBits n (d % (m : Int)).toNat) % m)

/-- The effective address and the writeback to A[AB], if any (R462). -/
def Core.address (c : Core) (f : FormM) : W48 × Option W48 :=
  let a := c.areg f.ab.toNat
  let d := f.disp.signExtend 48
  let k := vget c.mods f.ab.toNat {}
  match f.mode.toNat with
  | 0 => (a + d, none)
  | 1 => (a + c.dreg f.ix + d, none)
  | 2 => (a, some (a + d))
  | 3 => (a + d, some (a + d))
  | 5 => (a, some (BitVec.ofNat 48 (moduloNext k.len a.toNat f.disp.toInt)))
  | 6 => (a, some (BitVec.ofNat 48 (reversedNext k.nbits a.toNat f.disp.toInt)))
  | _ => (a, none)

/-- A base written back (R462). -/
def Core.writeBack (c : Core) (f : FormM) : Option W48 → Core
  | some v => c.setA f.ab.toNat v
  | none => c

/-- The checks of modes 5 and 6; `plain` for LD, ST, LDA and STA (R463, R464, R484). -/
def modeLate (f : FormM) (plain : Bool) (d : Dev) (c : Core) : Option Nat :=
  let k := vget c.mods f.ab.toNat {}
  if f.mode != 5#3 && f.mode != 6#3 then none
  else if d.power.mode != .test && d.power.bootDone then some 9
  else if !plain || decide (4 ≤ f.ab.toNat) then some 10
  else if (f.mode == 5#3 && k.len == 0) || (f.mode == 6#3 && k.nbits == 0) then some 11
  else none

/-! Arithmetic (R468). -/

/-- The signed range of 48 bits. -/
def fits48 (v : Int) : Bool := decide (-(2 ^ 47 : Int) ≤ v) && decide (v < (2 ^ 47 : Int))

/-- Shifts by an unsigned amount; from 48 on, 0 for SHL and SHR and the sign fill for SAR. -/
def shl48 (v : W48) (n : Nat) : W48 := if 48 ≤ n then 0#48 else v <<< n
def shr48 (v : W48) (n : Nat) : W48 := if 48 ≤ n then 0#48 else v >>> n
def sar48 (v : W48) (n : Nat) : W48 := v.sshiftRight (if 48 ≤ n then 47 else n)

/-- The signed and the unsigned product of 96 bits. -/
def smul96 (a b : W48) : Int := a.toInt * b.toInt
def umul96 (a b : W48) : Nat := a.toNat * b.toNat

/-- Leading zeros and ones of a word. -/
def ones (v : W48) : Nat := ((List.range 48).filter fun i => v.getLsbD i).length
def leading (v : W48) : Nat := ((List.range 48).takeWhile fun i => !v.getLsbD (47 - i)).length

/-- Byte `i` of a word, and the word with it replaced; past byte 5, 0 and no change. -/
def byteOf (v : W48) (i : Nat) : W48 := if 5 < i then 0#48 else (v >>> (8 * i)) &&& 0xFF#48
def byteIn (v w : W48) (i : Nat) : W48 :=
  if 5 < i then v else (v &&& ~~~(0xFF#48 <<< (8 * i))) ||| ((w &&& 0xFF#48) <<< (8 * i))

/-- An accumulator shifted by a signed amount, positive to the left (R468). -/
def shiftAcc (v : Acc) (n : Int) : Acc :=
  if 0 ≤ n then if 111 < n then 0#112 else v <<< n.toNat
  else v.sshiftRight (if n < -111 then 111 else (-n).toNat)

/-- EXTAC: the shifted value and whether it needs saturation (R468). -/
def extract (v : Acc) (n : W48) : W48 × Bool :=
  let s := (v.sshiftRight (Nat.min (n.toNat % 128) 111)).toInt
  if fits48 s then (BitVec.ofInt 48 s, false)
  else (if s < 0 then BitVec.ofInt 48 (-(2 ^ 47 : Int)) else BitVec.ofInt 48 ((2 ^ 47 : Int) - 1), true)

/-! The shape of instructions that compute one result. -/

/-- A result in a data register, an address register or an accumulator, then the next instruction. -/
def Dev.putD (d : Dev) (n : Nat) (rd : BitVec 5) (f : Core → W48) : Dev :=
  (d.onCore n fun c => c.setD rd (f c)).complete n
def Dev.putA (d : Dev) (n : Nat) (rd : BitVec 5) (f : Core → W48) : Dev :=
  (d.onCore n fun c => c.setA rd.toNat (f c)).complete n
def Dev.putAc (d : Dev) (n : Nat) (rd : BitVec 5) (f : Core → Acc) : Dev :=
  (d.onCore n fun c => c.setAc rd (f c)).complete n

/-- A result that may raise an arithmetic exception: with PREC = 1 the exception is taken and nothing is written; with
PREC = 0 the given value is written and ARITH_ASYNC is pending, unless one is already (R469, R500, R501). -/
def Dev.putArith (d : Dev) (n : Nat) (rd : BitVec 5) (f : Core → W48 × Option Nat) : Dev :=
  let c := d.core n
  match (f c).2 with
  | none => d.putD n rd fun c => (f c).1
  | some cause =>
    if c.psw.prec then d.raise n { vec := 5, cause := cause }
    else
      let d := if c.arith.isSome then d.cpuErr n 1 else d.onCore n fun c => { c with arith := some (c.pc, cause) }
      d.putD n rd fun c => (f c).1

/-- FR instructions on data registers. -/
def Dev.alu (d : Dev) (u : Issue) (f : FormR) (g : W48 → W48 → W48) : Dev :=
  d.issue u { resv := f.resvSet, run := fun d => d.putD u.core f.rd fun c => g (c.dreg f.rs1) (c.dreg f.rs2) }
def Dev.aluChecked (d : Dev) (u : Issue) (f : FormR) (g : W48 → W48 → W48 × Option Nat) : Dev :=
  d.issue u { resv := f.resvSet, run := fun d => d.putArith u.core f.rd fun c => g (c.dreg f.rs1) (c.dreg f.rs2) }

/-- FI instructions on data registers. -/
def Dev.aluImm (d : Dev) (u : Issue) (f : FormI) (resv : Bool) (g : W48 → W48) : Dev :=
  d.issue u { resv := resv, run := fun d => d.putD u.core f.rd fun c => g (c.dreg f.rs1) }

/-- Accumulator instructions that write an accumulator from two data registers. -/
def Dev.accOp (d : Dev) (u : Issue) (f : FormR) (resv : Bool) (g : Acc → W48 → W48 → Acc) : Dev :=
  d.issue u { resv := f.resvSet || badAc f.rd || resv,
              run := fun d => d.putAc u.core f.rd fun c => g (c.acc f.rd) (c.dreg f.rs1) (c.dreg f.rs2) }

/-- Accumulator instructions that write a data register. -/
def Dev.accRead (d : Dev) (u : Issue) (f : FormR) (g : Acc → W48) : Dev :=
  d.issue u { resv := f.resvSet || badAc f.rs1, run := fun d => d.putD u.core f.rd fun c => g (c.acc f.rs1) }

/-- Results with their overflow, and division (R468, R469). -/
def overflowing (v : Int) : W48 × Option Nat := (BitVec.ofInt 48 v, if fits48 v then none else some 1)
def dividing (b zero q : W48) : W48 × Option Nat := if b = 0#48 then (zero, some 2) else (q, none)

end Sys2Proof.Machine
end

