-- ==== Sys2Proof/Machine/CpuAcc.lean ====
section
/-! DEFINITION. The accumulator instructions (R468, R469). -/
namespace Sys2Proof.Machine

/-- MAC (R468). -/
def execCpuMac (u : Issue) (f : FormR) (s : State) : Host.Outcome State Fault Refusal :=
  s.on fun d => d.accOp u f false fun v a b => v + BitVec.ofInt 112 (smul96 a b)

/-- MSU (R468). -/
def execCpuMsu (u : Issue) (f : FormR) (s : State) : Host.Outcome State Fault Refusal :=
  s.on fun d => d.accOp u f false fun v a b => v - BitVec.ofInt 112 (smul96 a b)

/-- MACU (R468). -/
def execCpuMacu (u : Issue) (f : FormR) (s : State) : Host.Outcome State Fault Refusal :=
  s.on fun d => d.accOp u f false fun v a b => v + BitVec.ofNat 112 (umul96 a b)

/-- MPY (R468). -/
def execCpuMpy (u : Issue) (f : FormR) (s : State) : Host.Outcome State Fault Refusal :=
  s.on fun d => d.accOp u f false fun _ a b => BitVec.ofInt 112 (smul96 a b)

/-- CLRAC; RS1 and RS2 are reserved (R468). -/
def execCpuClrac (u : Issue) (f : FormR) (s : State) : Host.Outcome State Fault Refusal :=
  s.on fun d => d.accOp u f (f.rs1 != 0#5 || f.rs2 != 0#5) fun _ _ _ => 0#112

/-- SHAC (R468). -/
def execCpuShac (u : Issue) (f : FormR) (s : State) : Host.Outcome State Fault Refusal :=
  s.on fun d => d.accOp u f false fun v a _ => shiftAcc v a.toInt

/-- EXTAC (R468). -/
def execCpuExtac (u : Issue) (f : FormR) (s : State) : Host.Outcome State Fault Refusal :=
  s.on fun d => d.issue u
    { resv := f.resvSet || badAc f.rs1
      run := fun d => d.putD u.core f.rd fun c => (extract (c.acc f.rs1) (c.dreg f.rs2)).1 }

/-- EXTACV: a value that needs saturation raises AC_RANGE (R468, R469). -/
def execCpuExtacv (u : Issue) (f : FormR) (s : State) : Host.Outcome State Fault Refusal :=
  s.on fun d => d.issue u
    { resv := f.resvSet || badAc f.rs1
      run := fun d => d.putArith u.core f.rd fun c =>
        let r := extract (c.acc f.rs1) (c.dreg f.rs2)
        (r.1, if r.2 then some 3 else none) }

/-- LDACL: bits 47:0 (R468). -/
def execCpuLdacl (u : Issue) (f : FormR) (s : State) : Host.Outcome State Fault Refusal :=
  s.on fun d => d.accOp u f false fun v a _ => (v >>> 48) <<< 48 ||| a.zeroExtend 112

/-- LDACM: bits 95:48 (R468). -/
def execCpuLdacm (u : Issue) (f : FormR) (s : State) : Host.Outcome State Fault Refusal :=
  s.on fun d => d.accOp u f false fun v a _ => v &&& ~~~((BitVec.allOnes 48).zeroExtend 112 <<< 48) ||| a.zeroExtend 112 <<< 48

/-- LDACH: bits 111:96 from bits 15:0 (R468). -/
def execCpuLdach (u : Issue) (f : FormR) (s : State) : Host.Outcome State Fault Refusal :=
  s.on fun d => d.accOp u f false fun v a _ => v &&& (BitVec.allOnes 96).zeroExtend 112 ||| a.zeroExtend 112 <<< 96

/-- MFACL: bits 47:0 (R468). -/
def execCpuMfacl (u : Issue) (f : FormR) (s : State) : Host.Outcome State Fault Refusal :=
  s.on fun d => d.accRead u f fun v => v.extractLsb' 0 48

/-- MFACM: bits 95:48 (R468). -/
def execCpuMfacm (u : Issue) (f : FormR) (s : State) : Host.Outcome State Fault Refusal :=
  s.on fun d => d.accRead u f fun v => v.extractLsb' 48 48

/-- MFACH: bits 111:96, sign-extended (R468). -/
def execCpuMfach (u : Issue) (f : FormR) (s : State) : Host.Outcome State Fault Refusal :=
  s.on fun d => d.accRead u f fun v => (v.extractLsb' 96 16).signExtend 48

end Sys2Proof.Machine
end

