-- ==== Sys2Proof/Machine/CpuAlu.lean ====
section
/-! DEFINITION. The data, immediate and address instructions (R468, R469). -/
namespace Sys2Proof.Machine

/-- ADD (R468). -/
def execCpuAdd (u : Issue) (f : FormR) (s : State) : Host.Outcome State Fault Refusal :=
  s.on fun d => d.alu u f fun a b => a + b

/-- SUB (R468). -/
def execCpuSub (u : Issue) (f : FormR) (s : State) : Host.Outcome State Fault Refusal :=
  s.on fun d => d.alu u f fun a b => a - b

/-- ADDV: signed overflow raises OVERFLOW (R468, R469). -/
def execCpuAddv (u : Issue) (f : FormR) (s : State) : Host.Outcome State Fault Refusal :=
  s.on fun d => d.aluChecked u f fun a b => overflowing (a.toInt + b.toInt)

/-- SUBV: signed overflow raises OVERFLOW (R468, R469). -/
def execCpuSubv (u : Issue) (f : FormR) (s : State) : Host.Outcome State Fault Refusal :=
  s.on fun d => d.aluChecked u f fun a b => overflowing (a.toInt - b.toInt)

/-- AND (R468). -/
def execCpuAnd (u : Issue) (f : FormR) (s : State) : Host.Outcome State Fault Refusal :=
  s.on fun d => d.alu u f fun a b => a &&& b

/-- OR (R468). -/
def execCpuOr (u : Issue) (f : FormR) (s : State) : Host.Outcome State Fault Refusal :=
  s.on fun d => d.alu u f fun a b => a ||| b

/-- XOR (R468). -/
def execCpuXor (u : Issue) (f : FormR) (s : State) : Host.Outcome State Fault Refusal :=
  s.on fun d => d.alu u f fun a b => a ^^^ b

/-- ANDN: D[RS1] and not D[RS2] (R468). -/
def execCpuAndn (u : Issue) (f : FormR) (s : State) : Host.Outcome State Fault Refusal :=
  s.on fun d => d.alu u f fun a b => a &&& ~~~b

/-- SHL (R468). -/
def execCpuShl (u : Issue) (f : FormR) (s : State) : Host.Outcome State Fault Refusal :=
  s.on fun d => d.alu u f fun a b => shl48 a b.toNat

/-- SHR (R468). -/
def execCpuShr (u : Issue) (f : FormR) (s : State) : Host.Outcome State Fault Refusal :=
  s.on fun d => d.alu u f fun a b => shr48 a b.toNat

/-- SAR (R468). -/
def execCpuSar (u : Issue) (f : FormR) (s : State) : Host.Outcome State Fault Refusal :=
  s.on fun d => d.alu u f fun a b => sar48 a b.toNat

/-- ROL by D[RS2] mod 48 (R468). -/
def execCpuRol (u : Issue) (f : FormR) (s : State) : Host.Outcome State Fault Refusal :=
  s.on fun d => d.alu u f fun a b => a.rotateLeft (b.toNat % 48)

/-- SLT (R468). -/
def execCpuSlt (u : Issue) (f : FormR) (s : State) : Host.Outcome State Fault Refusal :=
  s.on fun d => d.alu u f fun a b => if a.slt b then 1#48 else 0#48

/-- SLTU (R468). -/
def execCpuSltu (u : Issue) (f : FormR) (s : State) : Host.Outcome State Fault Refusal :=
  s.on fun d => d.alu u f fun a b => if a.ult b then 1#48 else 0#48

/-- MIN (R468). -/
def execCpuMin (u : Issue) (f : FormR) (s : State) : Host.Outcome State Fault Refusal :=
  s.on fun d => d.alu u f fun a b => if a.slt b then a else b

/-- MAX (R468). -/
def execCpuMax (u : Issue) (f : FormR) (s : State) : Host.Outcome State Fault Refusal :=
  s.on fun d => d.alu u f fun a b => if a.slt b then b else a

/-- MINU (R468). -/
def execCpuMinu (u : Issue) (f : FormR) (s : State) : Host.Outcome State Fault Refusal :=
  s.on fun d => d.alu u f fun a b => if a.ult b then a else b

/-- MAXU (R468). -/
def execCpuMaxu (u : Issue) (f : FormR) (s : State) : Host.Outcome State Fault Refusal :=
  s.on fun d => d.alu u f fun a b => if a.ult b then b else a

/-- MUL: bits 47:0 of the product (R468). -/
def execCpuMul (u : Issue) (f : FormR) (s : State) : Host.Outcome State Fault Refusal :=
  s.on fun d => d.alu u f fun a b => a * b

/-- MULH: signed bits 95:48 (R468). -/
def execCpuMulh (u : Issue) (f : FormR) (s : State) : Host.Outcome State Fault Refusal :=
  s.on fun d => d.alu u f fun a b => BitVec.ofInt 48 (smul96 a b / 2 ^ 48)

/-- MULHU: unsigned bits 95:48 (R468). -/
def execCpuMulhu (u : Issue) (f : FormR) (s : State) : Host.Outcome State Fault Refusal :=
  s.on fun d => d.alu u f fun a b => BitVec.ofNat 48 (umul96 a b / 2 ^ 48)

/-- DIV, truncated towards zero; a zero divisor raises DIV_ZERO (R468, R469). -/
def execCpuDiv (u : Issue) (f : FormR) (s : State) : Host.Outcome State Fault Refusal :=
  s.on fun d => d.aluChecked u f fun a b => dividing b 0#48 (a.sdiv b)

/-- DIVU (R468, R469). -/
def execCpuDivu (u : Issue) (f : FormR) (s : State) : Host.Outcome State Fault Refusal :=
  s.on fun d => d.aluChecked u f fun a b => dividing b 0#48 (a / b)

/-- REM, with the sign of the dividend (R468, R469). -/
def execCpuRem (u : Issue) (f : FormR) (s : State) : Host.Outcome State Fault Refusal :=
  s.on fun d => d.aluChecked u f fun a b => dividing b a (a.srem b)

/-- REMU (R468, R469). -/
def execCpuRemu (u : Issue) (f : FormR) (s : State) : Host.Outcome State Fault Refusal :=
  s.on fun d => d.aluChecked u f fun a b => dividing b a (a % b)

/-- CLZ; RS2 is reserved (R468). -/
def execCpuClz (u : Issue) (f : FormR) (s : State) : Host.Outcome State Fault Refusal :=
  s.on fun d => d.issue u
    { resv := f.resvSet || f.rs2 != 0#5
      run := fun d => d.putD u.core f.rd fun c => BitVec.ofNat 48 (leading (c.dreg f.rs1)) }

/-- POPC; RS2 is reserved (R468). -/
def execCpuPopc (u : Issue) (f : FormR) (s : State) : Host.Outcome State Fault Refusal :=
  s.on fun d => d.issue u
    { resv := f.resvSet || f.rs2 != 0#5
      run := fun d => d.putD u.core f.rd fun c => BitVec.ofNat 48 (ones (c.dreg f.rs1)) }

/-- ABS; of -2^47 it is -2^47 (R468). -/
def execCpuAbs (u : Issue) (f : FormR) (s : State) : Host.Outcome State Fault Refusal :=
  s.on fun d => d.alu u f fun a _ => if a.msb then 0#48 - a else a

/-- EXTB (R468). -/
def execCpuExtb (u : Issue) (f : FormR) (s : State) : Host.Outcome State Fault Refusal :=
  s.on fun d => d.alu u f fun a b => byteOf a b.toNat

/-- INSB (R468). -/
def execCpuInsb (u : Issue) (f : FormR) (s : State) : Host.Outcome State Fault Refusal :=
  s.on fun d => d.issue u
    { resv := f.resvSet
      run := fun d => d.putD u.core f.rd fun c => byteIn (c.dreg f.rd) (c.dreg f.rs1) (c.dreg f.rs2).toNat }

/-- ADDI (R466, R468). -/
def execCpuAddi (u : Issue) (f : FormI) (s : State) : Host.Outcome State Fault Refusal :=
  s.on fun d => d.aluImm u f false fun a => a + f.simm

/-- ANDI (R466, R468). -/
def execCpuAndi (u : Issue) (f : FormI) (s : State) : Host.Outcome State Fault Refusal :=
  s.on fun d => d.aluImm u f false fun a => a &&& f.zimm

/-- ORI (R466, R468). -/
def execCpuOri (u : Issue) (f : FormI) (s : State) : Host.Outcome State Fault Refusal :=
  s.on fun d => d.aluImm u f false fun a => a ||| f.zimm

/-- XORI (R466, R468). -/
def execCpuXori (u : Issue) (f : FormI) (s : State) : Host.Outcome State Fault Refusal :=
  s.on fun d => d.aluImm u f false fun a => a ^^^ f.zimm

/-- SLTI (R466, R468). -/
def execCpuSlti (u : Issue) (f : FormI) (s : State) : Host.Outcome State Fault Refusal :=
  s.on fun d => d.aluImm u f false fun a => if a.slt f.simm then 1#48 else 0#48

/-- SLTIU compares with the sign-extended immediate, unsigned (R466, R468). -/
def execCpuSltiu (u : Issue) (f : FormI) (s : State) : Host.Outcome State Fault Refusal :=
  s.on fun d => d.aluImm u f false fun a => if a.ult f.simm then 1#48 else 0#48

/-- SHLI (R466, R468). -/
def execCpuShli (u : Issue) (f : FormI) (s : State) : Host.Outcome State Fault Refusal :=
  s.on fun d => d.aluImm u f f.shiftResv fun a => shl48 a f.amount

/-- SHRI (R466, R468). -/
def execCpuShri (u : Issue) (f : FormI) (s : State) : Host.Outcome State Fault Refusal :=
  s.on fun d => d.aluImm u f f.shiftResv fun a => shr48 a f.amount

/-- SARI (R466, R468). -/
def execCpuSari (u : Issue) (f : FormI) (s : State) : Host.Outcome State Fault Refusal :=
  s.on fun d => d.aluImm u f f.shiftResv fun a => sar48 a f.amount

/-- LI (R468). -/
def execCpuLi (u : Issue) (f : FormL) (s : State) : Host.Outcome State Fault Refusal :=
  s.on fun d => d.issue u
    { resv := f.resv != 0#3
      run := fun d => d.putD u.core f.rd fun _ => f.imm.signExtend 48 }

/-- LIH; IMM32 bits 31:16 are reserved (R468). -/
def execCpuLih (u : Issue) (f : FormL) (s : State) : Host.Outcome State Fault Refusal :=
  s.on fun d => d.issue u
    { resv := f.resv != 0#3 || decide (65536 ≤ f.imm.toNat)
      run := fun d => d.putD u.core f.rd fun c => BitVec.ofNat 48 ((c.dreg f.rd).toNat % 2 ^ 32 + f.imm.toNat % 65536 * 2 ^ 32) }

/-- LIA (R468). -/
def execCpuLia (u : Issue) (f : FormL) (s : State) : Host.Outcome State Fault Refusal :=
  s.on fun d => d.issue u
    { resv := f.resv != 0#3 || badA f.rd
      run := fun d => d.putA u.core f.rd fun _ => f.imm.zeroExtend 48 }

/-- MOVA (R468). -/
def execCpuMova (u : Issue) (f : FormR) (s : State) : Host.Outcome State Fault Refusal :=
  s.on fun d => d.issue u
    { resv := f.resvSet || badA f.rd
      run := fun d => d.putA u.core f.rd fun c => c.dreg f.rs1 }

/-- MOVD (R468). -/
def execCpuMovd (u : Issue) (f : FormR) (s : State) : Host.Outcome State Fault Refusal :=
  s.on fun d => d.issue u
    { resv := f.resvSet || badA f.rs1
      run := fun d => d.putD u.core f.rd fun c => c.areg f.rs1.toNat }

/-- ADDA (R468). -/
def execCpuAdda (u : Issue) (f : FormR) (s : State) : Host.Outcome State Fault Refusal :=
  s.on fun d => d.issue u
    { resv := f.resvSet || badA f.rd || badA f.rs1
      run := fun d => d.putA u.core f.rd fun c => c.areg f.rs1.toNat + c.dreg f.rs2 }

/-- SUBA (R468). -/
def execCpuSuba (u : Issue) (f : FormR) (s : State) : Host.Outcome State Fault Refusal :=
  s.on fun d => d.issue u
    { resv := f.resvSet || badA f.rd || badA f.rs1
      run := fun d => d.putA u.core f.rd fun c => c.areg f.rs1.toNat - c.dreg f.rs2 }

/-- ADDAI (R466, R468). -/
def execCpuAddai (u : Issue) (f : FormI) (s : State) : Host.Outcome State Fault Refusal :=
  s.on fun d => d.issue u
    { resv := badA f.rd || badA f.rs1
      run := fun d => d.putA u.core f.rd fun c => c.areg f.rs1.toNat + f.simm }

end Sys2Proof.Machine
end

