-- ==== Sys2Proof/Machine/CpuCtl.lean ====
section
/-! DEFINITION. The control and system instructions, and undefined encodings (R467 to R479, R486, R502 to R506). -/
namespace Sys2Proof.Machine

/-! Branches (R470, R471). -/

/-- A condition of Bcc on D[RS1] and the operand (R470). -/
def condTaken (cond : Nat) (a b : W48) : Bool :=
  match cond with
  | 0 => a == b
  | 1 => a != b
  | 2 => a.slt b
  | 3 => !a.slt b
  | 4 => a.ult b
  | 5 => !a.ult b
  | 6 => decide (b.toNat < 48) && a.getLsbD b.toNat
  | 7 => !(decide (b.toNat < 48) && a.getLsbD b.toNat)
  | 8 => b.slt a
  | 9 => !b.slt a
  | 10 => b.ult a
  | _ => !b.ult a

/-- BS or BC with an IMM9 above 47, or bits 24:21 set beside RS2 (R466, R470). -/
def FormB.resvSet (f : FormB) : Bool :=
  if f.immf then (f.cond == 6#4 || f.cond == 7#4) && decide (47 < f.opnd.toNat) else f.opnd.toNat % 16 != 0

/-- Bcc (R470, R471). -/
def execCpuBcc (u : Issue) (f : FormB) (s : State) : Host.Outcome State Fault Refusal :=
  s.on fun d => d.issue u
    { undef := decide (12 ≤ f.cond.toNat)
      resv := FormB.resvSet f
      ctl := true
      delayed := true
      run := fun d =>
        let c := d.core u.core
        d.branch u.core (((c.pc : Int) + f.off.toInt) % (2 ^ 48 : Int)).toNat
          (condTaken f.cond.toNat (c.dreg f.rs1) (if f.immf then f.simm else c.dreg f.rs2)) }

/-- J; RA is reserved (R468). -/
def execCpuJ (u : Issue) (f : FormJ) (s : State) : Host.Outcome State Fault Refusal :=
  s.on fun d => d.issue u
    { resv := f.ra != 0#4 || f.resv != 0#12, ctl := true, delayed := true, run := fun d => d.branch u.core f.tgt.toNat true }

/-- A link is written, then the branch is taken after its slot (R471). -/
def Dev.linked (d : Dev) (n ra target : Nat) : Dev :=
  (d.onCore n fun c => c.setA ra (BitVec.ofNat 48 (c.pc + 2))).branch n target true

/-- CALL (R468). -/
def execCpuCall (u : Issue) (f : FormJ) (s : State) : Host.Outcome State Fault Refusal :=
  s.on fun d => d.issue u
    { resv := f.resv != 0#12, ctl := true, delayed := true, run := fun d => d.linked u.core f.ra.toNat f.tgt.toNat }

/-- JR (R468). -/
def execCpuJr (u : Issue) (f : FormR) (s : State) : Host.Outcome State Fault Refusal :=
  s.on fun d => d.issue u
    { resv := f.resvSet || badA f.rs1, ctl := true, delayed := true,
      run := fun d => d.branch u.core ((d.core u.core).areg f.rs1.toNat).toNat true }

/-- CALLR: the target is read before the link is written (R468). -/
def execCpuCallr (u : Issue) (f : FormR) (s : State) : Host.Outcome State Fault Refusal :=
  s.on fun d => d.issue u
    { resv := f.resvSet || badA f.rd || badA f.rs1, ctl := true, delayed := true,
      run := fun d => d.linked u.core f.rd.toNat ((d.core u.core).areg f.rs1.toNat).toNat }

/-! Hardware loops (R473, R474). -/

/-- The checks of LOOP (R474). -/
def loopLate (f : FormP) (_ : Dev) (c : Core) : Option Nat :=
  let stop := c.pc + f.stop.toNat
  let depth := if f.lvl then c.psw.lact0 && !c.psw.lact1 else !c.psw.lact0 && !c.psw.lact1
  if !depth then some 5
  else if f.stop == 0#16 || decide (2 ^ 24 ≤ stop) || (f.lvl && decide (c.loop0.stop ≤ stop)) then some 6
  else if !f.immf && decide (2 ^ 32 ≤ (c.dreg f.rs).toNat) then some 7
  else none

/-- A level's registers are set, and it is active unless the count is 0 (R473). -/
def Core.startLoop (c : Core) (lvl : Bool) (l : LoopRegs) : Core :=
  let on := l.count != 0
  if lvl then { c with loop1 := l, psw := { c.psw with lact1 := on } } else { c with loop0 := l, psw := { c.psw with lact0 := on } }

/-- LOOP (R473). -/
def execCpuLoop (u : Issue) (f : FormP) (s : State) : Host.Outcome State Fault Refusal :=
  s.on fun d => d.issue u
    { resv := f.resv != 0#1
      ctl := true
      late := loopLate f
      run := fun d =>
        let c := d.core u.core
        let count := if f.immf then f.cnt.toNat else (c.dreg f.rs).toNat
        let stop := c.pc + f.stop.toNat
        (d.onCore u.core fun c => c.startLoop f.lvl { start := (c.pc + 1) % 2 ^ 24, stop := stop, count := count }).goOn u.core
          ((if count = 0 then stop + 1 else c.pc + 1) % 2 ^ 24) }

/-! System instructions (R468). -/

/-- Bits 20:16 are reserved (R466). -/
def FormS.resvSet (f : FormS) : Bool := f.resv != 0#5

/-- NOP (R468). -/
def execCpuNop (u : Issue) (f : FormS) (s : State) : Host.Outcome State Fault Refusal :=
  s.on fun d => d.issue u { resv := FormS.resvSet f, run := fun d => d.complete u.core }

/-- TRAP with code IMM16; the return address is the next instruction (R489, R494). -/
def execCpuTrap (u : Issue) (f : FormS) (s : State) : Host.Outcome State Fault Refusal :=
  s.on fun d => d.issue u
    { resv := FormS.resvSet f, ctl := true,
      run := fun d => d.raise u.core { vec := 6, cause := 0, aux := f.imm.toNat, ret := some (((d.core u.core).pc + 1) % 2 ^ 24) } }

/-- BRK halts the core where the debug port reaches it, and is BREAKPOINT otherwise (R445, R489, R494). -/
def execCpuBrk (u : Issue) (f : FormS) (s : State) : Host.Outcome State Fault Refusal :=
  s.on fun d => d.issue u
    { resv := FormS.resvSet f, ctl := true,
      run := fun d =>
        let pc := ((d.core u.core).pc + 1) % 2 ^ 24
        if d.debugOn && d.coreInReach u.core then
          (d.goOn u.core pc).onDebug fun b => { b with halted := b.halted ||| 2 ^ u.core }
        else d.raise u.core { vec := 7, cause := 0, ret := some pc } }

/-- WAIT stops issue until an interrupt or asynchronous event is pending (R468, R494). -/
def execCpuWait (u : Issue) (f : FormS) (s : State) : Host.Outcome State Fault Refusal :=
  s.on fun d => d.issue u
    { resv := FormS.resvSet f, ctl := true, priv := .supervisor,
      run := fun d =>
        let wait := (d.pendingVec u.core).isNone
        (d.goOn u.core (((d.core u.core).pc + 1) % 2 ^ 24)).onCore u.core fun c => { c with waiting := wait } }

/-- FENCE: every earlier access of the core is complete by then, as each step completes its own (R468, R482). -/
def execCpuFence (u : Issue) (f : FormS) (s : State) : Host.Outcome State Fault Refusal :=
  s.on fun d => d.issue u { resv := FormS.resvSet f, run := fun d => d.complete u.core }

/-- SYNCI discards what has been fetched ahead; only the supervisor has a prefetch buffer and a branch cache (R465, R516). -/
def execCpuSynci (u : Issue) (f : FormS) (s : State) : Host.Outcome State Fault Refusal :=
  s.on fun d => d.issue u
    { resv := FormS.resvSet f, priv := .supervisor,
      run := fun d => (if u.core = 0 then d.flashDiscard else d).complete u.core }

/-! System registers (R478). -/

/-- Read and write levels of a system register; `none` where none may (R478). A SEL that is not listed has no entry. -/
def sysLevels (sel : Nat) : Option (Priv × Option Priv) :=
  match sel with
  | 0 => some (.user, some .supervisor)
  | 1 => some (.supervisor, some .machine)
  | 2 => some (.machine, some .machine)
  | 3 => some (.supervisor, some .machine)
  | 4 => some (.user, none)
  | 8 | 9 | 10 | 12 | 13 | 14 => some (.user, some .user)
  | 16 | 17 | 18 | 19 => some (.user, some .supervisor)
  | 24 | 25 => some (.user, none)
  | _ => none

/-- What a system register reads as (R478). -/
def Core.sysRead (c : Core) (n sel : Nat) : Nat :=
  match sel with
  | 0 => c.psw.word
  | 1 => c.vbr
  | 2 => c.esp.toNat
  | 3 => c.pceil
  | 4 => n
  | 8 => c.loop0.start
  | 9 => c.loop0.stop
  | 10 => c.loop0.count
  | 12 => c.loop1.start
  | 13 => c.loop1.stop
  | 14 => c.loop1.count
  | 24 => c.cycles
  | 25 => c.retired
  | _ => let m := vget c.mods (sel - 16) {}; m.len + m.nbits * 2 ^ 40

/-- MODk as a word spells it, and whether the word is in range (R478). -/
def modOf (v : Nat) : ModReg := { len := v % 2 ^ 21, nbits := v / 2 ^ 40 % 32 }
def modOk (v : Nat) : Bool :=
  decide ((modOf v).len ≤ 1048576) && decide ((modOf v).nbits ≤ 20) && v == (modOf v).len + (modOf v).nbits * 2 ^ 40

/-- The checks of MTS on its register and value (R477, R478, R484, R486). -/
def mtsLate (f : FormS) (_ : Dev) (c : Core) : Option Nat :=
  let v := (c.dreg f.reg).toNat
  let sel := f.sel.toNat
  let loop0 := decide (8 ≤ sel) && decide (sel ≤ 10)
  let loop1 := decide (12 ≤ sel) && decide (sel ≤ 14)
  let limit := if sel = 10 || sel = 14 then 2 ^ 32 else 2 ^ 24
  if (loop0 && c.psw.lact0) || (loop1 && c.psw.lact1) then some 8
  else if (loop0 || loop1) && decide (limit ≤ v) then some 2
  else if decide (16 ≤ sel) && decide (sel ≤ 19) && !modOk v then some 2
  else if sel = 0 && (v % 4 == 2 || decide (64 ≤ v)) then some 2
  else none

/-- A system register other than PSW takes a value (R478). -/
def Core.sysWrite (c : Core) (sel v : Nat) : Core :=
  match sel with
  | 1 => { c with vbr := v % 2 ^ 32 / 64 * 64 }
  | 2 => { c with esp := BitVec.ofNat 48 v }
  | 3 => { c with pceil := v % 4 }
  | 8 => { c with loop0 := { c.loop0 with start := v } }
  | 9 => { c with loop0 := { c.loop0 with stop := v } }
  | 10 => { c with loop0 := { c.loop0 with count := v } }
  | 12 => { c with loop1 := { c.loop1 with start := v } }
  | 13 => { c with loop1 := { c.loop1 with stop := v } }
  | 14 => { c with loop1 := { c.loop1 with count := v } }
  | _ => { c with mods := vupd c.mods (sel - 16) fun _ => modOf v }

/-- The current privilege is at or above a level. -/
def Core.atLeast (c : Core) (p : Option Priv) : Bool :=
  match p with
  | some p => decide (p.code ≤ c.psw.priv.code)
  | none => false

/-- MFS (R478). -/
def execCpuMfs (u : Issue) (f : FormS) (s : State) : Host.Outcome State Fault Refusal :=
  s.on fun d => d.issue u
    { undef := (sysLevels f.sel.toNat).isNone
      resv := FormS.resvSet f
      run := fun d =>
        if !(d.core u.core).atLeast ((sysLevels f.sel.toNat).map (·.1)) then d.raise u.core (privilege 2)
        else d.putD u.core f.reg fun c => BitVec.ofNat 48 (c.sysRead u.core f.sel.toNat) }

/-- MTS; to PSW it is a mode change, whose shadow is the next instruction (R478, R479, R486). -/
def execCpuMts (u : Issue) (f : FormS) (s : State) : Host.Outcome State Fault Refusal :=
  s.on fun d => d.issue u
    { undef := (sysLevels f.sel.toNat).isNone
      resv := FormS.resvSet f
      late := mtsLate f
      run := fun d =>
        let c := d.core u.core
        let v := (c.dreg f.reg).toNat
        if !c.atLeast ((sysLevels f.sel.toNat).bind (·.2)) then d.raise u.core (privilege 2)
        else if f.sel = 0#6 then
          match Priv.ofCode (v % 4) with
          | some p => if c.psw.priv.code < p.code then d.raise u.core (privilege 3) else d.complete u.core (some (Psw.ofWord p v))
          | none => d
        else (d.onCore u.core fun c => c.sysWrite f.sel.toNat v).complete u.core }

/-! Exception return (R502 to R506). -/

/-- The frame at A15, read word by word under the current PSW (R502). -/
def Dev.frameRead (d : Dev) (n : Nat) (code : Bool) (base : W48) : Nat → Except (Dev × Exc) (List W48)
  | 0 => .ok []
  | k + 1 =>
    if 2 ^ 32 ≤ base.toNat then .error (d, busError 1 1 0 base.toNat)
    else
      match d.mpuCheck n (d.core n).psw.priv 1 0 base.toNat with
      | some r => .error r
      | none =>
        if !inDspace n base.toNat then .error (d, busError 3 1 0 base.toNat)
        else if !code then .error (d.internalEvent 8, busError 2 1 0 base.toNat)
        else
          match d.frameRead n code (base + 1#48) k with
          | .ok ws => .ok (spGet (fun _ => 0#48) (d.core n).dmem base.toNat :: ws)
          | .error e => .error e

/-- The cause of an ILLEGAL_RETURN, if any (R503, R504). -/
def Core.badReturn (c : Core) (ret psw pend : Nat) : Option Nat :=
  let privs := (psw % 4) :: if ret.testBit 25 then [pend % 4] else []
  if privs.contains 2 || psw.testBit 6 || pend.testBit 6 then some 3
  else if privs.any fun p => decide (c.pceil < p) then some 1
  else if privs.any fun p => decide (c.psw.priv.code < p) then some 2
  else none

/-- The frame is restored (R506). -/
def Core.restore (c : Core) (ret psw cont pend sp : Nat) : Core :=
  let at_ := fun (n : Nat) => Psw.ofWord ((Priv.ofCode (n % 4)).getD .user) n
  { c with psw := { at_ psw with esc := false }, a := vupd c.a 15 fun _ => BitVec.ofNat 48 sp, pc := ret % 2 ^ 24,
           slot := if ret.testBit 24 then some { branch := ret % 2 ^ 24, target := cont % 2 ^ 24, taken := true, resumed := true } else none,
           shadow := if ret.testBit 25 then some (at_ pend) else none, afterShadow := false, landed := false,
           retired := (c.retired + 1) % 2 ^ 48 }

/-- RETE (R502 to R506). -/
def execCpuRete (u : Issue) (f : FormS) (s : State) : Host.Outcome State Fault Refusal :=
  s.on fun d => d.issue u
    { resv := FormS.resvSet f, ctl := true, priv := .supervisor,
      run := fun d =>
        let c := d.core u.core
        match d.frameRead u.core u.dataCode (c.areg 15) 8 with
        | .error e => e.1.raise u.core e.2
        | .ok ws =>
          let w := fun (i : Nat) => (ws.getD i 0#48).toNat
          match c.badReturn (w 0) (w 1) (w 5) with
          | some cause => d.raise u.core { vec := 8, cause := cause, aux := w 0 }
          | none => (d.stepped u.core).onCore u.core fun c => c.restore (w 0) (w 1) (w 3) (w 5) (w 6) }

/-! Undefined encodings (R467). -/

/-- A word names an instruction of the tables: opcode, FN, SEL, COND and MODE are all listed. -/
def definedWord (w : Nat) : Bool :=
  let op := w / 2 ^ 40
  let fn := w % 256
  let fs := w / 2 ^ 32 % 256
  let mode := w / 2 ^ 28 % 8
  if op = 0x01 then decide (fn ≤ 0x1D)
  else if (2 ≤ op && op ≤ 10) || (0x10 ≤ op && op ≤ 0x12) || op = 0x19 || op = 0x44 || op = 0x45 || op = 0x48 then true
  else if op = 0x18 then decide (fn ≤ 3)
  else if op = 0x30 then decide (fn ≤ 0x0D)
  else if 0x20 ≤ op && op ≤ 0x27 then mode != 4 && mode != 7
  else if op = 0x40 then decide (w / 2 ^ 36 % 16 < 12)
  else if op = 0x46 || op = 0x47 then fn == 0
  else if op = 0x7F then
    if fs = 6 || fs = 7 then (sysLevels (w / 2 ^ 26 % 64)).isSome else decide (fs ≤ 8)
  else false

/-- An undefined encoding raises ILLEGAL_INSTRUCTION cause UNDEFINED (R467). A word that names an instruction is none. -/
def execCpuUndefinedEncoding (u : Issue) (w : W48) (s : State) : Host.Outcome State Fault Refusal :=
  s.on fun d => if definedWord w.toNat then d else d.issue u { undef := true, run := id }

end Sys2Proof.Machine
end

