-- ==== Sys2Proof/Machine/HostPorts.lean ====
section
/-! DEFINITION. The commands of the host ports: mailboxes, datagrams, sessions, PCI Express and the management port's
wake and reset (R247 to R278). -/
namespace Sys2Proof.Machine

/-- A PCIe port's wake source (R224, R225, R238, R264). -/
def Dev.pcieWake (d : Dev) (p : Nat) : Dev := if isPcie p then d.wake (1 + p) else d

/-- MBX_DBs with GO: a request of `len` bytes in the slot's window (R255, R256). In STANDBY it is discarded, and counts as a wake
(R286). -/
def execMbxDoorbell (port slot len tag : Nat) (s : State) : Host.Outcome State Fault Refusal :=
  s.on fun d => if d.power.mode = .standby then d.pcieWake port else d.clocked fun d => d.doorbell port slot len tag

/-- MBX_SLOTs.ACK (R255). -/
def execMbxSlotAck (port slot : Nat) (s : State) : Host.Outcome State Fault Refusal :=
  s.on fun d => d.clocked fun d => if isUdp port then d else d.slotAck port slot

/-- MBX_CTRL.LOGOUT (R252). -/
def execMbxCtrlLogout (port : Nat) (s : State) : Host.Outcome State Fault Refusal :=
  s.on fun d => d.clocked fun d => if isUdp port then d else d.endSession port 0

/-- MBX_NTC_HEAD (R260). -/
def execMbxNtcHeadWrite (port value : Nat) (s : State) : Host.Outcome State Fault Refusal :=
  s.on fun d => d.clocked fun d => if isUdp port then d else d.noticeHead port value

/-- Datagrams of the six types that a host sends (R267, R269). -/
def execUdpHello (port : Nat) (bytes : List Byte) (s : State) : Host.Outcome State Fault Refusal :=
  s.on fun d => d.datagram port 0x01 bytes
def execUdpProve (port : Nat) (bytes : List Byte) (s : State) : Host.Outcome State Fault Refusal :=
  s.on fun d => d.datagram port 0x03 bytes
def execUdpRequest (port : Nat) (bytes : List Byte) (s : State) : Host.Outcome State Fault Refusal :=
  s.on fun d => d.datagram port 0x10 bytes
def execUdpNoticeAck (port : Nat) (bytes : List Byte) (s : State) : Host.Outcome State Fault Refusal :=
  s.on fun d => d.datagram port 0x13 bytes
def execUdpExportAck (port : Nat) (bytes : List Byte) (s : State) : Host.Outcome State Fault Refusal :=
  s.on fun d => d.datagram port 0x21 bytes
def execUdpLogout (port : Nat) (bytes : List Byte) (s : State) : Host.Outcome State Fault Refusal :=
  s.on fun d => d.datagram port 0x1F bytes

/-- The timers of a session and of a port (R251, R252, R271, R272, R276). -/
def execEthReasmExpiry (port sess : Nat) (s : State) : Host.Outcome State Fault Refusal := s.on fun d => d.reasmExpiry port sess
def execEthRetxExpiry (port sess : Nat) (s : State) : Host.Outcome State Fault Refusal := s.on fun d => d.retxExpiry port sess
def execChallengeExpiry (port sess : Nat) (s : State) : Host.Outcome State Fault Refusal := s.on fun d => d.challengeExpiry port sess
def execMbxLockoutExpiry (port : Nat) (s : State) : Host.Outcome State Fault Refusal := s.on fun d => d.lockoutEnd port
def execMbxIdleExpiry (port sess : Nat) (s : State) : Host.Outcome State Fault Refusal := s.on fun d => d.idleExpiry port sess

/-- A reset of a PCIe port; `down` says that it is a link down, and the link stands at `rate` and `width` after it
(R263). -/
def execPciePortReset (port : Nat) (down : Bool) (rate width : Nat) (s : State) : Host.Outcome State Fault Refusal :=
  s.on fun d => d.pcieReset port down rate width

/-- D3hot and the return to D0 (R262). -/
def execPcieD3hot (port : Nat) (s : State) : Host.Outcome State Fault Refusal := s.on fun d => d.clocked fun d => d.pcieD3 port
def execPcieD0Return (port : Nat) (s : State) : Host.Outcome State Fault Refusal := s.on fun d => d.clocked fun d => d.pcieD0 port

/-- A host-initiated exit from L1 (R264). -/
def execPcieL1Exit (port : Nat) (s : State) : Host.Outcome State Fault Refusal := s.on fun d => d.pcieWake port

/-- A memory request to a BAR in STANDBY: a read of `len` bytes returns zeros, a write is discarded (R264). -/
def execPcieStandbyAccess (port len : Nat) (read : Bool) (s : State) : Host.Outcome State Fault Refusal :=
  s.on fun d =>
    if !(isPcie port && decide (d.power.mode = .standby)) then d
    else (if read then d.send (.reads port (zeros len)) else d).pcieWake port

/-- CS_N falls or the I²C address matches: in STANDBY a wake, and on SPI the transaction reads zeros (R586); it aborts a transition to
STANDBY, and restarts from close-done where a wake source does (R225, R238). -/
def execMgtStandbyWake (len : Nat) (s : State) : Host.Outcome State Fault Refusal :=
  s.on fun d =>
    (if len = 0 || d.power.mode ≠ .standby then d else d.send (.reads 4 (zeros len))).wake 0

/-- SCL has been low for 25 ms: the transaction is discarded (R276). -/
def execI2cSclLowExpiry (s : State) : Host.Outcome State Fault Refusal :=
  s.on fun d => d.onPorts fun c => match c.sclAt with
    | some t => if d.past t then { c with sclAt := none } else c
    | none => c

/-- The Ethernet link of P2 or P3 goes down (R252). -/
def execEthLinkDown (port : Nat) (s : State) : Host.Outcome State Fault Refusal := s.on fun d => d.ethDown port

end Sys2Proof.Machine
end

