-- ==== Sys2Proof/Machine/RegHive.lean ====
section
/-! DEFINITION. The WAG_, WAG_EP_, HIVE_ and HIVE_ECAP registers (R123, R124), by byte offset ÷ 4. -/
namespace Sys2Proof.Machine

/-- WAG_STATUS (R123). -/
def Dev.wagStatus (d : Dev) : Nat :=
  let w := d.wag
  let p := fun (o : WagOp) => b2n (w.pending.contains o)
  b2n (!w.flights.isEmpty || w.barrier.isSome) + w.lastOp * 2 + p .barrier * 2 ^ 4 + p .broadcast * 2 ^ 5 + p .snapshot * 2 ^ 6
    + p .reset * 2 ^ 7 + b2n w.done * 2 ^ 8 + b2n w.barTimeoutF * 2 ^ 9 + b2n w.noAck * 2 ^ 10 + b2n w.resetPartial * 2 ^ 11
    + b2n w.busyRefused * 2 ^ 12 + b2n w.privRefused * 2 ^ 13 + b2n w.opInvalid * 2 ^ 14

/-- The bits of populated endpoints (R123). -/
def Dev.endpointBits (d : Dev) (j : Nat) : Nat :=
  ((d.endpoints.filter fun e => e / 32 == j).map fun e => 2 ^ (e % 32)).sum

/-- A WAG_ register. -/
def Dev.wagRead (d : Dev) (i : Nat) : Option Nat :=
  let w := d.wag
  match i with
  | 0 => some 0
  | 1 => some d.wagStatus
  | 2 => some (w.mask0.toNat &&& d.endpointBits 0)
  | 3 => some (w.mask1.toNat &&& d.endpointBits 1)
  | 4 => some (w.mask2.toNat &&& d.endpointBits 2)
  | 5 => some (w.bcast.toNat % 2 ^ 32)
  | 6 => some (w.bcast.toNat / 2 ^ 32)
  | 7 => some w.barTimeout
  | 8 => some (w.noAckEp + b2n w.noAckValid * 128)
  | 9 => some w.refused0.toNat
  | 10 => some w.refused1.toNat
  | 11 => some w.refused2.toNat
  | 12 => some (d.endpoints.length + d.wagDepth * 256)
  | _ => none

/-- WAG_CMD with GO (R101, R103, R104). -/
def Dev.wagCmd (d : Dev) (machine : Bool) (op id : Nat) : Dev :=
  match op with
  | 1 => d.wagBarrierGo id
  | 2 => d.wagGo .broadcast
  | 3 => d.wagGo .snapshot
  | 4 => d.wagResetGo machine
  | _ => d.onWag fun w => { w with opInvalid := true }

/-- Bits of WAG_STATUS cleared by writing 1. -/
def Wag.clearStatus (w : Wag) (v : Nat) : Wag :=
  { w with done := w.done && !v.testBit 8, barTimeoutF := w.barTimeoutF && !v.testBit 9, noAck := w.noAck && !v.testBit 10,
           resetPartial := w.resetPartial && !v.testBit 11, busyRefused := w.busyRefused && !v.testBit 12,
           privRefused := w.privRefused && !v.testBit 13, opInvalid := w.opInvalid && !v.testBit 14,
           noAckEp := if v.testBit 10 then 0 else w.noAckEp, noAckValid := w.noAckValid && !v.testBit 10 }

/-- A supervisor write of a WAG_ register. -/
def Dev.wagWrite (d : Dev) (machine : Bool) (i v : Nat) : Dev :=
  match i with
  | 0 => if v.testBit 3 then d.wagCmd machine (v % 8) (bitsAt v 4 4) else d
  | 1 => d.onWag fun w => w.clearStatus v
  | 2 => d.onWag fun w => { w with mask0 := BitVec.ofNat 32 (v &&& d.endpointBits 0) }
  | 3 => d.onWag fun w => { w with mask1 := BitVec.ofNat 32 (v &&& d.endpointBits 1) }
  | 4 => d.onWag fun w => { w with mask2 := BitVec.ofNat 32 (v &&& d.endpointBits 2) }
  | 5 => d.onWag fun w => { w with bcast := BitVec.ofNat 48 (w.bcast.toNat / 2 ^ 32 * 2 ^ 32 + v) }
  | 6 => d.onWag fun w => { w with bcast := BitVec.ofNat 48 (w.bcast.toNat % 2 ^ 32 + v % 65536 * 2 ^ 32) }
  | 7 =>
    if bitsAt v 0 20 ≤ 1000000 then d.onWag fun w => { w with barTimeout := bitsAt v 0 20 }
    else d.onWag fun w => { w with opInvalid := true }
  | _ => d

/-- A comb controller's WAG_EP_ register. -/
def Dev.epRead (d : Dev) (c i : Nat) : Option Nat :=
  let e := vget d.wagEps c {}
  match i with
  | 0 => some 0
  | 1 => some (b2n e.waiting + b2n e.released * 2 + b2n e.timedOut * 4 + b2n e.bcast * 8 + e.barId * 16)
  | 2 => some (e.word.toNat % 2 ^ 32)
  | 3 => some (e.word.toNat / 2 ^ 32)
  | 4 => some e.snapSeq
  | _ => none
def Dev.epWrite (d : Dev) (c i v : Nat) : Dev :=
  match i with
  | 0 => if v.testBit 4 then d.arrive c (v % 16) else d
  | 1 => d.onEp c fun e =>
    { e with released := e.released && !v.testBit 1, timedOut := e.timedOut && !v.testBit 2, bcast := e.bcast && !v.testBit 3 }
  | _ => d

/-- A HIVE_ register. -/
def Dev.hiveRead (d : Dev) (i : Nat) : Option Nat :=
  let h := d.periodsNow
  match i with
  | 0 => some (b2n h.en + b2n h.atArmed * 4 + b2n (h.compare || d.life.st == .fleet) * 16 + h.attempts * 32)
  | 1 => some (h.st.code + b2n h.atArmed * 8 + b2n h.unsigned * 16 + b2n (h.gapMode || h.gapPower) * 32)
  | 2 => some h.period
  | 3 => some (h.periodNext + b2n h.periodAt.isSome * 2 ^ 31)
  | 4 => some h.epoch
  | 5 => some (h.epochNext + b2n h.epochAt.isSome * 2 ^ 31)
  | 6 => some (half 0 h.atTime)
  | 7 => some (half 1 h.atTime)
  | 8 => some h.snapSeq
  | 9 => some h.drops
  | 10 => some (half 0 h.lastSigned)
  | 11 => some (half 1 h.lastSigned)
  | 12 => some h.linkMax
  | 13 => some h.err.toNat
  | 14 => some h.linkLate0.toNat
  | 15 => some h.linkLate1.toNat
  | 32 => some (half 0 h.rootBound)
  | 33 => some (half 1 h.rootBound)
  | _ => if 16 ≤ i && i < 32 then some (word32 h.root (i - 16)) else none

/-- HIVE_CTRL (R115, R120, R123). -/
def Dev.hiveCtrl (d : Dev) (v : Nat) : Dev :=
  let a := bitsAt v 5 2
  let d := d.onHive fun h =>
    { h with en := v.testBit 0, compare := if d.life.st = .fleet then h.compare else v.testBit 4, attempts := if a = 0 then h.attempts else a }
  let d := (if a = 0 then d.hiveErr 0 else d).hiveSettle
  let d := if v.testBit 3 then d.atCancel else d
  let d := if v.testBit 2 then d.atArm else d
  if v.testBit 1 then d.demand none else d

/-- A supervisor write of a HIVE_ register. -/
def Dev.hiveWrite (d : Dev) (i v : Nat) : Dev :=
  let n := v % 16384
  match i with
  | 0 => d.hiveCtrl v
  | 3 => (d.periodNext n).2
  | 5 => (d.epochNext (v % 65536)).2
  -- DESIGN CHOICE (log entry 74): a write while a snapshot is armed moves its time at once.
  | 6 => d.onHive fun h => { h with atTime := half 1 h.atTime * 2 ^ 32 + v }
  | 7 => d.onHive fun h => { h with atTime := half 0 h.atTime + v * 2 ^ 32 }
  | 12 => if 10 ≤ n && n ≤ 10000 then d.onHive fun h => { h with linkMax := n } else d.hiveErr 0
  | 13 => d.onHive fun h => { h with err := clr h.err v }
  | 14 => d.onHive fun h => { h with linkLate0 := clr h.linkLate0 v }
  | 15 => d.onHive fun h => { h with linkLate1 := clr h.linkLate1 v }
  | _ => d

/-- The epoch capture buffer of a comb (R124). -/
def Dev.ecapRead (d : Dev) (c i : Nat) : Option Nat :=
  let l := d.lane (8 * c + i / 2)
  if i < 16 then some (if i % 2 = 0 then l.ecapA.toNat else l.ecapB.toNat) else none

end Sys2Proof.Machine
end

