-- ==== Sys2Proof/Machine/KeyStore.lean ====
section
/-! DEFINITION. The key store's own operations, its log records, and the key epochs (R363, R364, R375, R379, R381,
R382, R385). -/
namespace Sys2Proof.Machine

/-- A write of KEY_OP.GO with an operation code: `who` is the requester, `resv` says that reserved bits were written
with ones. It is ignored while BUSY (R385), and in CLOSE the requesters are halted (R231, R232). -/
def Dev.keyGo (d : Dev) (who : Nat) (f : Dev → Dev) : Dev := d.byCore fun d => if d.keyIdle who then f d else d

/-- The operations (R381). -/
def execKeyOpGenerate (who : Nat) (resv : Bool) (s : State) : Host.Outcome State Fault Refusal :=
  s.on fun d => d.keyGo who fun d => d.keyGenerate who resv
def execKeyOpDerive (who flavour : Nat) (kek resv : Bool) (s : State) : Host.Outcome State Fault Refusal :=
  s.on fun d => d.keyGo who fun d => d.keyDerive who flavour kek resv
def execKeyOpWrap (who : Nat) (resv : Bool) (s : State) : Host.Outcome State Fault Refusal :=
  s.on fun d => d.keyGo who fun d => d.keyWrap who resv
def execKeyOpUnwrap (who : Nat) (resv : Bool) (s : State) : Host.Outcome State Fault Refusal :=
  s.on fun d => d.keyGo who fun d => d.keyUnwrap who resv
def execKeyOpOpenDst (who : Nat) (resv : Bool) (s : State) : Host.Outcome State Fault Refusal :=
  s.on fun d => d.keyGo who fun d => d.keyOpenDst who resv
def execKeyOpClear (who : Nat) (resv : Bool) (s : State) : Host.Outcome State Fault Refusal :=
  s.on fun d => d.keyGo who fun d => d.keyClear who resv
def execKeyOpLoadLane (who : Nat) (resv : Bool) (s : State) : Host.Outcome State Fault Refusal :=
  s.on fun d => d.keyGo who fun d => d.keyLoadLane who resv
def execKeyOpInfo (who : Nat) (resv : Bool) (s : State) : Host.Outcome State Fault Refusal :=
  s.on fun d => d.keyGo who fun d => d.keyInfo who resv

/-- A delivery's record is written, or given up (R319, R379): the response, a generated key's statement, and the event.
A KEK prepared for a replaced authority entry is made anew (R377). -/
def Dev.delivered (d : Dev) (ok : Bool) (port slot : Nat) (p : KeyPending) : Dev :=
  if !ok then d.refuse port slot .internalFault
  else
    let d := if p.rec_.kind = 3 && p.rec_.trust.purpose = 3 then (d.onKeys fun k => { k with nextKek := none }).setKey 67 {} else d
    let d := if p.outData.isEmpty then d else d.bufPut port slot p.outOff p.outData
    (d.logEvent 0x0C4 1 (le 2 p.rec_.index ++ [u8 p.rec_.kind] ++ le 6 p.rec_.counter)).reply port slot .ok p.resp

/-- What a written record completes (R379). -/
def Dev.keyWritten (d : Dev) (ok : Bool) : Dev :=
  let r := d.keyRecDone ok
  match r.1 with
  | none => r.2
  | some (good, p) =>
    match p.done with
    | .op who => r.2.keyOpEnd who (if good then .ok else .internalFault)
    | .deliver port slot => r.2.delivered good port slot p
    | .transition => r.2.lcMarked good
    | .internal => r.2

/-- KEY_LOG_RECORD_WRITTEN: the last row of the record in progress has programmed, or failed (R364). -/
def execKeyLogRecordWritten (ok : Bool) (s : State) : Host.Outcome State Fault Refusal :=
  s.on fun d => d.clocked fun d => d.keyWritten ok

/-- The supervisor prepares a KEK; its encapsulation succeeds or not (R375). -/
def execKekPrepare (ok : Bool) (s : State) : Host.Outcome State Fault Refusal :=
  s.on fun d => d.byCore fun d => if d.power.bootDone then d.kekPrepare ok else d

/-- A key epoch boundary; the setting KEY_EPOCH gives the period from here on (R336, R375). -/
def execKeyEpochBoundary (s : State) : Host.Outcome State Fault Refusal :=
  s.on fun d => d.byCore fun d => d.keyEpochBoundary (numAt (d.settings.get 0x22) 0 4)

/-- Slot 66 is cleared (R375). -/
def execPreviousKekClear (s : State) : Host.Outcome State Fault Refusal :=
  s.on fun d => d.clocked fun d => d.clearPrevKek fun e => boundaryOf (lastBoundary e d.hive.epoch + 1) d.hive.epoch

end Sys2Proof.Machine
end

