-- ==== Sys2Proof/Machine/Random.lean ====
section
/-! DEFINITION. The commands of the random number generator (R386 to R400). Source A is false, source B true; an
instance is 0 for the supervisor's and 1 + c for comb c's. -/
namespace Sys2Proof.Machine

/-- ENTROPY_FAIL is a tamper event of class 9 (R389, R393). -/
def Dev.entropy (r : Bool × Dev) : Dev := if r.1 then r.2.internalEvent 9 else r.2

/-- A continuous health test fails: 1 repetition count, 2 adaptive proportion (R387 to R389). -/
def execNoiseHealthFail (source : Bool) (test : Nat) (s : State) : Host.Outcome State Fault Refusal :=
  s.on fun d => d.clocked fun d =>
    if (d.rng.src source = .ok || d.rng.src source = .start) && inRange 1 2 test then Dev.entropy (d.sourceFail source test) else d

/-- A source's start-up test ends (R387, R397). -/
def execSourceStartupTestDone (source ok : Bool) (s : State) : Host.Outcome State Fault Refusal :=
  s.on fun d => d.clocked fun d =>
    if d.rng.src source ≠ .start then d
    else if ok then d.sourceOk source
    else Dev.entropy (d.sourceFail source 0)

/-- The conditioner forms a block (R390). -/
def execConditionerBlock (s : State) : Host.Outcome State Fault Refusal := s.on fun d => d.clocked Dev.conditionerBlock

/-- RNG_CTRL.RETEST_A and RETEST_B (R388). -/
def execRngRetestA (s : State) : Host.Outcome State Fault Refusal := s.on fun d => d.byCore fun d => d.retest false
def execRngRetestB (s : State) : Host.Outcome State Fault Refusal := s.on fun d => d.byCore fun d => d.retest true

/-- RNG_CTRL.KAT: the run's failures, bit 0 the conditioner and bit 1 + i instance i (R393). -/
def execRngKat (bad : Nat) (s : State) : Host.Outcome State Fault Refusal :=
  s.on fun d => d.byCore fun d => Dev.entropy (d.knownAnswer bad)

/-- RNG_ICTRL.RESEED and REINST (R391, R392, R400). -/
def execRngIctrlReseed (inst : Nat) (s : State) : Host.Outcome State Fault Refusal :=
  s.on fun d => d.byCore fun d => d.ictrlReseed inst
def execRngIctrlReinst (inst : Nat) (s : State) : Host.Outcome State Fault Refusal :=
  s.on fun d => d.byCore fun d => d.ictrlReinst inst

/-- An instance has served RNG_RESEED_INT requests (R391, R399). -/
def execReseedIntervalReached (inst : Nat) (s : State) : Host.Outcome State Fault Refusal :=
  s.on fun d => d.clocked fun d => if d.canDraw inst && decide (d.rng.reseedInt ≤ (d.inst inst).reqs) then d.reseed inst else d

/-- The fill window of host requests runs out; arrival wins (R395, R399). -/
def execHostFillWindowExpiry (s : State) : Host.Outcome State Fault Refusal :=
  s.on fun d => d.clocked fun d =>
    let late := d.rng.fills.filter fun f => d.past f.until_
    (d.onRng fun r => { r with fills := r.fills.filter fun f => !d.past f.until_ }).each late fun d f => d.hostAnswer f

end Sys2Proof.Machine
end

