-- ==== Sys2Proof/Machine/PowerOps.lean ====
section
/-! DEFINITION. Main power-up step by step, supply events, PFAIL_N, GPIO edges and close-done (R36, R195, R223, R227 to
R239, R245, R518, R574 to R590). -/
namespace Sys2Proof.Machine

def Dev.onSupply (d : Dev) (f : Supply → Supply) : Dev := { d with supply := f d.supply }

/-! ### The start-up sequence -/

/-- Main power is off: VAULT, FIELD or none (R217). -/
def Dev.powerOff (d : Dev) : Bool := d.power.mode = .vault || d.power.mode = .field

/-- PGOOD rises (R227): MGT_SEL is sampled (R274). VDD_IO powers the always-on domain too (R574). -/
def Dev.pgoodRise (d : Dev) : Dev :=
  if d.supply.pgood then d
  else
    let d := d.onSupply fun s => { s with pgood := true, vddIo := true, i2c := Config.mgtSel }
    if d.powerOff then d.powerUp else d

/-- The reset hold expires: clocks, noise sources and the known-answer tests, ROM and store SCAN start; the word-code salt,
the tamper configuration and the settings load (R227, R245, R393, R410, R420, R533). The Bool says that ENTROPY_FAIL is
reported. -/
def Dev.resetRelease (d : Dev) (kat : Nat) : Bool × Dev :=
  match d.power.holdAt with
  | none => (false, d)
  | some t =>
    if !(d.supply.pgood && d.past t) then (false, d)
    else
      let d := d.onPower fun p => { p with holdAt := none, startStep := .rom, clocksAt := d.clk + 20000 }
      let d := (d.onSupply fun s => { s with clocks := true }).onRng Rng.clocksOn
      let d := (d.onStore fun s => { s with st := .scan }).saltForm.tmpLoad.loadRegs
      d.knownAnswer kat

/-- The ROM (R227, R439, R419, R417, R444, R518, R531): life-cycle log, pending increments, wipe, canary; then the hand-over to a bootable
bank, the new power cycle and the time start. It waits in ROM while the row of the power cycle is not programmed (R168). -/
def Dev.romHandOff (d : Dev) (rowOk : Bool) : Dev :=
  if !(d.power.mode = .test && d.power.startStep = .rom && d.supply.clocks) then d
  else if !rowOk then d.powerCycleFails
  else
    let d := d.lifeRead.tecRead.genProgram.tecProgram.flashWipe.canaryCheck
    if d.power.mode ≠ .test then d
    else
      match d.bootBank with
      | none => d
      | some (b, fb) =>
        let d := d.onFlash fun c => { c with runBank := b, fallback := fb }
        (d.newPowerCycle.timeStart).onPower fun p => { p with startStep := .firmware }

/-- The measurements of the running image (R368), and the firmware minimum raised to its version (R367). -/
def Dev.measureBoot (d : Dev) : Dev :=
  let b := d.flash.runBank
  let m := d.flash.manifest b
  let v := numAt m 0xC 1
  d.onKeys fun k =>
    { k with meas := { k.meas with mS := d.flash.measure b, fwSigner := bytesAt m 0x60 64, fwRun := v,
                                   fwMin := Nat.max k.meas.fwMin v } }

/-- BOOT_DONE (R227, R229, R365, R371, R442, R443). -/
def Dev.bootFinish (d : Dev) : Dev :=
  if !(d.power.mode = .test && d.power.startStep = .firmware && d.time.servo.run) then d
  else
    let d := (d.measureBoot.onKeys fun k => k.replay d.aon.canaryLost).onAon fun a => { a with canaryLost := false }
    let d := d.markApply.clearStale fun o => o == 0 || o == 15
    let d := d.fieldPowerUp.onPower fun p => { p with startStep := .scan, bootDone := true }
    let d := d.logEvent 0x010 0 (le 4 d.power.wakeSrc.toNat ++ [u8 (b2n d.time.servo.aonLost), u8 (b2n d.time.servo.ckptUsed)])
    d.receiptKeyCheck.answerShapes

/-- Random output becomes ready: instances, close pool, aon_salt, a canary that is due, and a receipt key that is missing
(R397, R410, R417, R443). -/
def Dev.randomStart (d : Dev) : Dev :=
  let was := d.rng.ready
  let d := d.randomReady
  if !was && d.rng.ready then d.canaryMend.receiptKeyCheck else d

/-- START_STEP as it reads (R227): CLOCKS for the 20 µs after the reset hold, and ROM until the time has started. -/
def Dev.startCode (d : Dev) : Nat :=
  match d.power.startStep with
  | .rom => if d.clk < d.power.clocksAt then StartStep.clocks.code else StartStep.rom.code
  | .firmware => if d.time.servo.run then StartStep.firmware.code else StartStep.rom.code
  | s => s.code

/-- What a fall without PFAIL_N, or one within a close, left (R49, R239): NO_PFAIL, and CLOSE_NO_OPENING where no opening record was
programmed. -/
def Dev.noPfailFound (d : Dev) : Dev :=
  let late := d.power.noPfail || d.power.closeCut
  let d := if d.power.noPfail then (d.powerErr 3).logEvent 0x016 3 [] else d
  let d := d.onPower fun p => { p with noPfail := false, closeCut := false }
  if late && (d.storedKind 0x30).isNone then d.logEvent 0x014 3 [] else d

/-- PFAIL_N is asserted when the store reaches READY (R227): logged once. -/
def Dev.pfailAtStart (d : Dev) : Dev :=
  if d.power.pfail && !d.power.pfailLogged && d.power.mode = .test then
    ((d.onPower fun p => { p with pfailLogged := true }).powerErr 5).logEvent 0x015 2 []
  else d

/-- STORE_SCAN_DONE (R192, R225, R227, R430): READY; at a main power-up the events are handed off. -/
def Dev.storeReady (d : Dev) : Dev :=
  if d.store.st ≠ .scan then d
  else if d.power.mode = .standby then d.onStore fun s => { s with st := .ready }
  else if d.power.mode = .test && d.power.bootDone then (d.scanDone.noPfailFound.logHandOff).pfailAtStart
  else d

/-- START_UP_DONE (R227): EN and WRITER_EN are set, and the mode is IDLE. -/
def Dev.startUpDone (d : Dev) : Dev :=
  if d.power.mode = .test && d.power.startStep = .reconcile && d.store.recon = .ended && !d.power.pfail then
    let d := (d.reconFinish.setMode .idle).onPower fun p => { p with startStep := .done }
    let d := (d.onStore fun s => { s with writerEn := true }).onHive fun h => { h with en := true }
    d.hiveSettle.tagSettle
  else d

/-! ### Supplies -/

/-- PGOOD falls (R239, R576): every main-powered block is reset; key RAM and the tamper configuration stay with the
always-on domain (R414). -/
def Dev.pgoodFall (d : Dev) : Dev :=
  if !d.supply.pgood then d
  else
    let cut := d.power.mode = .close && !d.close.recordDone
    let no := (d.power.mode = .record || d.power.mode = .ingest) && !d.power.pfail
    let r := d.mainReset
    let r := { r with tamper := d.tamper, keys := { r.keys with slots := d.keys.slots } }
    let m := if !d.supply.vbat && d.supply.field then Mode.field else Mode.vault
    let r := r.onPower fun p => { p with mode := m, noPfail := p.noPfail || no, closeCut := p.closeCut || cut, wakeAsked := false }
    (r.onSupply fun s => { s with pgood := false, vddIo := !s.vbat }).tagSettle

/-- The always-on domain loses power (R158, R171, R410, R415 to R417, R576): its counter, key RAM and buffers are gone;
the mirrors in field-page memory and the marker rows stay. -/
def Dev.aonLoss (d : Dev) : Dev :=
  if d.supply.pgood then d
  else
    let d := d.onSupply fun s => { s with vbat := false, vddIo := false }
    let d := { d with time := { d.time with aon := {} } }
    let d := d.onAon fun a => { mirror := a.mirror, gMirror := a.gMirror, marker1 := a.marker1, marker2 := a.marker2 }
    let d := { d with keys := { d.keys with slots := [], gPending := 0 } }
    let d := d.onLife fun l => { l with pendingTampered := false }
    { d with log := { d.log with next := 0 },
             power := { mode := if d.supply.field then .field else .vault, pfail := d.power.pfail } }

/-- Power returns to the always-on domain from VBAT or VDD_IO; its counter restarts from zero (R158). -/
def Dev.aonReturn (d : Dev) (cell : Bool) : Dev :=
  let dead := !d.supply.vbat && !d.supply.vddIo
  let d := d.onSupply fun s => if cell then { s with vbat := true } else { s with vddIo := true }
  let d := if dead then { d with time := { d.time with aon := {} } } else d
  if d.power.mode = .field && cell then d.onPower fun p => { p with mode := .vault } else d

/-! ### PFAIL_N -/

/-- PFAIL_N assertion is recognised (R36, R48, R223, R236, R238). -/
def Dev.pfailAssert (d : Dev) : Dev :=
  if d.power.pfail then d
  else if d.powerOff then d.onPower fun p => { p with pfail := true }
  else
    let act := d.power.mode = .record || d.power.mode = .ingest
    let d := d.onPower fun p =>
      { p with pfail := true, pfailTime := d.now, asserts := satInc 16 p.asserts, quiet := if act then p.quiet else satInc 16 p.quiet }
    if act then d.closeStart .pfail 0
    else if d.power.mode = .close then
      (d.closeJoin .onPfail).onClose fun c =>
        { c with restartAt := none, pfailAt := if c.recordDone then c.pfailAt else c.pfailAt.or (some d.clk) }
    else (d.logEvent 0x019 1 [1#8, u8 d.power.mode.code]).reconStop

/-- PFAIL_N deassertion is recognised: the 10 ms run (R238). -/
def Dev.pfailDeassert (d : Dev) : Dev :=
  if !d.power.pfail then d
  else
    let d := d.onPower fun p => { p with pfail := false }
    if d.power.mode = .close then d.onClose fun c => { c with restartAt := some (d.clk + ms 10) } else d

/-- PFAIL_RESTART_WAIT_EXPIRY (R238, R245): arrival wins. -/
def Dev.pfailRestart (d : Dev) : Dev :=
  match d.close.restartAt with
  | some t =>
    if d.power.mode = .close && d.power.closeDone && !d.power.pfail && d.close.after = .onPfail && d.past t then d.closeRestart
    else d
  | none => d

/-- CLOSE_DONE (R234, R238): the field step has ended; the device acts according to the close cause. -/
def Dev.closeFinish (d : Dev) : Dev :=
  if !(d.power.mode = .close && d.close.recordDone && !d.power.closeDone && !d.field.waits.any fun w => w.work == .close) then d
  else
    let d := d.onPower fun p => { p with lastValid := true }
    let v := d.power.lastDuration + d.power.lastCause.code * 65536 + 524288
    let d := (d.logEvent 0x013 1 (le 4 v ++ le 4 d.close.nLost)).closeDone
    match d.close.after with
    | .onWake => d.safeOff
    | .restartNow => d.closeRestart
    | _ => d

/-- CLOSE_RECORD_PROGRAMMED: the counter log is checkpointed, and the field step begins (R157, R234). -/
def Dev.closeRecorded (d : Dev) : Dev :=
  let was := d.close.recordDone
  let d := d.closeRecordDone
  if !was && d.close.recordDone then (d.checkpointTries 3).closeField else d

/-! ### GPIO -/

/-- An edge on a trigger line (R33, R195, R213): in a close it is recorded in the close record, up to 32 of them and
while that record is not formed. -/
def Dev.trigger (d : Dev) (line : Nat) : Dev :=
  let t := d.now
  let tr := d.store.trig
  let waits := tr.rearm.any fun r => r.1 == line && !d.due r.2
  if waits then d
  else
    let rearm := tr.rearm.filter (fun r => r.1 != line) ++ [(line, d.clk + ms tr.deb)]
    let full := decide (32 ≤ tr.fifo.length)
    let d := d.onStore fun s => { s with trig := { s.trig with
      rearm := rearm, fifo := if full then tr.fifo else tr.fifo ++ [(line, t)],
      overflow := if full then satInc 16 tr.overflow else tr.overflow } }
    if d.power.mode = .close then
      if d.close.triggers.length < 32 && d.close.stage < 4 then
        d.onClose fun c => { c with triggers := c.triggers ++ [{ line := line, time := t }] }
      else (d.onClose fun c => { c with overflow := c.overflow + 1 }).logEvent 0x04A 2 (u8 line :: le 8 t)
    else d.onStore fun s => { s with trig := { s.trig with toPlace := s.trig.toPlace ++ [(line, t)] } }

/-- A GPIO level is recognised (R224, R590). -/
def Dev.gpioEdge (d : Dev) (line : Nat) (level : Bool) : Dev :=
  if 32 ≤ line || flag d.supply.gpio line == level then d
  else
    let d := d.onSupply fun s => { s with gpio := if level then setBit s.gpio line else s.gpio &&& ~~~(lo32 (2 ^ line)) }
    let falls := !level
    let d := if !d.powerOff && flag d.store.trig.en line && flag d.store.trig.pol line == falls then d.trigger line else d
    if flag d.power.wakePol line == falls && (decide (d.power.mode ≠ .field)) then d.wakeGpio line else d

/-- TRIGGER_HOLD_PLACE (R195): the oldest trigger whose hold is not placed. -/
def Dev.triggerPlace (d : Dev) : Dev :=
  match d.store.trig.toPlace with
  | [] => d
  | (line, t) :: rest =>
    if d.store.st ≠ .ready then d
    else (d.onStore fun s => { s with trig := { s.trig with toPlace := rest } }).triggerHold line t (d.preRoll line) (d.postRoll line)

end Sys2Proof.Machine
end

