-- ==== Sys2Proof/Machine/TamperRows.lean ====
section
/-! DEFINITION. The commands of the tamper monitors (R401 to R423). -/
namespace Sys2Proof.Machine

/-- A detector of a sensor class fires (1 A, 2 B, 3 both), at a site. For detector A of the static enclosure inputs it is
a level change that is debounced first (R402, R406). The VBAT comparator fires when the cell is gone (R417). -/
def execSensorDetectorFire (cls det site : Nat) (level : Option Bool) (s : State) : Host.Outcome State Fault Refusal :=
  s.on fun d =>
    match level with
    | some v => if cls = 5 && det = 1 then d.encLevel site v else d
    | none =>
      let d := if cls = 7 && det = 1 && d.watches 7 then d.onSupply fun q => { q with vbat := false } else d
      d.sensorFire cls det site

/-- The corroboration window of a firing runs out; arrival wins (R402, R422). -/
def execCorroborationWindowExpiry (s : State) : Host.Outcome State Fault Refusal := s.on Dev.corrobExpiry

/-- Events leave the window of their class; arrival wins (R403, R422). -/
def execFilterWindowExpiry (cls : Nat) (s : State) : Host.Outcome State Fault Refusal := s.on (Dev.windowExpiry · cls)

/-- The debounce of an enclosure input runs out (R406, R422). -/
def execEncDebExpiry (input : Nat) (s : State) : Host.Outcome State Fault Refusal := s.on (Dev.encExpiry · input)

/-- Pending increments of the evidence counter are programmed (R416, R419). -/
def execTecIncrement (s : State) : Host.Outcome State Fault Refusal := s.on Dev.tecIncrement

/-- The TAMPERED entry of a DESTROY is programmed, or fails (R444). -/
def execTamperedEntryProgram (ok : Bool) (s : State) : Host.Outcome State Fault Refusal := s.on (Dev.tamperedEntry · ok)

/-- TMP_CTRL.CFG_COMMIT and INJ_GO (R420, R421). -/
def execTmpCfgCommit (s : State) : Host.Outcome State Fault Refusal := s.on fun d => d.byCore Dev.tmpCommit
def execTmpInject (cls det : Nat) (s : State) : Host.Outcome State Fault Refusal := s.on fun d => d.byCore fun d => d.inject cls det

end Sys2Proof.Machine
end

