-- ==== Sys2Proof/Machine/Tiles.lean ====
section
/-! DEFINITION. The commands of the public-key tiles (R338 to R357). -/
namespace Sys2Proof.Machine

/-- A write of PK_SQ_TAIL by a software submitter: the supervisor, or 1 + c for comb controller c (R344). -/
def execPkSqDoorbell (sub tail : Nat) (s : State) : Host.Outcome State Fault Refusal :=
  s.on fun d => d.byCore fun d => if sub ≤ d.nCombs then d.pkDoorbell sub (tail % 2 ^ 32) else d

/-- A tile starts a job of an operation, the one that the dispatcher offers it (R345, R346). -/
def Dev.tileJob (d : Dev) (t op : Nat) : Dev := d.clocked fun d => d.startJob t op

/-- The operations (R338, R339). -/
def execFalconSign (tile : Nat) (s : State) : Host.Outcome State Fault Refusal := s.on (Dev.tileJob · tile 0x01)
def execFalconVerify (tile : Nat) (s : State) : Host.Outcome State Fault Refusal := s.on (Dev.tileJob · tile 0x02)
def execFalconKeygen (tile : Nat) (s : State) : Host.Outcome State Fault Refusal := s.on (Dev.tileJob · tile 0x03)
def execMlkemKeygen (tile : Nat) (s : State) : Host.Outcome State Fault Refusal := s.on (Dev.tileJob · tile 0x10)
def execMlkemEncaps (tile : Nat) (s : State) : Host.Outcome State Fault Refusal := s.on (Dev.tileJob · tile 0x11)
def execMlkemDecaps (tile : Nat) (s : State) : Host.Outcome State Fault Refusal := s.on (Dev.tileJob · tile 0x12)
def execEcdsaP384Sign (tile : Nat) (s : State) : Host.Outcome State Fault Refusal := s.on (Dev.tileJob · tile 0x20)
def execEcdsaP384Verify (tile : Nat) (s : State) : Host.Outcome State Fault Refusal := s.on (Dev.tileJob · tile 0x21)
def execP384Keygen (tile : Nat) (s : State) : Host.Outcome State Fault Refusal := s.on (Dev.tileJob · tile 0x22)
def execEcdhP384 (tile : Nat) (s : State) : Host.Outcome State Fault Refusal := s.on (Dev.tileJob · tile 0x23)
def execX25519 (tile : Nat) (s : State) : Host.Outcome State Fault Refusal := s.on (Dev.tileJob · tile 0x30)
def execX25519Keygen (tile : Nat) (s : State) : Host.Outcome State Fault Refusal := s.on (Dev.tileJob · tile 0x31)
def execRsaVerify (tile : Nat) (s : State) : Host.Outcome State Fault Refusal := s.on (Dev.tileJob · tile 0x40)

/-- A running job reaches a yield point (R345 to R348). -/
def execTileYieldPoint (tile : Nat) (s : State) : Host.Outcome State Fault Refusal :=
  s.on fun d => d.clocked fun d => d.yieldPoint tile

/-- A running job is complete: `fault` is 0 for a good one, 1 where the two computations of compare mode differ or a
check of the tile failed (R343, R353, R354). A mismatch is a tamper event of class 10 (R405). -/
def execTileJobComplete (tile fault : Nat) (s : State) : Host.Outcome State Fault Refusal :=
  s.on fun d => d.clocked fun d =>
    let r := d.jobDone tile fault
    let d := if r.1.mismatch then r.2.internalEvent 10 else r.2
    d.each r.1.ends Dev.jobEnded

/-- PK_ABORT with GO (R348). -/
def execPkAbort (sub tag : Nat) (s : State) : Host.Outcome State Fault Refusal :=
  s.on fun d => d.byCore fun d => d.pkAbort sub tag

/-- A write of PK_CTRL.TILE_EN (R356). -/
def execPkTileEnWrite (en : Nat) (s : State) : Host.Outcome State Fault Refusal :=
  s.on fun d => d.byCore fun d => d.tileEnable en

end Sys2Proof.Machine
end

