-- ==== Sys2Proof/Machine/RegKeys.lean ====
section
/-! DEFINITION. The PK_, KEY_, RNG_, TMP_ and LOG_ registers (R356, R385, R400, R423, R437), by byte offset ÷ 4. -/
namespace Sys2Proof.Machine

/-! PK_ -/

/-- PK_STATUS (R356). -/
def Dev.pkStatus (d : Dev) : Nat :=
  let bits := fun (p : Tile → Bool) => ((List.range 8).map fun t => b2n (p (d.tile t)) * 2 ^ t).sum
  bits (fun t => t.running.isSome || !t.parked.isEmpty) + bits (fun t => t.st == .fault) * 2 ^ 8
    + b2n (!d.rng.ready && d.tiles.waiting.any fun j => j.needs && j.cls != 0) * 2 ^ 16 + Nat.min 127 d.tiles.waiting.length * 2 ^ 17

/-- PK_TILEt (R356, R357). -/
def Tile.reg (t : Tile) : Nat :=
  let j := t.running.getD { op := 0, cls := 0, sub := 0 }
  t.st.code + j.cls * 2 ^ 3 + t.parked.length * 2 ^ 5 + j.sub * 2 ^ 7 + j.op * 2 ^ 16

/-- The queue registers of a submitter, offsets 0x14 to 0x30. -/
def Dev.pkQueueRead (d : Dev) (sub i : Nat) : Option Nat :=
  let q := d.pkq sub
  match i with
  | 5 => some 0
  | 6 => some q.sqBase
  | 7 => some (q.size + b2n q.en * 16)
  | 8 => some q.sqTail
  | 9 => some q.sqHead
  | 10 => some q.cqBase
  | 11 => some q.cqHead
  | 12 => some q.cqTail
  | _ => none
def Dev.pkRead (d : Dev) (i : Nat) : Option Nat :=
  match i with
  | 0 => some (b2n (d.tiles.compareDef || d.life.st == .fleet) + d.tiles.tileEn * 2 ^ 8)
  | 1 => some d.pkStatus
  | 2 => some d.tiles.err.toNat
  | 3 => some d.tiles.mismatch
  | 4 => some d.tiles.jobs
  | _ => if 16 ≤ i && i < 24 then some (d.tile (i - 16)).reg else d.pkQueueRead 0 i

/-- PK_SQ_CFG: the size is locked while EN = 1, and queues that are enabled take what waits. -/
def Dev.pkCfg (d : Dev) (sub v : Nat) : Dev :=
  let q := d.pkq sub
  let size := v % 16
  let e := d.onPkq sub fun q => { q with en := v.testBit 4, size := if !q.en && inRange 4 8 size then size else q.size }
  (if q.en || size = q.size || inRange 4 8 size then e else e.pkErr 0).takeAll sub

/-- A submitter's write of its queue registers, and the supervisor's of the others. -/
def Dev.pkQueueWrite (d : Dev) (sub i v : Nat) : Dev :=
  let q := d.pkq sub
  match i with
  | 5 => if v.testBit 31 then d.pkAbort sub v else d
  | 6 => if q.en then d else d.onPkq sub fun q => { q with sqBase := v }
  | 7 => d.pkCfg sub v
  | 8 => d.pkDoorbell sub v
  | 10 => if q.en then d else d.onPkq sub fun q => { q with cqBase := v }
  | 11 => (d.onPkq sub fun q => { q with cqHead := v, irq := q.irq && v != q.cqTail }).takeAll sub
  | _ => d
def Dev.pkWrite (d : Dev) (i v : Nat) : Dev :=
  match i with
  | 0 =>
    let d := if d.life.st = .fleet then d else d.onTiles fun t => { t with compareDef := v.testBit 0 }
    d.tileEnable (bitsAt v 8 8)
  | 2 => d.onTiles fun t => { t with err := clr t.err v }
  | 3 => if v.testBit 0 then d.onTiles fun t => { t with mismatch := 0 } else d
  | _ => d.pkQueueWrite 0 i v

/-! KEY_ -/

/-- KEY_CNT: occupied short and long slots, and the stale ones. -/
def Dev.keyCnt (d : Dev) : Nat :=
  let full := d.keys.slots.filter fun e => e.2.full
  (full.countP fun e => decide (e.1 < 1024)) + (full.countP fun e => decide (1024 ≤ e.1)) * 2 ^ 11 + d.keys.stale * 2 ^ 18

/-- The registers that P0 and P1 see (R385). -/
def Dev.keyShown (d : Dev) (i : Nat) : Option Nat :=
  match i with
  | 8 => some (half 0 d.keys.counter)
  | 9 => some (half 1 d.keys.counter)
  | 10 => some (d.keys.g + d.keys.meas.fwMin * 2 ^ 9 + d.keys.meas.fwRun * 2 ^ 17 + b2n d.keys.hukDead * 2 ^ 25)
  | 11 => some d.keyCnt
  | _ => if 32 ≤ i && i < 48 then some (word32 d.keys.idDigest (i - 32)) else none

/-- Operation registers of a requester: 0 the supervisor, 1 + c comb controller c; and its KEY_MEAS. -/
def Dev.keyOwn (d : Dev) (who i : Nat) : Option Nat :=
  let o := vget d.keys.ops who {}
  match i with
  | 0 => some 0
  | 1 => some (o.dst + o.src * 2 ^ 16)
  | 2 => some o.attrLo.toNat
  | 3 => some o.attrHi.toNat
  | 4 => some o.addr
  | 5 => some o.len
  | 6 => some (b2n o.busy + b2n o.done * 2 + b2n d.keys.ready * 4 + o.status * 16)
  | 13 => some o.laneReg
  | _ =>
    if 16 ≤ i && i < 32 then some (word32 (if who = 0 then d.keys.meas.mS else d.combMeasure (who - 1)) (i - 16)) else none
def Dev.keyRead (d : Dev) (i : Nat) : Option Nat :=
  match i with
  | 7 => some d.keys.err.toNat
  | 12 => some d.keys.fresh
  | _ => d.keyOwn 0 i <|> d.keyShown i

/-- KEY_OP with GO (R381, R382, R385). -/
def Dev.keyOpGo (d : Dev) (who v : Nat) : Dev :=
  let resv := decide (256 ≤ v)
  d.keyGo who fun d =>
    match v % 16 with
    | 1 => d.keyGenerate who resv
    | 2 => d.keyDerive who (bitsAt v 5 2) (v.testBit 7) resv
    | 3 => d.keyWrap who resv
    | 4 => d.keyUnwrap who resv
    | 5 => d.keyOpenDst who resv
    | 6 => d.keyClear who resv
    | 7 => d.keyLoadLane who resv
    | 8 => d.keyInfo who resv
    | _ => d.keyOpEnd who .badField

/-- A write of a requester's own operation registers. -/
def Dev.keyOwnWrite (d : Dev) (who i v : Nat) : Dev :=
  let put := fun (f : KeyOpRegs → KeyOpRegs) => d.onKeys fun k => { k with ops := vupd k.ops who f }
  match i with
  | 0 => if v.testBit 4 then d.keyOpGo who v else d
  | 1 => put fun o => { o with dst := bitsAt v 0 11, src := bitsAt v 16 11 }
  | 2 => put fun o => { o with attrLo := lo32 v }
  | 3 => put fun o => { o with attrHi := lo32 v }
  | 4 => put fun o => { o with addr := v }
  | 5 => put fun o => { o with len := v % 8192 }
  | 6 => if v.testBit 1 then put fun o => { o with done := false } else d
  | 13 => put fun o => { o with laneReg := v % 256 }
  | _ => d
def Dev.keyRegWrite (d : Dev) (machine : Bool) (i v : Nat) : Dev :=
  match i with
  | 7 => d.onKeys fun k => { k with err := clr k.err v }
  | 11 => if v.testBit 18 then d.onKeys fun k => { k with stale := 0 } else d
  | 12 =>
    let n := v % 131072
    if !machine then d
    else if 10 ≤ n && n ≤ 86400 then d.onKeys fun k => { k with fresh := n }
    else d.onKeys fun k => { k with err := setBit k.err 0 }
  | _ => d.keyOwnWrite 0 i v

/-! RNG_ -/

/-- RNG_STATUS (R400). -/
def Rng.status (r : Rng) : Nat :=
  b2n r.ready + b2n r.activeB * 2 + r.stA.code * 4 + r.stB.code * 16 + b2n r.stopped * 2 ^ 6 + r.pool * 2 ^ 8
    + b2n (decide (8192 ≤ r.cpool)) * 2 ^ 18

/-- Registers of an instance, +0x00 to +0x2C. -/
def Dev.instRead (d : Dev) (i r : Nat) : Option Nat :=
  let x := d.inst i
  match r with
  | 0 => some 0
  | 1 => some (x.st.code + b2n x.need.isSome * 4 + x.reqs * 8)
  | 2 => some x.reseeds
  | 3 => some x.persLen
  | _ => if 4 ≤ r && r < 12 then some (vget x.pers (r - 4) 0#32).toNat else none
def Dev.rngRead (d : Dev) (i : Nat) : Option Nat :=
  let r := d.rng
  match i with
  | 0 => some (b2n r.preferB)
  | 1 => some r.status
  | 2 => some r.err.toNat
  | 3 => some r.rctCut
  | 4 => some r.aptCut
  | 5 => some (r.failsA + r.failsB * 2 ^ 16)
  | 6 => some r.blocks
  | 7 => some r.reseedInt
  | 8 => some r.partialCount
  | _ => if 16 ≤ i && i / 16 - 1 < d.nInst then d.instRead (i / 16 - 1) (i % 16) else none

/-- Writes of instance registers. -/
def Dev.rngErr (d : Dev) : Dev := d.onRng fun r => { r with err := setBit r.err 0 }
def Dev.instWrite (d : Dev) (i r v : Nat) : Dev :=
  match r with
  | 0 =>
    let d := if v.testBit 0 then d.ictrlReseed i else d
    if v.testBit 1 then d.ictrlReinst i else d
  | 3 => if v % 64 ≤ 32 then d.onInst i fun x => { x with persLen := v % 64 } else d.rngErr
  | _ => if 4 ≤ r && r < 12 then d.onInst i fun x => { x with pers := vupd x.pers (r - 4) fun _ => lo32 v } else d

/-- RNG_CTRL; KAT runs with every test passing, as a failing one is RNG_KAT's outcome. -/
def Dev.rngCtrl (d : Dev) (v : Nat) : Dev :=
  let d := d.onRng fun r => { r with preferB := v.testBit 0 }
  let d := if v.testBit 1 then d.retest false else d
  let d := if v.testBit 2 then d.retest true else d
  if v.testBit 3 then Dev.entropy (d.knownAnswer 0) else d

/-- Cutoffs: in FLEET not above the defaults (R400). -/
def Dev.cutOk (d : Dev) (lo hi limit v : Nat) : Bool :=
  decide (lo ≤ v) && decide (v ≤ if d.life.st = .fleet then limit else hi)
def Dev.rngWrite (d : Dev) (i v : Nat) : Dev :=
  match i with
  | 0 => d.rngCtrl v
  | 2 => d.onRng fun r => { r with err := clr r.err v }
  | 3 => if d.cutOk 21 255 41 (v % 256) then d.onRng fun r => { r with rctCut := v % 256 } else d.rngErr
  | 4 => if d.cutOk 513 1023 795 (v % 1024) then d.onRng fun r => { r with aptCut := v % 1024 } else d.rngErr
  | 7 =>
    let n := v % 2097152
    if 1 ≤ n && n ≤ 1048576 then d.onRng fun r => { r with reseedInt := n } else d.rngErr
  | 8 => if v.testBit 0 then d.onRng fun r => { r with partialCount := 0 } else d
  | _ => if 16 ≤ i && i / 16 - 1 < d.nInst then d.instWrite (i / 16 - 1) (i % 16) v else d

/-! TMP_ -/

/-- TMP_STATUS (R423). -/
def Dev.tmpStatus (d : Dev) : Nat :=
  let t := d.tamper
  t.lastResp + b2n t.anyAlarm * 8 + (t.slots.length - 1) % 4 * 16 + b2n t.cfgDefault * 2 ^ 6 + b2n (d.aon.pending != 0) * 2 ^ 7
    + b2n (decide (4096 ≤ Nat.max t.tec1 t.tec2)) * 2 ^ 8 + b2n t.fleetRaised * 2 ^ 9 + b2n d.aon.vaultAlarm * 2 ^ 10
def ClassCfg.reg (k : ClassCfg) : Nat := k.resp + k.n * 2 ^ 8 + k.wVal * 2 ^ 16 + k.wUnit * 2 ^ 28

/-- The part of the always-on buffer that the event recorder has not taken over. -/
def Dev.tmpRead (d : Dev) (i : Nat) : Option Nat :=
  let t := d.tamper
  let c := t.cfg
  match i with
  | 0 => some 0
  | 1 => some d.tmpStatus
  | 2 => some d.aon.latch.toNat
  | 3 => some d.aon.detFault.toNat
  | 4 => some t.err.toNat
  | 5 => some (Nat.max t.tec1 t.tec2 + Nat.min 255 d.aon.pending * 2 ^ 13)
  | 6 => some (d.aon.buffer.length + d.aon.lost * 2 ^ 7)
  | 7 => some (c.inEn + c.inPol * 2 ^ 8 + c.loopEn * 2 ^ 16 + c.encDeb * 2 ^ 20)
  | 8 => some (c.tLo + c.tHi * 2 ^ 8)
  | 9 => some d.aon.meshFail.toNat
  | 10 => some d.aon.lightLo.toNat
  | 11 => some d.aon.lightHi.toNat
  | _ =>
    if 16 ≤ i && i < 27 then some (vget c.cls (i - 16) {}).reg
    else if 32 ≤ i && i < 43 then some ((vget t.events (i - 32) []).length + vget t.total (i - 32) 0 * 2 ^ 16)
    else none

/-- A configuration field is written at M while it is open; a value out of range or beyond a FLEET limit sets CFG_RANGE (R420,
R423). -/
def Dev.tmpPut (d : Dev) (machine ok : Bool) (f : TmpCfg → TmpCfg) : Dev :=
  if !ok then d.tmpErr 0
  else if machine && d.tmpOpen then d.onTamper fun t => { t with cfg := f t.cfg }
  else d

/-- A class as a word of TMP_CLASSc spells it, in range (R423). -/
def classOf (v : Nat) : ClassCfg := { resp := v % 8, n := bitsAt v 8 8, wVal := bitsAt v 16 12, wUnit := bitsAt v 28 2 }
def ClassCfg.ok (k : ClassCfg) : Bool :=
  decide (k.resp ≤ 5) && decide (1 ≤ k.n) && decide (1 ≤ k.wVal) && decide (k.wUnit ≤ 2) && decide (k.window ≤ 1000000000000)

/-- TMP_LATCH and its like: cleared at M only; the tamper interrupt ends with the last class latched (R421). -/
def Dev.tmpLatchClear (d : Dev) (v : Nat) : Dev :=
  let d := d.onAon fun a => { a with latch := clr a.latch v }
  if d.aon.latch = 0#32 then d.onTamper fun t => { t with irq := false } else d

/-- TMP_CTRL (R420, R421). -/
def Dev.tmpCtrl (d : Dev) (machine : Bool) (v : Nat) : Dev :=
  let d := if v.testBit 0 && machine then d.tmpCommit else d
  if v.testBit 1 then d.inject (bitsAt v 2 4) (bitsAt v 6 2) else d
def Dev.tmpWrite (d : Dev) (machine : Bool) (i v : Nat) : Dev :=
  let fleet := decide (d.life.st = .fleet)
  let lo := v % 256
  let hi := bitsAt v 8 8
  match i with
  | 0 => d.tmpCtrl machine v
  | 2 => if machine then d.tmpLatchClear v else d
  | 3 => if machine then d.onAon fun a => { a with detFault := clr a.detFault v } else d
  | 4 => d.onTamper fun t => { t with err := clr t.err v }
  | 7 =>
    d.tmpPut machine (bitsAt v 20 8 != 0) fun c =>
      { c with inEn := v % 256, inPol := hi, loopEn := bitsAt v 16 4, encDeb := bitsAt v 20 8 }
  | 8 =>
    d.tmpPut machine (decide (128 ≤ lo) && decide (lo ≤ 215) && decide (116 ≤ hi) && decide (hi ≤ 127)) fun c =>
      { c with tLo := lo, tHi := hi }
  | 9 => if machine then d.onAon fun a => { a with meshFail := clr a.meshFail v } else d
  | 10 => if machine then d.onAon fun a => { a with lightLo := clr a.lightLo v } else d
  | 11 => if machine then d.onAon fun a => { a with lightHi := clr a.lightHi v } else d
  | _ =>
    let k := classOf v
    if 16 ≤ i && i < 27 then
      d.tmpPut machine (k.ok && (!fleet || k.fleetOk (i - 16))) fun c => { c with cls := vupd c.cls (i - 16) fun _ => k }
    else d

/-! LOG_ -/

/-- LOG_NEWEST and LOG_OLDEST, whose HI registers are latched by reads of LO (R174, R437); the latches are kept beside those
of the TIME_ block. -/
def logPair (reg : Nat) : Nat := 0x53000 + reg
def Dev.logPairValue (d : Dev) (i : Nat) : Option Nat :=
  match i with | 1 => some (d.log.next - 1) | 3 => some d.log.oldest | _ => none
def Dev.logLatch (d : Dev) (who : Requester) (i : Nat) : Dev :=
  match d.logPairValue i with
  | some v => { d with time := d.time.latch who (logPair i) v }
  | none => d
def Dev.logRead (d : Dev) (who : Requester) (i : Nat) : Option Nat :=
  let l := d.log
  match i with
  | 0 => some (b2n l.frozen + b2n (!l.carry.isEmpty) * 2 + b2n (l.clearIdx.isSome || l.clearErase != 0) * 4
      + l.buffer.length % 1024 * 8 + b2n l.held * 2 ^ 13)
  | 1 => some (half 0 (l.next - 1))
  | 2 => some (half 1 (d.time.latched who (logPair 1)))
  | 3 => some (half 0 l.oldest)
  | 4 => some (half 1 (d.time.latched who (logPair 3)))
  | 5 => some (l.droppedInfo + l.droppedNotice * 2 ^ 8 + l.droppedWarning * 2 ^ 16 + l.droppedCritical * 2 ^ 24)
  | 6 => some l.frozenLost
  | 7 => some l.flushMs
  | 8 => some l.err.toNat
  | 9 => some 0
  | 10 => some 0
  | 11 => some 0
  | 12 => some 0
  | _ => none
def Dev.onLog (d : Dev) (f : Log → Log) : Dev := { d with log := f d.log }
def Dev.logWrite (d : Dev) (i v : Nat) : Dev :=
  match i with
  | 5 =>
    if v.testBit 0 then d.onLog fun l => { l with droppedInfo := 0, droppedNotice := 0, droppedWarning := 0, droppedCritical := 0 }
    else d
  | 6 => if v.testBit 0 then d.onLog fun l => { l with frozenLost := 0 } else d
  | 7 =>
    let n := v % 16384
    if 10 ≤ n && n ≤ 10000 then d.onLog fun l => { l with flushMs := n } else d.onLog fun l => { l with err := setBit l.err 0 }
  | 8 => d.onLog fun l => { l with err := clr l.err v }
  | 9 => if v.testBit 31 then d.logSw (v % 1024) else d
  | 10 => d.onLog fun l => { l with swData0 := lo32 v }
  | 11 => d.onLog fun l => { l with swData1 := lo32 v }
  | 12 => d.onLog fun l => { l with swData2 := lo32 v }
  | _ => d

end Sys2Proof.Machine
end

