-- ==== Sys2Proof/Machine/FieldRows.lean ====
section
/-! DEFINITION. The commands of the Beykan field link (R538 to R565). A tag command comes with what its CRC check
gave. -/
namespace Sys2Proof.Machine

/-- The carrier rises, and has been away for 2 ms; arrival wins (R538, R541, R544). -/
def execFieldCarrierRise (s : State) : Host.Outcome State Fault Refusal := s.on Dev.carrierRise
def execCarrierAbsenceExpiry (s : State) : Host.Outcome State Fault Refusal := s.on Dev.carrierGone

/-- The reader's commands (R547 to R554). -/
def execFldBegin (crcOk : Bool) (s : State) : Host.Outcome State Fault Refusal := s.on (Dev.tagBegin · crcOk)
def execFldWalk (plen pre : Nat) (crcOk : Bool) (s : State) : Host.Outcome State Fault Refusal := s.on (Dev.tagWalk · plen pre crcOk)
def execFldSelect (id : Nat) (crcOk : Bool) (s : State) : Host.Outcome State Fault Refusal := s.on (Dev.tagSelect · id crcOk)
def execFldReshuffle (id : Nat) (crcOk : Bool) (s : State) : Host.Outcome State Fault Refusal := s.on (Dev.tagReshuffle · id crcOk)
def execFldSilence (id : Nat) (crcOk : Bool) (s : State) : Host.Outcome State Fault Refusal := s.on (Dev.tagSilence · id crcOk)
def execFldAuth (keyId : Nat) (rr : List Byte) (crcOk : Bool) (s : State) : Host.Outcome State Fault Refusal :=
  s.on (Dev.tagAuth · keyId rr crcOk)
/-- A good PROVE in STANDBY is a wake edge (R224, R538). -/
def execFldProve (mr : List Byte) (crcOk : Bool) (s : State) : Host.Outcome State Fault Refusal :=
  s.on fun d => let r := d.tagProve mr crcOk; if r.1 then r.2.wake 3 else r.2
def execFldRead (block : Nat) (crcOk : Bool) (s : State) : Host.Outcome State Fault Refusal := s.on (Dev.tagRead · block crcOk)
def execFldEnd (crcOk : Bool) (s : State) : Host.Outcome State Fault Refusal := s.on (Dev.tagEnd · crcOk)
def execFldPair (crcOk : Bool) (s : State) : Host.Outcome State Fault Refusal := s.on (Dev.tagPair · crcOk)

/-- The tag's timers (R548, R552, R553, R564). -/
def execSessionInactivityExpiry (s : State) : Host.Outcome State Fault Refusal := s.on Dev.sessionIdle
def execAuthWindowExpiry (s : State) : Host.Outcome State Fault Refusal := s.on Dev.authWindow
def execFieldLockoutExpiry (s : State) : Host.Outcome State Fault Refusal := s.on Dev.fieldUnlock

/-- No pilot began within the reader's reply window; the replies are those to the WALKs that follow (R541, R550). -/
def execReaderReplyWindowExpiry (replies : List (List Bool × Bool)) (s : State) : Host.Outcome State Fault Refusal :=
  s.on fun d => d.clocked fun d => d.readerSilence replies

/-- FLD_WR_CTRL.GO with either target (R545, R557, R565). -/
def execFldWrPage (s : State) : Host.Outcome State Fault Refusal := s.on fun d => d.byCore (Dev.fieldWrite · false)
def execFldWrPool (s : State) : Host.Outcome State Fault Refusal := s.on fun d => d.byCore (Dev.fieldWrite · true)

/-- Waiting writes are made once no session reads the bank, or the first of them fails (R328, R545, R557, R558). -/
def execFieldPageCommit (ok : Bool) (s : State) : Host.Outcome State Fault Refusal :=
  s.on fun d => d.clocked fun d =>
    if ok then d.fieldCommits
    else match d.field.waits.find? d.mayCommit with
      | some w => d.fieldWorkFails w
      | none => d

/-- FLD_KEY_CTRL.GO and CLEAR, written with the register's fields (R551, R565). -/
def execFldKeyLoad (slot keyId entry : Nat) (s : State) : Host.Outcome State Fault Refusal :=
  s.on fun d => d.byCore fun d => if 254 < keyId then d.fieldErr 0 else (d.fieldKeySet slot keyId entry).fieldKeyLoad
def execFldKeyClear (slot keyId entry : Nat) (s : State) : Host.Outcome State Fault Refusal :=
  s.on fun d => d.byCore fun d => if 254 < keyId then d.fieldErr 0 else (d.fieldKeySet slot keyId entry).fieldKeyClear

/-- FLD_CTRL.READER_EN (R561, R565). -/
def execFldReaderEnable (on : Bool) (s : State) : Host.Outcome State Fault Refusal :=
  s.on fun d => d.byCore (Dev.readerEnable · on)

end Sys2Proof.Machine
end

