-- ==== Sys2Proof/Machine/LifeRows.lean ====
section
/-! DEFINITION. The commands of the life cycle, the debug port and the TAP (R438 to R457, R591). -/
namespace Sys2Proof.Machine

/-- The entry of a transition has programmed, or failed (R442). -/
def execLcEntryProgrammed (ok : Bool) (s : State) : Host.Outcome State Fault Refusal :=
  s.on fun d => d.clocked fun d => d.lcEntry ok

/-- The next store block of a RETIRED device is erased (R455). -/
def execRetireStoreErase (s : State) : Host.Outcome State Fault Refusal := s.on fun d => d.clocked Dev.retireErase

/-- DBG_CTRL.LOCK, LC_PROVISION and LC_RETIRE (R441, R451, R457). -/
def execDbgCtrlLock (s : State) : Host.Outcome State Fault Refusal :=
  s.on fun d => if d.debugOn && d.power.mode ≠ .standby then d.debugClose else d
def execDbgCtrlLcProvision (s : State) : Host.Outcome State Fault Refusal := s.on fun d => d.clocked (Dev.dbgTransition · .provision)
def execDbgCtrlLcRetire (s : State) : Host.Outcome State Fault Refusal := s.on fun d => d.clocked (Dev.dbgTransition · .retired)

/-- DBG_CORE.HALT, RESUME and STEP (R445, R457). -/
def execDbgCoreHalt (mask : Nat) (s : State) : Host.Outcome State Fault Refusal := s.on (Dev.dbgHalt · mask)
def execDbgCoreResume (s : State) : Host.Outcome State Fault Refusal := s.on Dev.dbgResume
def execDbgCoreStep (s : State) : Host.Outcome State Fault Refusal := s.on Dev.dbgStep

/-- The unlock window and the debug challenge run out; expiry wins (R451, R456). -/
def execUnlockWindowExpiry (s : State) : Host.Outcome State Fault Refusal := s.on Dev.unlockExpiry
def execDebugChallengeExpiry (s : State) : Host.Outcome State Fault Refusal := s.on Dev.debugChalExpiry

/-- An instruction enters the TAP's instruction register; outside the level's reach it acts as BYPASS (R445, R591). -/
def Dev.tapLoad (d : Dev) (code : Nat) (full : Bool) (f : Dev → Dev) : Dev :=
  if !d.debugOn then d
  else if full && d.levelNow ≠ .full then d.onDebug fun b => { b with tapIr := 0x3F }
  else f (d.onDebug fun b => { b with tapIr := code })

/-- IDCODE of the part (R591). -/
def Variant.idcode : Variant → Nat | .vtz8064 => 0x280649CB | .vtz8032 => 0x280329CB

/-- The TAP's instructions (R591): PRELOAD fills the boundary cells, and SAMPLE shows the balls, which are no part of the
model. -/
def execTapExtest (s : State) : Host.Outcome State Fault Refusal := s.on fun d => d.tapLoad 0x00 true id
def execTapSamplePreload (cells : Nat) (s : State) : Host.Outcome State Fault Refusal :=
  s.on fun d => d.tapLoad 0x01 false fun d =>
    let f := d.free
    (f.2.onDebug fun b => { b with boundary := cells }).send (.tap f.1)
def execTapIdcode (s : State) : Host.Outcome State Fault Refusal :=
  s.on fun d => d.tapLoad 0x02 false fun d => d.send (.tap d.variant.idcode)
def execTapClamp (s : State) : Host.Outcome State Fault Refusal := s.on fun d => d.tapLoad 0x03 true id
def execTapHighz (s : State) : Host.Outcome State Fault Refusal := s.on fun d => d.tapLoad 0x04 true id
def execTapBypass (s : State) : Host.Outcome State Fault Refusal := s.on fun d => d.tapLoad 0x3F false id

end Sys2Proof.Machine
end

