-- ==== Sys2Proof/Machine/RegLife.lean ====
section
/-! DEFINITION. The LC_, DBG_, CFL_, FLD_, CPU_ and MPU_ registers (R457, R511, R536, R565), by byte offset ÷ 4. -/
namespace Sys2Proof.Machine

/-! LC_ and DBG_ -/

def Dev.lcRead (d : Dev) (i : Nat) : Option Nat :=
  let l := d.life
  let entry := fun (k : Nat) => l.entries.getD k 0xFF
  match i with
  | 0 => some (l.st.code + b2n l.pendingTampered * 8 + (64 - l.entries.length) * 16 + b2n l.going.isSome * 2 ^ 11)
  | 1 => some (l.lastFrom + l.lastTo * 8 + l.lastSource * 64)
  | 2 => some (half 0 l.lastTime)
  | 3 => some (half 1 l.lastTime)
  | 4 => some l.err.toNat
  | _ =>
    if 16 ≤ i && i < 32 then
      let k := 4 * (i - 16)
      some (entry k + entry (k + 1) * 2 ^ 8 + entry (k + 2) * 2 ^ 16 + entry (k + 3) * 2 ^ 24)
    else none
def Dev.lcWrite (d : Dev) (i v : Nat) : Dev := if i = 4 then d.onLife fun l => { l with err := clr l.err v } else d

/-- DBG_ registers, at the level now in force. -/
def Dev.dbgRead (d : Dev) (i : Nat) : Option Nat :=
  let b := d.dbg
  match i with
  | 0 => some (d.levelNow.code + b2n b.chal.isSome * 4 + ((b.chal.map (·.1)).getD 0) * 8 + b2n b.lockedHit * 32
      + b2n (d.levelNow == .full) * 64 + b.halted % 512 * 128)
  | 1 => some 0
  | 2 => some d.debugRemain
  | 3 => some b.chalTime
  | 4 => some (b.hitSpace + b2n b.hitValid * 16)
  | 5 => some b.hitAddr
  | 6 => some (b.halted % 512)
  | _ => none

/-- DBG_STATUS.LOCKED_HIT is cleared, and the recorded access with it (R447, R457). -/
def Dev.hitClear (d : Dev) : Dev := d.onDebug fun b => { b with lockedHit := false, hitValid := false, hitSpace := 0, hitAddr := 0 }
def Dev.chalTimeWrite (d : Dev) (v : Nat) : Dev :=
  let n := v % 512
  if 10 ≤ n && n ≤ 300 then d.onDebug fun b => { b with chalTime := n } else d.lcRefused

/-- A supervisor write of a DBG_ register: LOCK, the flag and the challenge time, at M (R457). -/
def Dev.dbgWrite (d : Dev) (machine : Bool) (i v : Nat) : Dev :=
  if !machine then d
  else
    match i with
    | 0 => if v.testBit 5 then d.hitClear else d
    | 1 => if v.testBit 0 then d.debugClose else d
    | 3 => d.chalTimeWrite v
    | _ => d

/-- A write of a DBG_ register from the debug port (R445, R457). -/
def Dev.dbgPortWrite (d : Dev) (i v : Nat) : Dev :=
  match i with
  | 0 => if v.testBit 5 then d.hitClear else d
  | 1 =>
    if v.testBit 0 then d.debugClose
    else if v.testBit 1 then d.dbgTransition .provision
    else if v.testBit 2 then d.dbgTransition .retired
    else d
  | 6 =>
    let d := d.dbgHalt (v % 512)
    let d := if v.testBit 9 then d.dbgResume else d
    if v.testBit 10 then d.dbgStep else d
  | _ => d

/-! CFL_ -/

def Dev.cflRead (d : Dev) (i : Nat) : Option Nat :=
  let c := d.flash
  let act := (c.bank c.runBank).act.getD 0
  match i with
  | 0 => some (b2n c.en)
  | 1 => some (c.runBank + c.nextBank * 2 + b2n c.fallback * 4 + b2n d.settings.defaulted * 8 + b2n c.romOff * 16 + c.bank0.st.code * 2 ^ 5
      + c.bank1.st.code * 2 ^ 8 + Nat.max c.bank0.susp c.bank1.susp * 2 ^ 11)
  | 2 => some (b2n c.pfEn + b2n c.bcEn * 2)
  | 3 => some c.sqBase
  | 4 => some c.sizeLog2
  | 5 => some c.sqTail
  | 6 => some c.sqHead
  | 7 => some c.cqBase
  | 8 => some c.cqHead
  | 9 => some c.cqTail
  | 10 => some c.err.toNat
  | 11 => some d.settings.generation
  | 12 => some (half 0 act)
  | 13 => some (half 1 act)
  | 14 => some (c.level + c.seals * 4 + c.wipes * 2 ^ 8)
  | 15 => some c.stalls
  | _ => none
def Dev.cflWrite (d : Dev) (i v : Nat) : Dev :=
  match i with
  | 0 => d.onFlash fun c => { c with en := v.testBit 0 }
  | 2 => d.fctrlWrite (v.testBit 0) (v.testBit 1)
  | 3 => if d.flash.en then d else d.onFlash fun c => { c with sqBase := v }
  | 4 =>
    if d.flash.en then d
    else if 4 ≤ v % 16 && v % 16 ≤ 8 then d.onFlash fun c => { c with sizeLog2 := v % 16 }
    else d.flashErr 0
  | 5 => d.cflDoorbell v
  | 7 => if d.flash.en then d else d.onFlash fun c => { c with cqBase := v }
  | 8 => d.onFlash fun c => { c with cqHead := v, irq := c.irq && v != c.cqTail }
  | 10 => d.onFlash fun c => { c with err := clr c.err v }
  | 15 => if v.testBit 0 then d.onFlash fun c => { c with stalls := 0 } else d
  | _ => d

/-! FLD_ -/

def Dev.fldRead (d : Dev) (i : Nat) : Option Nat :=
  let l := d.field
  let m := l.mem
  match i with
  | 0 => some (b2n l.tagEn + b2n l.readerEn * 2)
  | 1 => some (b2n d.supply.field + l.tag.code * 2 + m.active * 16 + b2n l.fallback * 32 + (64 - m.used) * 64 + b2n l.lockAt.isSome * 2 ^ 13
      + b2n (!l.waits.isEmpty) * 2 ^ 14 + b2n l.reader.isSome * 2 ^ 15)
  | 2 => some l.err.toNat
  | 3 => some l.wrAddr
  | 4 => some 0
  | 5 => some (b2n (l.waits.any fun w => w.work == .regPage || w.work == .regPool) + b2n l.wrDone * 2 + l.wrStatus * 16)
  | 6 => some m.commitSeq
  | 7 => some (l.keySlot + l.keyId * 2 ^ 11 + l.keyEntry * 2 ^ 19)
  | 8 => some (unle m.keyIds)
  | 9 => some (l.sessions + l.authFails * 2 ^ 16)
  | 10 => some (l.fallbackCount + l.reshuffles * 2 ^ 16)
  | 11 => some l.ch
  | 12 => some l.rssi
  | _ => none

/-- FLD_CTRL: the tag and reader mode (R538, R561). -/
def Dev.fldCtrl (d : Dev) (v : Nat) : Dev :=
  let d := (d.onField fun l => { l with tagEn := v.testBit 0 }).tagSettle
  if v.testBit 1 == d.field.readerEn then d else d.readerEnable (v.testBit 1)

/-- FLD_KEY_CTRL, at M (R551). -/
def Dev.fldKey (d : Dev) (v : Nat) : Dev :=
  let id := bitsAt v 11 8
  if 254 < id then d.fieldErr 0
  else
    let d := d.fieldKeySet (bitsAt v 0 11) id (bitsAt v 19 1)
    let d := if v.testBit 20 then d.fieldKeyLoad else d
    if v.testBit 21 then d.fieldKeyClear else d
def Dev.fldWrite (d : Dev) (machine : Bool) (i v : Nat) : Dev :=
  match i with
  | 0 => d.fldCtrl v
  | 2 => d.onField fun l => { l with err := clr l.err v }
  | 3 => d.onField fun l => { l with wrAddr := v }
  | 4 => if v.testBit 1 then d.fieldWrite (v.testBit 0) else d
  | 5 => if v.testBit 1 then d.onField fun l => { l with wrDone := false } else d
  | 7 => if machine then d.fldKey v else d
  | 11 => if v % 512 ≤ 400 then d.onField fun l => { l with ch := v % 512 } else d.fieldErr 0
  | _ => d

/-! CPU_ and MPU_ -/

def Core.statusReg (c : Core) : Nat :=
  c.psw.priv.code + b2n c.psw.exm * 4 + b2n c.psw.esc * 8 + b2n c.lockup * 16 + b2n c.waiting * 32 + b2n c.arith.isSome * 64
def Dev.cpuRead (d : Dev) (n i : Nat) : Option Nat :=
  let c := d.core n
  match i with
  | 0 => some c.statusReg
  | 1 => some c.err.toNat
  | 2 => some c.secEvt
  | 3 => some c.irqEn.toNat
  | 4 => some (d.irqLines n)
  | 5 => some c.evEn
  | 6 => some c.eha
  | 7 => some c.escCnt
  | 8 => some (c.lastVec + c.lastCause * 2 ^ 8)
  | _ => none
def Dev.cpuWrite (d : Dev) (n : Nat) (machine : Bool) (i v : Nat) : Dev :=
  d.onCore n fun c =>
    match i with
    | 1 => { c with err := clr c.err v }
    | 2 => if v.testBit 0 then { c with secEvt := 0 } else c
    | 3 => { c with irqEn := lo32 v }
    | 5 => { c with evEn := v &&& 14 }
    | 6 => if machine then { c with eha := v % 2 ^ 24 } else c
    | _ => c

def MpuRegion.attr (r : MpuRegion) : Nat :=
  b2n r.ren + r.space * 2 + r.uperm * 2 ^ 3 + r.sperm * 2 ^ 6 + r.suboff * 2 ^ 16
def Mpu.read (m : Mpu) (i : Nat) : Option Nat :=
  let r := vget m.regions ((i - 16) / 4) {}
  match i with
  | 0 => some (b2n m.en + b2n m.sdef * 2)
  | 1 => some (if m.valid then 1 + m.kind * 2 + m.space * 8 + m.priv * 32 + m.region * 128 + b2n m.multi * 2 ^ 12 else 0)
  | 2 => some m.faddr
  | 3 => some m.err.toNat
  | _ =>
    if i < 16 || 80 ≤ i then none
    else
      match i % 4 with
      | 0 => some r.base
      | 1 => some r.limit
      | 2 => some r.attr
      | _ => none

/-- MPU_CTRL: clearing EN takes the rules out of force at once; setting it starts the four cycles after which they hold, and
looks at the shapes of the enabled regions (R508, R510). -/
def Mpu.ctrl (m : Mpu) (cycles v : Nat) : Mpu :=
  let bad := v.testBit 0 && m.regions.toList.any fun r => r.ren && !r.shaped
  { m with en := v.testBit 0, sdef := v.testBit 1, inForce := m.inForce && v.testBit 0,
           enAt := if v.testBit 0 && !m.en then cycles else m.enAt, err := if bad then setBit m.err 1 else m.err }

/-- A write at M of an MPU_ register (R510, R511). -/
def Mpu.write (m : Mpu) (cycles i v : Nat) : Mpu :=
  let on := fun (f : MpuRegion → MpuRegion) => { m with regions := vupd m.regions ((i - 16) / 4) f }
  match i with
  | 0 => m.ctrl cycles v
  | 1 => if v.testBit 0 then { m with valid := false, kind := 0, space := 0, priv := 0, region := 0, multi := false } else m
  | 3 => { m with err := clr m.err v }
  | _ =>
    if i < 16 || 80 ≤ i then m
    else
      match i % 4 with
      | 0 => on fun r => { r with base := v }
      | 1 => on fun r => { r with limit := v }
      | 2 =>
        if bitsAt v 1 2 = 3 then { m with err := setBit m.err 0 }
        else on fun r => { r with ren := v.testBit 0, space := bitsAt v 1 2, uperm := bitsAt v 3 3, sperm := bitsAt v 6 3, suboff := bitsAt v 16 8 }
      | _ => m
def Dev.mpuWrite (d : Dev) (n i v : Nat) : Dev := d.onCore n fun c => { c with mpu := c.mpu.write c.cycles i v }

/-- The rules are in force from the fourth cycle after the write that set EN (R510). -/
def Dev.mpuSettle (d : Dev) (n : Nat) : Dev :=
  d.onCore n fun c =>
    if c.mpu.en && decide (4 ≤ (c.cycles + (2 ^ 48 - c.mpu.enAt)) % 2 ^ 48) then { c with mpu := { c.mpu with inForce := true } } else c

end Sys2Proof.Machine
end

