-- ==== Sys2Proof/Machine/Power.lean ====
section
/-! DEFINITION. The commands of the power controller: start-up, supplies, custody close, modes and GPIO (R36 to R46, R185,
R213, R217 to R246, R574 to R590). -/
namespace Sys2Proof.Machine

/-- PGOOD rises (R227). -/
def execPgoodRise (s : State) : Host.Outcome State Fault Refusal := s.on Dev.pgoodRise

/-- The reset hold expires; `kat` names the units whose known-answer test fails (R245, R393). -/
def execResetHoldExpiry (kat : Nat) (s : State) : Host.Outcome State Fault Refusal :=
  s.on fun d => let r := d.resetRelease kat; if r.1 then r.2.internalEvent 9 else r.2

/-- The ROM hands over (R518); `rowOk` says that the counter-log row programs (R168). -/
def execRomHandOff (rowOk : Bool) (s : State) : Host.Outcome State Fault Refusal := s.on (Dev.romHandOff · rowOk)

/-- TIME_START_WAIT expires; a measurement in its last cycle is taken first (R156, R172). -/
def execTimeStartWaitExpiry (s : State) : Host.Outcome State Fault Refusal :=
  s.on fun d => match d.time.servo.waitAt with
    | some t => if decide (d.time.servo.dstate = .startWait) && d.past t then d.timeLoadDefault else d
    | none => d

/-- Firmware runs (R227). -/
def execBootDone (s : State) : Host.Outcome State Fault Refusal := s.on Dev.bootFinish

/-- Random output becomes ready (R397). -/
def execRandomOutputReady (s : State) : Host.Outcome State Fault Refusal := s.on Dev.randomStart

/-- The store enters READY (R192). -/
def execStoreScanDone (s : State) : Host.Outcome State Fault Refusal := s.on Dev.storeReady

/-- A step of reconciliation (R45, R46). -/
def execReconcile (s : State) : Host.Outcome State Fault Refusal := s.on Dev.reconcile

/-- The start-up sequence ends (R227). -/
def execStartUpDone (s : State) : Host.Outcome State Fault Refusal := s.on Dev.startUpDone

/-- PGOOD falls (R576). -/
def execPgoodFall (s : State) : Host.Outcome State Fault Refusal := s.on Dev.pgoodFall

/-- The always-on domain loses its supply (R576). -/
def execAonPowerLoss (s : State) : Host.Outcome State Fault Refusal := s.on Dev.aonLoss

/-- PFAIL_N assertion is recognised (R36). -/
def execPfailNAssert (s : State) : Host.Outcome State Fault Refusal := s.on Dev.pfailAssert

/-- PFAIL_N deassertion is recognised (R238). -/
def execPfailNDeassert (s : State) : Host.Outcome State Fault Refusal := s.on Dev.pfailDeassert

/-- PFAIL_N has been deasserted for 10 ms (R238). -/
def execPfailRestartWaitExpiry (s : State) : Host.Outcome State Fault Refusal := s.on Dev.pfailRestart

/-- The flush at the start of a close is complete (R185). -/
def execCloseFlushDone (s : State) : Host.Outcome State Fault Refusal := s.on Dev.flushDone

/-- The flush bound passes (R213). -/
def execCloseFlushExpiry (s : State) : Host.Outcome State Fault Refusal := s.on Dev.flushExpiry

/-- The opening record counts as programmed (R37). -/
def execCloseOpeningProgrammed (s : State) : Host.Outcome State Fault Refusal := s.on Dev.openingProgrammed

/-- A lane in an engine slot seals up to `units` of its owed units (R233). -/
def execSchussEngineSlot (lane units : Nat) (s : State) : Host.Outcome State Fault Refusal :=
  s.on (Dev.schussSlot · lane units)

/-- The seal cutoff; `done` gives each lane's bytes processed (R38). -/
def execSealCutoffExpiry (done : List Nat) (s : State) : Host.Outcome State Fault Refusal := s.on (Dev.sealCutoff · done)

/-- The final snapshot (R113). -/
def execFinalSnapshot (s : State) : Host.Outcome State Fault Refusal := s.on Dev.finalSnapshot

/-- The close record counts as programmed (R37). -/
def execCloseRecordProgrammed (s : State) : Host.Outcome State Fault Refusal := s.on Dev.closeRecorded

/-- The close deadline (R236). -/
def execCloseDeadlineExpiry (s : State) : Host.Outcome State Fault Refusal := s.on Dev.closeDeadline

/-- Close-done (R238). -/
def execCloseDone (s : State) : Host.Outcome State Fault Refusal := s.on Dev.closeFinish

/-- The supervisor runs and may write its registers (R217, R231). -/
def Dev.superRuns (d : Dev) : Bool := d.supply.clocks && d.power.bootDone && decide (d.power.mode ≠ .close)

/-- PWR_CTRL.GO with a REQ code (R221). -/
def execModeRequest (req : Nat) (s : State) : Host.Outcome State Fault Refusal :=
  s.on fun d =>
    if d.superRuns then
      let e := (d.modeRequest req).2
      if (Mode.ofReq (req % 8)).isNone then e.powerErr 0 else e
    else d

/-- A started transition completes (R221). -/
def execModeTransitionDone (s : State) : Host.Outcome State Fault Refusal := s.on Dev.modeDone

/-- PWR_CTRL.SHUTDOWN (R222). -/
def execPwrShutdown (s : State) : Host.Outcome State Fault Refusal := s.on fun d => if d.superRuns then d.shutdown else d

/-- A GPIO level is recognised (R590). -/
def execGpioEdge (line : Nat) (level : Bool) (s : State) : Host.Outcome State Fault Refusal :=
  s.on (Dev.gpioEdge · line level)

/-- Power returns to the always-on domain, from the cell or from VDD_IO (R158). -/
def execAonPowerReturn (cell : Bool) (s : State) : Host.Outcome State Fault Refusal := s.on (Dev.aonReturn · cell)

end Sys2Proof.Machine
end

