-- ==== Sys2Proof/Machine/RegPower.lean ====
section
/-! DEFINITION. The PWR_, MBX_, PCIE_ and ETH_ registers (R246, R277, R278), by byte offset ÷ 4. -/
namespace Sys2Proof.Machine

/-- PWR_STATUS (R246). -/
def Dev.pwrStatus (d : Dev) : Nat :=
  let p := d.power
  p.mode.code + b2n d.supply.field * 2 ^ 3 + b2n d.supply.vbat * 2 ^ 4 + b2n d.supply.vddIo * 2 ^ 5 + b2n p.pfail * 2 ^ 6
    + b2n p.closeDone * 2 ^ 7 + b2n p.safeOff * 2 ^ 8 + b2n p.target.isSome * 2 ^ 9 + d.startCode * 2 ^ 10
    + p.closeCause.code * 2 ^ 13 + d.combsMax * 2 ^ 16 + p.lastStatus * 2 ^ 20

/-- A PWR_ register. -/
def Dev.pwrRead (d : Dev) (i : Nat) : Option Nat :=
  let p := d.power
  match i with
  | 0 => some p.req
  | 1 => some d.pwrStatus
  | 2 => some p.wakeEn.toNat
  | 3 => some p.wakeGpio.toNat
  | 4 => some p.wakeSrc.toNat
  | 5 => some (p.asserts + p.quiet * 2 ^ 16)
  | 6 => some (half 0 p.pfailTime)
  | 7 => some (half 1 p.pfailTime)
  | 8 => some (p.closeStep.code + (if p.closeStep = .none then 0 else d.owedLeft * 2 ^ 4))
  | 9 => some (p.lastDuration + p.lastCause.code * 2 ^ 16 + b2n p.lastValid * 2 ^ 19)
  | 10 => some p.err.toNat
  | 11 => some p.wakePol.toNat
  | _ => none

/-- PWR_CTRL: REQ, then GO and SHUTDOWN (R221, R222); REQ names modes 2 to 5. -/
def Dev.pwrCtrl (d : Dev) (v : Nat) : Dev :=
  let q := v % 8
  let d := if 2 ≤ q && q ≤ 5 then d.onPower fun p => { p with req := q } else d.powerErr 0
  let d := if v.testBit 3 && d.superRuns then (d.modeRequest q).2 else d
  if v.testBit 4 && d.superRuns then d.shutdown else d

/-- A supervisor write of a PWR_ register. -/
def Dev.pwrWrite (d : Dev) (i v : Nat) : Dev :=
  match i with
  | 0 => d.pwrCtrl v
  | 2 => d.onPower fun p => { p with wakeEn := BitVec.ofNat 32 (v % 64) }
  | 3 => d.onPower fun p => { p with wakeGpio := lo32 v }
  | 4 => d.onPower fun p => { p with wakeSrc := clr p.wakeSrc (v &&& 0x107F) }
  | 10 => d.onPower fun p => { p with err := clr p.err v }
  | 11 => d.onPower fun p => { p with wakePol := lo32 v }
  | _ => d

/-- MBX_SESSION of a port with one session (R277). -/
def Dev.mbxSession (d : Dev) (p : Nat) : Nat :=
  let s := d.sess p 0
  let locked := (d.port p).lockAt.isSome
  s.role.code + (if locked then SessSt.locked.code else s.st.code) * 8 + (d.port p).fails * 32

/-- An MBX_ register of P0, P1 or P4. -/
def Dev.mbxRead (d : Dev) (p i : Nat) : Option Nat :=
  let m := (d.port p).mbx
  let n := m.notices
  let on := p != 4
  let s := (i - 4) / 4
  let slot := d.slot p s
  match i with
  | 0 => some 0
  | 1 => some (d.mbxSession p)
  | 2 => some m.err.toNat
  | 3 => some (if on then m.vecSlot + m.vecNotice * 2 ^ 16 else 0)
  | 20 => some (if on then half 0 n.base else 0)
  | 21 => some (if on then half 1 n.base else 0)
  | 22 => some ((if on then n.size else 0) + b2n n.en * 16 + n.classes * 256)
  | 23 => some n.tail
  | 24 => some n.head
  | 25 => some n.lost
  | 26 => some (half 0 (d.sess p 0).id)
  | 27 => some (half 1 (d.sess p 0).id)
  | _ =>
    if 4 ≤ i && i < 20 && (on || s == 0) then
      some (match i % 4 with
        | 1 => slot.st.code + slot.respLen * 2 ^ 3 + slot.status * 2 ^ 18
        | 2 => slot.tag
        | _ => 0)
    else none

/-- Change the notice channel of a port. -/
def Dev.onNotices (d : Dev) (p : Nat) (f : Notices → Notices) : Dev := d.onMbx p fun m => { m with notices := f m.notices }

/-- MBX_NTC_CFG: the size is locked while EN = 1 (R277). -/
def Dev.noticeCfg (d : Dev) (p v : Nat) : Dev :=
  let n := (d.port p).mbx.notices
  let size := v % 16
  let d := d.onNotices p fun n => { n with en := v.testBit 4 }
  if p = 4 || n.en || size = n.size then d
  else if 4 ≤ size && size ≤ 10 then d.onNotices p fun n => { n with size := size }
  else d.mbxErr p 6

/-- A write of an MBX_ register by its port or by the supervisor. -/
def Dev.mbxWrite (d : Dev) (p i v : Nat) : Dev :=
  let s := (i - 4) / 4
  match i with
  | 0 => if v.testBit 0 then d.endSession p 0 else d
  | 2 => d.onMbx p fun m => { m with err := clr m.err v }
  | 3 => d.onMbx p fun m => { m with vecSlot := bitsAt v 0 11, vecNotice := bitsAt v 16 11 }
  | 20 => d.onNotices p fun n => { n with base := n.base / 2 ^ 32 * 2 ^ 32 + v / 4096 * 4096 }
  | 21 => d.onNotices p fun n => { n with base := n.base % 2 ^ 32 + v * 2 ^ 32 }
  | 22 => d.noticeCfg p v
  | 24 => d.noticeHead p v
  | 25 => if v.testBit 0 then d.onNotices p fun n => { n with lost := 0 } else d
  | _ =>
    if 4 ≤ i && i < 20 && (p != 4 || s == 0) then
      match i % 4 with
      | 0 => if v.testBit 31 then d.doorbell p s (bitsAt v 0 15) (bitsAt v 15 16) else d
      | 1 => if v.testBit 2 then d.slotAck p s else d
      | _ => d
    else d

/-- MBX_CHAL_TIME, MBX_LOCKOUT and MBX_IDLE (R277). -/
def Dev.mbxTime (d : Dev) (i : Nat) : Option Nat :=
  match i with | 0 => some d.portsCfg.chalTime | 1 => some d.portsCfg.lockout | 2 => some d.portsCfg.idle | _ => none
def Dev.mbxRange (d : Dev) : Dev := d.each [0, 1, 4] fun d p => d.mbxErr p 6
def Dev.mbxTimeWrite (d : Dev) (i v : Nat) : Dev :=
  let put := fun (ok : Bool) (f : PortsCfg → PortsCfg) => if ok then { d with portsCfg := f d.portsCfg } else d.mbxRange
  match i with
  | 0 => put (decide (1 ≤ v % 65536) && decide (v % 65536 ≤ 60)) fun c => { c with chalTime := v % 65536 }
  | 1 => put (decide (10 ≤ v % 65536) && decide (v % 65536 ≤ 3600)) fun c => { c with lockout := v % 65536 }
  | 2 =>
    let s := v % 131072
    put (s == 0 || (decide (10 ≤ s) && decide (s ≤ 86400))) fun c => { c with idle := s }
  | _ => d

/-- PCIE_ registers of P0 or P1, and ETH_ registers of P2 or P3 (R278). -/
def Dev.pcieRead (d : Dev) (p i : Nat) : Option Nat :=
  let q := (d.port p).pcie
  match i with
  | 0 => some (q.rate + q.width * 2 ^ 3 + b2n q.d3hot * 2 ^ 7 + b2n (d.ringsPaused p) * 2 ^ 8)
  | 1 => some q.linkDown
  | _ => none
def Dev.ethRead (d : Dev) (p i : Nat) : Option Nat :=
  let e := (d.port p).eth
  match i with
  | 0 => some (e.ifReg + ((List.range 8).countP fun k => (d.sess p k).st == .active) * 2 ^ 5)
  | 1 => some (e.latTx + e.latRx * 2 ^ 16)
  | 2 => some e.drop
  | 3 => some e.reasm
  | 4 => some e.retx
  | _ => none
def Dev.ethWrite (d : Dev) (p i v : Nat) : Dev :=
  let r := v % 1024
  let x := v % 16384
  match i with
  | 1 => d.onEth p fun e => { e with latTx := v % 65536, latRx := bitsAt v 16 16 }
  | 2 => if v.testBit 0 then d.onEth p fun e => { e with drop := 0 } else d
  | 3 => if 10 ≤ r && r ≤ 1000 then d.onEth p fun e => { e with reasm := r } else d.mbxRange
  | 4 => if 10 ≤ x && x ≤ 10000 then d.onEth p fun e => { e with retx := x } else d.mbxRange
  | _ => d

end Sys2Proof.Machine
end

