-- ==== Sys2Proof/Machine/IoSpace.lean ====
section
/-! DEFINITION. Where every register block stands: in each core's IO-space (R95), in BAR0 of P0 and P1 (R261) and in the P4
window (R274), who reaches it, and what a read or a write of it does. -/
namespace Sys2Proof.Machine

/-- The register blocks. -/
inductive Blk where
  | lane (n : Nat) | comb (c : Nat) | arb | wag | hive | ecap (c : Nat) | time | stor | stg | storBlk | pwr | mbx (p : Nat)
  | mbxTime | pcie (p : Nat) | eth (p : Nat) | pk | key | rng | tmp | log | lc | dbg | cpuOf (c : Nat) | cfl | fld
  | ep | pkOwn | keyOwn | rngOwn | cpu | mpu
  deriving DecidableEq, Repr

/-- A run of like blocks: `n` of them, `w` words apart. -/
def inRun (a base n w : Nat) : Option (Nat × Nat) :=
  if base ≤ a && a < base + n * w then some ((a - base) / w, (a - base) % w) else none

/-- The block at an IO-space address and the register's number in it (R95). -/
def ioDecode (a : Nat) : Option (Blk × Nat) :=
  let run := fun (base n w : Nat) (f : Nat → Blk) => (inRun a base n w).map fun r => (f r.1, r.2)
  let one := fun (base w : Nat) (b : Blk) => run base 1 w fun _ => b
  [one 0x07000 8 .ep, one 0x07100 16 .pkOwn, one 0x07200 64 .keyOwn, one 0x07300 16 .rngOwn, one 0x07400 16 .cpu, one 0x07500 80 .mpu,
    run 0x40000 64 256 .lane, run 0x44000 8 16 .comb, one 0x44100 16 .arb, one 0x45000 16 .wag, one 0x45400 64 .hive,
    run 0x45800 8 16 .ecap, one 0x46000 64 .time, one 0x47000 32 .stor, one 0x47400 32 .stg, one 0x48000 16384 .storBlk,
    one 0x4C000 16 .pwr, run 0x4D000 5 64 .mbx, one 0x4D180 3 .mbxTime, run 0x4D200 2 16 .pcie, run 0x4E000 2 32 (fun k => .eth (k + 2)),
    one 0x4F000 32 .pk, one 0x50000 64 .key, one 0x51000 160 .rng, one 0x52000 48 .tmp, one 0x53000 16 .log, one 0x54000 32 .lc,
    one 0x54400 8 .dbg, run 0x55000 8 16 .cpuOf, one 0x56000 16 .cfl, one 0x57000 16 .fld].findSome? id

/-- The lane or comb of the block is on the part; the registers of an absent one read zero and ignore writes (R1). -/
def Dev.hasBlk (d : Dev) : Blk → Bool
  | .lane n => decide (n < d.nLanes)
  | .comb c | .ecap c | .cpuOf c => decide (c < d.nCombs)
  | _ => true

/-- P2 and P3 have no MBX_ block (R277). -/
def Blk.listed : Blk → Bool
  | .mbx p => p == 0 || p == 1 || p == 4
  | _ => true

/-- A core at M or S reaches the block; the supervisor is core 0, comb controller c core 1 + c (R96, R123, R173, R214, R246,
R277, R356, R385, R400, R423, R437, R457, R511, R536, R565). -/
def Blk.reaches (b : Blk) (n : Nat) : Bool :=
  match b with
  | .lane l => n == 0 || n == 1 + l / 8
  | .comb c | .ecap c => n == 0 || n == 1 + c
  | .ep | .pkOwn | .keyOwn | .rngOwn => decide (0 < n)
  | .cpu | .mpu => true
  | .time => true
  | _ => n == 0

/-- What a register reads as for a core at M or S; the debug port reads as the core it names. -/
def Dev.blkRead (d : Dev) (who : Requester) (n : Nat) (machine : Bool) (b : Blk) (i : Nat) : Option Nat :=
  if !d.hasBlk b then none
  else match b with
  | .lane l => d.laneRead l i machine
  | .comb c => d.combRead c i
  | .arb => d.arbRead i
  | .wag => d.wagRead i
  | .hive => d.hiveRead i
  | .ecap c => d.ecapRead c i
  | .time => d.timeRead who i
  | .stor => d.storRead i
  | .stg => d.stgRead i
  | .storBlk => if i < d.variant.blocks then some (d.storBlk i) else none
  | .pwr => d.pwrRead i
  | .mbx p => d.mbxRead p i
  | .mbxTime => d.mbxTime i
  | .pcie p => d.pcieRead p i
  | .eth p => d.ethRead p i
  | .pk => d.pkRead i
  | .key => d.keyRead i
  | .rng => d.rngRead i
  | .tmp => d.tmpRead i
  | .log => d.logRead who i
  | .lc => d.lcRead i
  | .dbg => d.dbgRead i
  | .cpuOf c => if i < 2 then d.cpuRead (1 + c) i else none
  | .cfl => d.cflRead i
  | .fld => d.fldRead i
  | .ep => d.epRead (n - 1) i
  | .pkOwn => d.pkQueueRead n i
  | .keyOwn => d.keyOwn n i
  | .rngOwn => d.instRead n i
  | .cpu => d.cpuRead n i
  | .mpu => (d.core n).mpu.read i

/-- What reading a register does besides (R81, R174, R214, R437). -/
def Dev.blkTouch (d : Dev) (who : Requester) (b : Blk) (i : Nat) : Dev :=
  if !d.hasBlk b then d
  else match b with
  | .lane l => d.laneLatch l i
  | .time => d.latchPair who (4 * i)
  | .stor => if i = 18 && who = .supervisor then d.trigPop else d
  | .log => d.logLatch who i
  | _ => d

/-- A write of a register by a core at M or S; none is a bus error (R510, R536). -/
def Dev.blkWrite (d : Dev) (n : Nat) (machine : Bool) (b : Blk) (i v : Nat) : Option Dev :=
  if !d.hasBlk b then some d
  else match b with
  | .lane l => some (d.laneWrite l i v)
  | .comb c => some (d.combRegWrite c i v)
  | .arb => some (d.arbWrite i v)
  | .wag => some (d.wagWrite machine i v)
  | .hive => some (d.hiveWrite i v)
  | .time => if n = 0 then some (d.timeWrite machine i v) else none
  | .stor => some (d.storWrite i v)
  | .stg => some (d.stgWrite i v)
  | .pwr => some (d.pwrWrite i v)
  | .mbx p => some (d.mbxWrite p i v)
  | .mbxTime => some (if machine then d.mbxTimeWrite i v else d)
  | .eth p => some (d.ethWrite p i v)
  | .pk => some (d.pkWrite i v)
  | .key => some (d.keyRegWrite machine i v)
  | .rng => some (d.rngWrite i v)
  | .tmp => some (d.tmpWrite machine i v)
  | .log => some (d.logWrite i v)
  | .lc => some (d.lcWrite i v)
  | .dbg => some (d.dbgWrite machine i v)
  | .cpuOf c => some (if i = 1 then d.cpuWrite (1 + c) machine 1 v else d)
  | .cfl => if machine then some (d.cflWrite i v) else none
  | .fld => some (d.fldWrite machine i v)
  | .ep => some (d.epWrite (n - 1) i v)
  | .pkOwn => some (d.pkQueueWrite n i v)
  | .keyOwn => some (d.keyOwnWrite n i v)
  | .rngOwn => some (d.instWrite n i v)
  | .cpu => some (d.cpuWrite n machine i v)
  | .mpu => if machine then some (d.mpuWrite n i v) else none
  | .ecap _ | .storBlk | .pcie _ => some d

/-- The offsets of a block where a core gets a bus error: those that a comb controller's own PK_ and KEY_ registers lack, and
the TIME_ registers that it does not read (R173, R356, R385). -/
def Blk.absent (b : Blk) (n i : Nat) : Bool :=
  match b with
  | .pkOwn => decide (i < 5) || decide (12 < i)
  | .keyOwn => !(decide (i < 7) || i == 13 || (decide (16 ≤ i) && decide (i < 32)))
  | .rngOwn => decide (12 ≤ i)
  | .time => decide (0 < n) && !(i == 1 || i == 2 || i == 3)
  | .cpuOf _ => decide (2 ≤ i)
  | _ => false

/-- The block and register of an access by a core at a privilege, if it is reached: no block serves U (R96 and each block's
rule). -/
def Dev.ioPlace (_d : Dev) (n : Nat) (priv : Priv) (a : Nat) : Option (Blk × Nat) :=
  match ioDecode a with
  | some (b, i) => if priv = .user || !b.reaches n || !b.listed || b.absent n i then none else some (b, i)
  | none => none

/-- An IO-space read: the value and the device after it; none is a bus error. An unlisted register reads zero (R6). -/
def Dev.ioRead (d : Dev) (n : Nat) (priv : Priv) (a : Nat) : Option (Nat × Dev) :=
  let who := if n = 0 then Requester.supervisor else .comb (n - 1)
  (d.ioPlace n priv a).map fun p =>
    let d := d.blkTouch who p.1 p.2
    ((d.blkRead who n (priv == .machine) p.1 p.2).getD 0 % 2 ^ 32, d)

/-- An IO-space write of the low 32 bits of a word; none is a bus error. -/
def Dev.ioWrite (d : Dev) (n : Nat) (priv : Priv) (a v : Nat) : Option Dev :=
  match d.ioPlace n priv a with
  | some (b, i) => d.blkWrite n (priv == .machine) b i (v % 2 ^ 32)
  | none => none

/-! BAR0 (R261). -/

/-- The block at a byte offset of a port's BAR0, and the register's number. -/
def barDecode (p a : Nat) : Option (Blk × Nat) :=
  let run := fun (base n w : Nat) (f : Nat → Blk) => (inRun a base n w).map fun r => (f r.1, r.2 / 4)
  let one := fun (base w : Nat) (b : Blk) => run base 1 w fun _ => b
  [one 0x0 256 (.pcie p), one 0x10000 256 (.mbx p), run 0x400000 64 4096 .lane, run 0x440000 8 256 .comb, one 0x441000 4096 .arb,
    one 0x451000 4096 .hive, one 0x460000 65536 .time, one 0x470000 4096 .stor, one 0x471000 4096 .stg, one 0x480000 65536 .storBlk,
    one 0x490000 65536 .pwr, run 0x4A0000 2 128 (fun k => .eth (k + 2)), one 0x4B0000 65536 .pk, one 0x4C0000 65536 .key,
    one 0x4D0000 65536 .rng, one 0x4E0000 65536 .tmp, one 0x4F0000 65536 .log, one 0x500000 65536 .lc, one 0x510000 65536 .cfl,
    one 0x520000 65536 .fld].findSome? id

/-- What a host port reads in a block: as listed, KEY_ in its host view (R385). -/
def Dev.hostRead (d : Dev) (p : Nat) (b : Blk) (i : Nat) : Nat :=
  match b with
  | .key => (d.keyShown i).getD 0
  | _ => (d.blkRead (.port p) 0 false b i).getD 0

/-- Host writes reach the port's own MBX_ block and the rings that it owns; every other one is ignored (R96, R261, R277). -/
def Dev.hostWrite (d : Dev) (p : Nat) (b : Blk) (i v : Nat) : Dev :=
  match b with
  | .mbx q => d.mbxWrite q i v
  | .lane n => if n < d.nLanes then d.laneHostWrite p n i v else d
  | _ => d

/-- A byte of a mailbox window is written; the request window of a slot that is not IDLE is locked, and a response window
ignores writes (R255). -/
def Dev.windowByte (d : Dev) (p s off : Nat) (v : Byte) : Dev :=
  if (d.slot p s).st ≠ .idle then d.mbxErr p 1 else d.putWindow p (reqWindow p s + off) [v]
def Dev.barWindow (d : Dev) (p off : Nat) (v : Byte) : Dev :=
  if off % 0x8000 < 0x4000 then d.windowByte p (off / 0x8000) (off % 0x8000) v else d

/-- A byte of the bulk window: 48-bit words in 8-byte slots, of which bytes 6 and 7 ignore writes (R4, R261). -/
def Dev.bulkByte (d : Dev) (p off : Nat) (v : Byte) : Dev :=
  if 6 ≤ off % 8 || 131072 ≤ off then d
  else d.onSess p 0 fun s =>
    let w := (spGet (fun _ => 0#48) s.buf (off / 8)).toNat
    let k := 8 * (off % 8)
    let new := w % 2 ^ k + v.toNat * 2 ^ k + w / 2 ^ (k + 8) * 2 ^ (k + 8)
    { s with buf := spSet (fun _ => 0#48) s.buf (off / 8) (BitVec.ofNat 48 new) }

/-- The byte at an offset of the bulk window: bytes 6 and 7 of a slot read zero (R4, R261). -/
def Dev.bulkAt (d : Dev) (p off : Nat) : Byte :=
  if 6 ≤ off % 8 || 131072 ≤ off then 0#8
  else BitVec.ofNat 8 ((spGet (fun _ => 0#48) (d.sess p 0).buf (off / 8)).toNat / 2 ^ (8 * (off % 8)))

/-- A write of an MSI-X table dword: clearing a vector's mask bit sends the message that was pending (R261). -/
def Dev.msixWrite (d : Dev) (p i v : Nat) : Dev :=
  let d := d.onPort p fun q => { q with pcie := { q.pcie with msix := spSet (fun _ => 0#32) q.pcie.msix i (lo32 v) } }
  let n := i / 4
  let w := spGet (fun _ => 0#32) (d.port p).pcie.pba (n / 32)
  if i % 4 = 3 && !v.testBit 0 && flag w (n % 32) then
    (d.onPort p fun q =>
      { q with pcie := { q.pcie with pba := spSet (fun _ => 0#32) q.pcie.pba (n / 32) (clrBit w (n % 32)) } }).send (.msix p n)
  else d

/-- What a port's PCIe configuration space names it by: its Device ID and its class code (R261). -/
def Dev.pcieIdentity (d : Dev) : Nat × Nat := (match d.variant with | .vtz8064 => 0x8064 | .vtz8032 => 0x8032, 0x108000)

/-- A host's memory read of `width` bytes from a BAR of P0 or P1: registers answer aligned 32-bit reads only, and any other read
of them with zeros (R3, R4, R261). -/
def Dev.barRead (d : Dev) (p bar a width : Nat) : List Byte :=
  let word := fun (v : Nat) => if width = 4 ∧ a % 4 = 0 then le 4 v else zeros width
  match bar with
  | 0 =>
    if 0x100000 ≤ a && a < 0x120000 then (List.range width).map fun k => spGet zeroByte (d.port p).mbx.win (a - 0x100000 + k)
    else word (match barDecode p a with | some (b, i) => d.hostRead p b i | none => 0)
  | 2 =>
    let q := (d.port p).pcie
    word (if a < 0x8000 then (spGet (fun _ => 0#32) q.msix (a / 4)).toNat
      else if a < 0x8100 then (spGet (fun _ => 0#32) q.pba ((a - 0x8000) / 4)).toNat else 0)
  | 4 => (List.range width).map fun k => d.bulkAt p (a + k)
  | _ => zeros width

/-- A host's memory write of `width` bytes into a BAR of P0 or P1: registers take aligned 32-bit writes only (R3), windows any.
BAR2 is the MSI-X table. -/
def Dev.barWrite (d : Dev) (p bar a width v : Nat) : Dev :=
  let bytes := (le 4 v).take width
  let each := fun (f : Dev → Nat → Byte → Dev) => d.each (List.range bytes.length) fun d k => f d k (bytes.getD k 0#8)
  match bar with
  | 0 =>
    if 0x100000 ≤ a && a < 0x120000 then each fun d k b => d.barWindow p (a - 0x100000 + k) b
    else if width ≠ 4 || a % 4 ≠ 0 then d
    else
      match barDecode p a with
      | some (b, i) => d.hostWrite p b i v
      | none => d
  | 2 =>
    if width = 4 && a % 4 = 0 && a < 32768 then d.msixWrite p (a / 4) v else d
  | 4 => each fun d k b => d.bulkByte p (a + k) b
  | _ => d

/-! The P4 window (R274, R275). -/

/-- A write transaction on P4: whole aligned registers, and bytes of the request window. -/
def Dev.mgtPut (d : Dev) (a : Nat) : List Byte → Dev
  | [] => d
  | b :: rest =>
    let d :=
      if a < 256 then
        if a % 4 = 0 && 3 ≤ rest.length then d.mbxWrite 4 (a / 4) (unle (b :: rest.take 3)) else d
      else if 0x1000 ≤ a && a < 0x2000 then d.windowByte 4 0 (a - 0x1000) b
      else d
    d.mgtPut (a + 1) rest

/-- The byte at an address of the P4 window, in a transaction of the addresses `lo` to `hi`, `hi` not included. -/
def Dev.mgtByte (d : Dev) (lo hi a : Nat) : Byte :=
  let r := a / 4 * 4
  if a < 256 then
    if lo ≤ r && r + 4 ≤ hi then BitVec.ofNat 8 ((d.mbxRead 4 (a / 4)).getD 0 / 2 ^ (8 * (a % 4))) else 0#8
  else if 0x1000 ≤ a && a < 0x4000 then spGet zeroByte (d.port 4).mbx.win a
  else 0#8
def Dev.mgtGet (d : Dev) (lo len : Nat) : List Byte := (List.range len).map fun k => d.mgtByte lo (lo + len) (lo + k)

end Sys2Proof.Machine
end

