-- ==== Sys2Proof/Machine/CpuMem.lean ====
section
/-! DEFINITION. The memory instructions (R460 to R465, R468). -/
namespace Sys2Proof.Machine

/-- An access of an instruction: the address lies in the space, and the MPU allows it (R461, R490, R507). -/
def Dev.reach (d : Dev) (n space kind : Nat) (ea : W48) (go : Dev → Nat → Dev) : Dev :=
  if spaceWords space ≤ ea.toNat then d.raise n (busError 1 space kind ea.toNat)
  else
    match d.mpuCheck n (d.core n).psw.priv space kind ea.toNat with
    | some r => r.1.raise n r.2
    | none => go d ea.toNat

/-- The core's mismatch of a word it has read (R409). -/
def Dev.wordBad (d : Dev) (n space addr : Nat) : Dev := (d.internalEvent 8).raise n (busError 2 space 0 addr)

/-- A load ends: the base is written back, then the destination is written, which wins (R462). -/
def Dev.loaded (d : Dev) (n : Nat) (f : FormM) (put : Core → Core) : Dev :=
  (d.onCore n fun c => put (c.writeBack f (c.address f).2)).complete n

/-- LD and LDA (R462, R468). -/
def Dev.load (d : Dev) (u : Issue) (f : FormM) (bad : Bool) (put : Core → W48 → Core) : Dev :=
  d.issue u
    { undef := f.undef
      resv := bad
      late := modeLate f true
      run := fun d => d.reach u.core 1 0 ((d.core u.core).address f).1 fun d a =>
        if !inDspace u.core a then d.raise u.core (busError 3 1 0 a)
        else if !u.dataCode then d.wordBad u.core 1 a
        else d.loaded u.core f fun c => put c (spGet (fun _ => 0#48) c.dmem a) }

/-- ST and STA (R462, R468). -/
def Dev.store_ (d : Dev) (u : Issue) (f : FormM) (bad : Bool) (val : Core → W48) : Dev :=
  d.issue u
    { undef := f.undef
      resv := bad
      late := modeLate f true
      run := fun d => d.reach u.core 1 1 ((d.core u.core).address f).1 fun d a =>
        if !inDspace u.core a then d.raise u.core (busError 3 1 1 a)
        else (d.onCore u.core fun c =>
          { c.writeBack f (c.address f).2 with dmem := spSet (fun _ => 0#48) c.dmem a (val c) }).complete u.core }

/-- LD (R468). -/
def execCpuLd (u : Issue) (f : FormM) (s : State) : Host.Outcome State Fault Refusal :=
  s.on fun d => d.load u f false fun c v => c.setD f.rt v

/-- ST (R468). -/
def execCpuSt (u : Issue) (f : FormM) (s : State) : Host.Outcome State Fault Refusal :=
  s.on fun d => d.store_ u f false fun c => c.dreg f.rt

/-- LDA (R468). -/
def execCpuLda (u : Issue) (f : FormM) (s : State) : Host.Outcome State Fault Refusal :=
  s.on fun d => d.load u f (badA f.rt) fun c v => c.setA f.rt.toNat v

/-- STA (R468). -/
def execCpuSta (u : Issue) (f : FormM) (s : State) : Host.Outcome State Fault Refusal :=
  s.on fun d => d.store_ u f (badA f.rt) fun c => c.areg f.rt.toNat

/-- IN: a refusal by the block is a bus error (R468, R489). -/
def execCpuIn (u : Issue) (f : FormM) (s : State) : Host.Outcome State Fault Refusal :=
  s.on fun d => d.issue u
    { undef := f.undef
      late := modeLate f false
      run := fun d => d.reach u.core 2 0 ((d.core u.core).address f).1 fun d a =>
        match d.ioRead u.core (d.core u.core).psw.priv a with
        | none => d.raise u.core (busError 3 2 0 a)
        | some r => if !u.dataCode then d.wordBad u.core 2 a
          else r.2.loaded u.core f fun c => c.setD f.rt (BitVec.ofNat 48 r.1) }

/-- The write has restarted the device, and with it the core (R238). -/
def Dev.restarted (d d' : Dev) : Bool := d'.power.startStep == .reset && d.power.startStep != .reset

/-- OUT: every earlier store of the core is visible by then, as each step completes its access (R468, R482). -/
def execCpuOut (u : Issue) (f : FormM) (s : State) : Host.Outcome State Fault Refusal :=
  s.on fun d => d.issue u
    { undef := f.undef
      late := modeLate f false
      run := fun d => d.reach u.core 2 1 ((d.core u.core).address f).1 fun d a =>
        let c := d.core u.core
        match d.ioWrite u.core c.psw.priv a (c.dreg f.rt).toNat with
        | none => d.raise u.core (busError 3 2 1 a)
        | some d' =>
          if d.restarted d' then d'
          else (d'.onCore u.core fun k => k.writeBack f (c.address f).2).complete u.core }

/-- A word of a code flash bank as ILD reads it: one of the production image, or of a spoilt row, is a free value. -/
def Dev.bankWord (d : Dev) (b off : Nat) : W48 × Dev :=
  let r := d.flashRow b (off / 8 * 8)
  (r.1.getD (off % 8) 0#48, r.2)

/-- A word of a core's I-space; the boot ROM's words are free values (R465, R514). -/
def Dev.ispaceWord (d : Dev) (n a : Nat) : W48 × Dev :=
  if n ≠ 0 || 0x400000 ≤ a then (spGet (fun _ => 0#48) (d.core n).imem a, d)
  else if a < 0x4000 && !d.flash.romOff then
    let r := d.free
    (BitVec.ofNat 48 r.1, r.2)
  else if a < 0x200000 then d.bankWord d.flash.runBank a
  else d.bankWord d.flash.staging (a - 0x200000)

/-- ILD (R468, R514). -/
def execCpuIld (u : Issue) (f : FormM) (s : State) : Host.Outcome State Fault Refusal :=
  s.on fun d => d.issue u
    { undef := f.undef
      late := modeLate f false
      run := fun d => d.reach u.core 0 0 ((d.core u.core).address f).1 fun d a =>
        match d.ispaceRead u.core 0 a u.dataCode with
        | .stall d => d
        | .fault d e => d.raise u.core e
        | .ok d =>
          let r := d.ispaceWord u.core a
          r.2.loaded u.core f fun c => c.setD f.rt r.1 }

/-- The I-space words that IST writes: a comb controller's instruction memory, the supervisor's instruction RAM (R330, R514). -/
def writableIspace (n a : Nat) : Bool :=
  if n = 0 then decide (0x400000 ≤ a) && decide (a < 0x404000) else decide (a < 262144)

/-- IST: to a word that code flash backs, FLASH_WRITE (R465, R514). -/
def execCpuIst (u : Issue) (f : FormM) (s : State) : Host.Outcome State Fault Refusal :=
  s.on fun d => d.issue u
    { undef := f.undef
      late := modeLate f false
      priv := .supervisor
      run := fun d => d.reach u.core 0 1 ((d.core u.core).address f).1 fun d a =>
        if writableIspace u.core a then
          (d.onCore u.core fun c =>
            { c.writeBack f (c.address f).2 with imem := spSet (fun _ => 0#48) c.imem a (c.dreg f.rt) }).complete u.core
        else d.raise u.core (busError (if u.core = 0 && a < 0x400000 then 5 else 3) 0 1 a) }

end Sys2Proof.Machine
end

