-- ==== Sys2Proof/Machine/EventLog.lean ====
section
/-! DEFINITION. The commands of the event recorder (R424 to R437). -/
namespace Sys2Proof.Machine

/-- LOG_FLUSH elapses (R428, R436). -/
def execLogFlushExpiry (s : State) : Host.Outcome State Fault Refusal := s.on Dev.logFlushExpiry

/-- The page stands in the log's open store block (R203), or that block retires and another takes its place; records in it stay in the
log (R205; log entry 78). -/
def Dev.logBlockPage (d : Dev) (b : Nat) (rs : List LogRec) (ok : Bool) : Dev :=
  if ok then
    d.onBlk b fun k =>
      { k with erased := false, pages := k.pages ++ [fitBytes pageBytes (rs.flatMap LogRec.bytes)], next := k.next + 1, readable := k.readable + 1 }
  else
    let nb := (d.replacement .eventLog).getD b
    let d := (d.storeErr 2).retireBlock b 2
    { d with log := { d.log with phys := nb :: d.log.phys.drop 1, openPages := 0 } }

/-- A log page counts as programmed, or fails; a LOG_CLEAR that waits for its record completes. While its die programs another page it
does neither, nor while the log is frozen but for the record of a LOG_CLEAR (R202, R323, R428, R433). -/
def execLogPageProgrammed (ok : Bool) (s : State) : Host.Outcome State Fault Refusal :=
  s.on fun d =>
    match d.log.current with
    | none => d
    | some (_, rs) =>
      if d.dieTaken d.log.openPages || (d.log.frozen && d.log.clearIdx.isNone) then d
      else
        let e := (d.logPageDone ok).logBlockPage (d.log.physOf 0) rs ok
        match d.log.clearIdx, e.log.clearIdx with
        | some i, none => e.finish (.logRec i) id
        | _, _ => e

/-- The log block whose erase is under way. A freeze reclaims none, and a READ that pins the block holds it up (R202, R431, R433,
R434). -/
def Dev.logErasing (d : Dev) : Option Nat :=
  let b := d.log.physOf (d.log.blocks.length - 1)
  if (0 < d.log.clearErase || d.log.erasing) && !(d.log.frozen || decide (0 < (d.blk b).readPins) || d.eraseSuspended) then some b else none

/-- A log block fails its erase: it retires, and the erased block that takes its place stands for it (R205). -/
def Dev.logEraseFails (d : Dev) (b : Nat) : Dev :=
  let nb := (d.replacement .eventLog).getD b
  let d := (d.storeErr 3).retireBlock b 1
  ({ d with log := { d.log with phys := d.log.phys.map fun p => if p = b then nb else p } } : Dev).logBlockErased

/-- STORE_ERASE_DONE: a block's erase ends; a log block's, where it fails (R202, R204, R205). -/
def Dev.eraseEnds (d : Dev) (b : Nat) (ok : Bool) : Dev :=
  if d.logErasing = some b && !ok then d.logEraseFails b else d.eraseDone b ok

/-- A log block's erase ends, and counts for its store block (R204, R431, R434). -/
def execLogBlockEraseDone (s : State) : Host.Outcome State Fault Refusal :=
  s.on fun d =>
    match d.logErasing with
    | none => d
    | some b => d.logBlockErased.eraseCounted b .eventLog true

/-- LOG_SW_TYPE.GO with a type code (R435). -/
def execLogSwGo (typ : Nat) (s : State) : Host.Outcome State Fault Refusal :=
  s.on fun d => d.byCore fun d => d.logSw (typ % 1024)

end Sys2Proof.Machine
end

