-- ==== Sys2Proof/Machine/Lanes.lean ====
section
/-! DEFINITION. The commands of the sealing lanes and their combs (R50 to R97). -/
namespace Sys2Proof.Machine

/-- A host write of RING_INx_TAIL or RING_CMPx_HEAD from a port (R64, R65). -/
def execRingInDoorbell (port lane ring value : Nat) (s : State) : Host.Outcome State Fault Refusal :=
  s.on fun d => d.clocked fun d => d.ringTail port lane ring value
def execRingCmpHeadWrite (port lane ring value : Nat) (s : State) : Host.Outcome State Fault Refusal :=
  s.on fun d => d.clocked fun d => d.cmpHeadWrite port lane ring value

/-- The lane reads its next descriptor, of any type but VERIFY_ELEMENT: the bytes are what the read returned, unless it
failed (R54, R56). -/
def execSealUnit (lane ctx : Nat) (bytes : List Byte) (ok : Bool) (s : State) : Host.Outcome State Fault Refusal :=
  s.on fun d => if ok && numAt bytes 0 1 = 2 then d else d.readDesc lane ctx bytes ok

/-- The lane reads a VERIFY_ELEMENT descriptor (R54, R56, R76). -/
def execVerifyElement (lane ctx : Nat) (bytes : List Byte) (ok : Bool) (s : State) : Host.Outcome State Fault Refusal :=
  s.on fun d => if ok && numAt bytes 0 1 != 2 then d else d.readDesc lane ctx bytes ok

/-- The context-0 unit, or verify job, is parked after `done` bytes (R80, R81). -/
def execUnitSuspend (lane done : Nat) (s : State) : Host.Outcome State Fault Refusal :=
  s.on fun d => d.suspend lane done

/-- A verify job ends; the bytes are the element's, as its reads returned them (R76, R77, R79). -/
def execVerifyComplete (lane ctx : Nat) (data : List Byte) (ok : Bool) (s : State) : Host.Outcome State Fault Refusal :=
  s.on fun d => d.verifyComplete lane ctx data ok

/-- The parked unit is restored; a CRC mismatch is a word-code fault (R82). -/
def execUnitResume (lane : Nat) (crcOk : Bool) (s : State) : Host.Outcome State Fault Refusal :=
  s.on fun d => let r := d.resume lane crcOk; if r.1 then r.2.internalEvent 8 else r.2

/-- SUSP_MAX has passed (R94). -/
def execSuspMaxExpiry (lane : Nat) (s : State) : Host.Outcome State Fault Refusal := s.on (Dev.suspExpiry · lane)

/-- A payload fetch starts, and is judged; a request of it may time out (R53, R57, R86). -/
def execPayloadFetchStart (lane : Nat) (s : State) : Host.Outcome State Fault Refusal := s.on (Dev.fetchStart · lane)
def execPayloadFetchDone (lane : Nat) (data : List Byte) (ok : Bool) (s : State) : Host.Outcome State Fault Refusal :=
  s.on fun d => d.fetchDone lane data ok
def execPcieCompletionTimeout (lane ctx : Nat) (s : State) : Host.Outcome State Fault Refusal :=
  s.on fun d => d.fetchTimeout lane ctx

/-- A resident unit is accepted (R14 to R17). -/
def execUnitAccept (lane : Nat) (s : State) : Host.Outcome State Fault Refusal := s.on (Dev.accept · lane)

/-- The engine starts a unit, forms its tag, and the chain unit appends its segment (R69, R71 to R74). -/
def execEngineStart (lane : Nat) (s : State) : Host.Outcome State Fault Refusal := s.on (Dev.engineStart · lane)
def execGcmTagFormed (lane : Nat) (s : State) : Host.Outcome State Fault Refusal := s.on (Dev.formTag · lane)
def execSegmentAppend (lane : Nat) (s : State) : Host.Outcome State Fault Refusal := s.on (Dev.appendSegment · lane)

/-- A completion entry is posted into a free slot (R58 to R63). -/
def execCompletionEntryPost (lane ring : Nat) (s : State) : Host.Outcome State Fault Refusal :=
  s.on fun d => d.postEntry lane ring

/-- A segment or entry write fails at the port (R87). -/
def execOutputWriteFault (lane ring : Nat) (s : State) : Host.Outcome State Fault Refusal :=
  s.on fun d => d.outFault lane ring

/-- The coalescing time and the arbiter's age run out (R85, R94). -/
def execCoalTimeExpiry (lane ring : Nat) (s : State) : Host.Outcome State Fault Refusal :=
  s.on fun d => d.coalExpiry lane ring
def execArbAgeExpiry (lane : Nat) (s : State) : Host.Outcome State Fault Refusal := s.on (Dev.promote · lane)

/-- LANE_CTRL.DRAIN, and the end of a drain (R90). -/
def execLaneDrain (lane : Nat) (s : State) : Host.Outcome State Fault Refusal :=
  s.on fun d => d.byCore fun d => d.drain lane
def execDrainComplete (lane : Nat) (s : State) : Host.Outcome State Fault Refusal := s.on (Dev.drainComplete · lane)

/-- LANE_CTRL.LANE_RESET (R91). -/
def execLaneReset (lane : Nat) (s : State) : Host.Outcome State Fault Refusal :=
  s.on fun d => d.byCore fun d => d.laneReset lane

/-- LANE_CMB_CTRL.CLK_EN (R96, R218). -/
def execCombClkEnWrite (comb : Nat) (on : Bool) (s : State) : Host.Outcome State Fault Refusal :=
  s.on fun d => d.byCore fun d => d.combWrite comb on

end Sys2Proof.Machine
end

