-- ==== Sys2Proof/Machine/RegRows.lean ====
section
/-! DEFINITION. The commands that reach registers and windows: register writes, the management port's transactions, debug
accesses, the MPU's update, events taken by a core, and the network answers. -/
namespace Sys2Proof.Machine

/-- A write of a register that has no row of its own (R3 and the register tables): `who` 0 to 8 a core in IO-space, at M
where `machine` says so and else at S, while it is not halted for a close (R231); 16 + p host port p, in the BAR that `bar` names
(P0, P1) or in the P4 window. -/
def Dev.registerWrite (d : Dev) (who bar addr width : Nat) (machine : Bool) (v : Nat) : Dev :=
  if who < 16 then
    if who ≤ d.nCombs && d.power.mode ≠ .close then (d.ioWrite who (if machine then .machine else .supervisor) addr v).getD d else d
  else if who < 18 then d.barWrite (who - 16) bar addr width v
  else if who = 20 then d.mgtPut addr ((le 4 v).take width)
  else d
def execRegisterWrite (who bar addr width : Nat) (machine : Bool) (value : BitVec 32) (s : State) :
    Host.Outcome State Fault Refusal :=
  s.on fun d => d.clocked fun d => d.registerWrite who bar addr width machine value.toNat

/-- A transaction of P4 starts: it aborts a transition to STANDBY (R225); on I²C, with SCL held low past its data, nothing of it counts
until SCL rises (R276). -/
def Dev.mgtStart (d : Dev) (held : Bool) (f : Dev → Dev) : Dev :=
  if !d.supply.clocks || d.power.mode = .standby then d
  else
    let d := if d.power.target = some .standby then d.wake 0 else d
    if held && d.supply.i2c then d.onPorts fun c => { c with sclAt := some (c.sclAt.getD (d.clk + ms 25)) }
    else f (d.onPorts fun c => { c with sclAt := none })

/-- A write transaction and a read transaction on P4 (R274, R275); `held`: on I²C, SCL stays low before its end. -/
def execMgtWrite (addr : Nat) (data : List Byte) (held : Bool) (s : State) : Host.Outcome State Fault Refusal :=
  s.on fun d => d.mgtStart held fun d => d.mgtPut (addr % 65536) data
def execMgtRead (addr len : Nat) (held : Bool) (s : State) : Host.Outcome State Fault Refusal :=
  s.on fun d => d.mgtStart held fun d => d.send (.reads 4 (d.mgtGet (addr % 65536) len))

/-! The debug port's accesses (R445 to R447, R453). Spaces: 0 I-space, 1 D-space, 2 IO-space, and the locked ones above. -/

/-- How a debug access ends. -/
inductive DbgAns where
  | ok (d : Dev) (v : W48) | stall | locked | fail

/-- DBG_STATUS, DBG_REMAIN and LC_STATUS are read, and DBG_CTRL.LOCK is written, at every level (R445). -/
def dbgAlways (wr : Bool) (core addr v : Nat) : Bool :=
  core == 0 && if wr then addr == 0x54401 && v.testBit 0 else addr == 0x54400 || addr == 0x54402 || addr == 0x54000

/-- Registers that P0 reads stand in these blocks (R261). -/
def Blk.atHost : Blk → Bool
  | .lane _ | .comb _ | .arb | .hive | .time | .stor | .stg | .storBlk | .pwr | .eth _ | .pk | .key | .rng | .tmp | .log | .lc | .cfl | .fld =>
    true
  | .mbx p | .pcie p => p == 0
  | _ => false

/-- The IO-space registers always locked: the saved contexts of lanes (R446). -/
def ctxSave (a : Nat) : Bool :=
  match ioDecode a with
  | some (.lane _, i) => decide (48 ≤ i) && decide (i < 64)
  | _ => false

/-- A register is read (R445). -/
def Dev.dbgIoRead (d : Dev) (n a : Nat) : DbgAns :=
  match d.ioPlace n .machine a with
  | none => .fail
  | some (b, i) =>
    if d.levelNow ≠ .full && !(b.atHost || dbgAlways false n a 0) then .locked
    else if d.levelNow = .full then
      let d := d.blkTouch .dbg b i
      .ok d (BitVec.ofNat 48 ((d.blkRead .dbg n true b i).getD 0))
    else
      let d := d.blkTouch .dbg b i
      .ok d (BitVec.ofNat 48 (if b = .key then (d.keyShown i).getD 0 else (d.blkRead .dbg n false b i).getD 0))

/-- A register is written: DBG_ registers in their own way, the others at FULL as the core would at M (R445, R457). -/
def Dev.dbgIoWrite (d : Dev) (n a v : Nat) : DbgAns :=
  if n = 0 && 0x54400 ≤ a && a < 0x54408 then
    if d.levelNow = .full || dbgAlways true n a v || (d.levelNow = .limited && (a = 0x54400 || a = 0x54406)) then
      .ok (d.dbgPortWrite (a - 0x54400) (if d.levelNow = .closed then 1 else v)) 0#48
    else .locked
  else if d.levelNow ≠ .full then .locked
  else
    match d.ioWrite n .machine a v with
    | some d => .ok d 0#48
    | none => .fail

/-- Code flash words that read-out protection withholds (R529). -/
def Dev.withheld (d : Dev) (n a : Nat) : Bool :=
  n == 0 && decide (a < 0x400000) && (d.flash.level != 0 || isParam (a % 0x200000))

/-- A word of I-space or D-space is read or written. -/
def Dev.dbgMem (d : Dev) (wr : Bool) (space n a : Nat) (v : W48) : DbgAns :=
  if space = 1 then
    if !inDspace n a then .fail
    else if wr then .ok (d.onCore n fun c => { c with dmem := spSet (fun _ => 0#48) c.dmem a v }) 0#48
    else .ok d (spGet (fun _ => 0#48) (d.core n).dmem a)
  else if d.withheld n a then .locked
  else if wr then
    if writableIspace n a then .ok (d.onCore n fun c => { c with imem := spSet (fun _ => 0#48) c.imem a v }) 0#48 else .fail
  else if writableIspace n a || (n == 0 && decide (a < 0x400000)) then
    let r := d.ispaceWord n a
    .ok r.2 r.1
  else .fail

/-- At LIMITED, the words in regions of the core's MPU that permit U access, which stall while the rules are not in force (R445,
R510). -/
def Dev.dbgLimited (d : Dev) (wr : Bool) (space n a : Nat) (v : W48) : DbgAns :=
  let m := (d.core n).mpu
  if !m.inForce then .stall else if m.allows .user space (b2n wr) a then d.dbgMem wr space n a v else .locked

/-- What an access comes to at the level in force. DESIGN CHOICE (log entry 94): a space of a core that the variant lacks ends in a bus
error at every level, and is no locked access; the spec speaks of no absent core here. -/
def Dev.dbgAnswer (d : Dev) (wr : Bool) (space n a : Nat) (v : W48) : DbgAns :=
  if 2 < space || d.nCombs < n || spaceWords space ≤ a then if 2 < space then .locked else .fail
  else if space = 2 then
    if ctxSave a then .locked
    else if dbgAlways wr n a v.toNat || d.levelNow ≠ .closed then if wr then d.dbgIoWrite n a v.toNat else d.dbgIoRead n a else .locked
  else
    match d.levelNow with
    | .closed => .locked
    | .limited => d.dbgLimited wr space n a v
    | .full => d.dbgMem wr space n a v

/-- An access completes on the debug port. -/
def Dev.dbgEnd (d : Dev) (wr : Bool) (space a : Nat) : DbgAns → Dev
  | .ok d' v => if wr then d' else d'.send (.tap v.toNat)
  | .stall => d
  | .fail => d.send (.tapErr 0)
  | .locked => (d.lockedAccess space a).send (.tapErr lockedValue.toNat)

/-- In STANDBY only DBG_STATUS and LC_STATUS are reached (R453). -/
def Dev.dbgStandby (d : Dev) (wr : Bool) (space n a : Nat) : Dev :=
  if !wr && space == 2 && n == 0 && (a == 0x54400 || a == 0x54000) then
    d.send (.tap ((if a = 0x54400 then d.dbgRead 0 else d.lcRead 0).getD 0))
  else d.send (.tapErr 0)

/-- TAP_DBG_ACCESS: a transfer of the DBG_ACCESS instruction, to a space of the core `core` (R445 to R447, R453, R591). -/
def execTapDbgAccess (wr : Bool) (space core addr : Nat) (value : W48) (s : State) : Host.Outcome State Fault Refusal :=
  s.on fun d => d.tapLoad 0x10 false fun d =>
    if d.power.mode = .standby then d.dbgStandby wr space core addr
    else d.dbgEnd wr space addr (d.dbgAnswer wr space core addr value)

/-! A core's MPU and its events. -/

/-- MPU_CTRL is written at M; below M the write is discarded (R510). -/
def execMpuCtrlEnWrite (core : Nat) (value : BitVec 32) (s : State) : Host.Outcome State Fault Refusal :=
  s.on fun d => d.byCore fun d => if (d.core core).psw.priv = .machine then d.mpuWrite core 0 value.toNat else d

/-- Four cycles after EN was set the rules are in force (R510). -/
def execMpuUpdateSettle (core : Nat) (s : State) : Host.Outcome State Fault Refusal :=
  s.on fun d => d.clocked fun d => d.mpuSettle core

/-- The lowest pending interrupt or event that is not masked is taken (R490). -/
def execAsyncEventTaken (core : Nat) (s : State) : Host.Outcome State Fault Refusal := s.on fun d => d.takeEvent core

/-- ARP (kind 0), NDP (1) and ICMP echo (2) are answered by P2 and P3, and an IP fragment (3) is dropped (R265). -/
def execArpNdpIcmpEcho (port kind : Nat) (body : List Byte) (s : State) : Host.Outcome State Fault Refusal :=
  s.on fun d =>
    if !isUdp port || !d.supply.clocks || d.power.mode = .standby || d.power.mode = .close then d
    else
      let d := d.ethUp port
      if kind < 3 then d.send (.frame port kind body) else d

end Sys2Proof.Machine
end

