-- ==== Sys2Proof/Machine/SealedStore.lean ====
section
/-! DEFINITION. The commands of the sealed store and of staging memory (R176 to R216). -/
namespace Sys2Proof.Machine

/-- STOR_SQ_TAIL (R197). -/
def execStoreSqDoorbell (tail : Nat) (s : State) : Host.Outcome State Fault Refusal :=
  s.on fun d => d.byCore fun d => d.storeDoorbell tail

/-- The descriptor at the head is a READ, or of no listed operation; `machine` says that it comes from M (R199, R203). -/
def execStoreRead (machine : Bool) (s : State) : Host.Outcome State Fault Refusal :=
  s.on fun d => match d.storeOpcode with
    | some op => if op == 1 || !inRange 1 6 op then d.storeExec machine storeActRead else d
    | none => d

/-- It is a PROGRAM or an APPEND; the data are what a host read returned, unless it failed (R199). -/
def execStoreProgram (data : List Byte) (ok : Bool) (s : State) : Host.Outcome State Fault Refusal :=
  s.on fun d => if d.storeOpcode = some 2 then d.storeExec false (storeActProgram data ok) else d
def execStoreAppend (data : List Byte) (ok : Bool) (s : State) : Host.Outcome State Fault Refusal :=
  s.on fun d => if d.storeOpcode = some 4 then d.storeExec false (storeActAppend data ok) else d

/-- It is an ERASE, a PIN or an UNPIN (R196, R199). -/
def execStoreErase (s : State) : Host.Outcome State Fault Refusal :=
  s.on fun d => if d.storeOpcode = some 3 then d.storeExec false storeActErase else d
def execStorePin (s : State) : Host.Outcome State Fault Refusal :=
  s.on fun d => if d.storeOpcode = some 5 then d.storeExec false storeActPin else d
def execStoreUnpin (s : State) : Host.Outcome State Fault Refusal :=
  s.on fun d => if d.storeOpcode = some 6 then d.storeExec false storeActUnpin else d

/-- A descriptor in progress finishes; `bad` is a page of a READ that could not be corrected (R201). -/
def execStoreDescComplete (index : Nat) (bad : Option Nat) (hostOk : Bool) (s : State) : Host.Outcome State Fault Refusal :=
  s.on fun d => d.storeDescComplete index bad hostOk

/-- A page program, a block erase and a journal page complete (R179, R184, R187, R190). -/
def execStorePageProgrammed (block page : Nat) (ok : Bool) (s : State) : Host.Outcome State Fault Refusal :=
  s.on fun d => d.storePageDone block page ok
def execStoreEraseDone (block : Nat) (ok : Bool) (s : State) : Host.Outcome State Fault Refusal :=
  s.on fun d => d.eraseEnds block ok
def execJournalPageProgrammed (ok : Bool) (s : State) : Host.Outcome State Fault Refusal := s.on fun d => d.journalDone ok

/-- The writer copies up to `n` bytes of its next record (R180). -/
def execContainerWriterTake (n : Nat) (s : State) : Host.Outcome State Fault Refusal := s.on fun d => d.writerTake n

/-- The writer erases a block ahead (R184). -/
def execRingPreerase (s : State) : Host.Outcome State Fault Refusal := s.on Dev.preErase

/-- Triggers: a hold is placed, a line is rearmed, and the FIFO is read (R195, R213, R214). -/
def execTriggerHoldPlace (s : State) : Host.Outcome State Fault Refusal := s.on Dev.triggerPlace
def execTrigDebExpiry (line : Nat) (s : State) : Host.Outcome State Fault Refusal := s.on fun d => d.trigRearm line
def execStorTrigPopRead (s : State) : Host.Outcome State Fault Refusal := s.on fun d => d.byCore Dev.trigPop

/-- Staging: training and a drain end (R207, R216). -/
def execStagingTrainDone (channels : Nat) (ok : Bool) (s : State) : Host.Outcome State Fault Refusal :=
  s.on fun d => d.trainDone channels ok
def execStagingDrainDone (s : State) : Host.Outcome State Fault Refusal := s.on Dev.drainDone

/-- A flash die gives no response (R215). -/
def execDieNoResponse (die : Nat) (s : State) : Host.Outcome State Fault Refusal := s.on fun d => d.dieSilent die

end Sys2Proof.Machine
end

