-- ==== Sys2Proof/Machine/Timebase.lean ====
section
/-! DEFINITION. The commands of the custody timebase (R153 to R175, R266). -/
namespace Sys2Proof.Machine

/-- The always-on domain has power (R574). -/
def Dev.aonRuns (d : Dev) : Bool := d.supply.vbat || d.supply.vddIo

/-- The compensation interval ends; the sensor reads `temp` in 0.125 °C (R158). -/
def execTimeCompensationInterval (temp : Int) (s : State) : Host.Outcome State Fault Refusal :=
  s.on fun d => if d.aonRuns then d.compensate temp else d

/-- A 64 s window in LOCKED ends (R159). -/
def execAonTrimWindow (s : State) : Host.Outcome State Fault Refusal := s.on Dev.trimWindow

/-- The always-on counter goes on from the RC oscillator, by the increment calibrated at the last compensation interval (R160). -/
def Dev.toRc (d : Dev) : Dev := d.onAonTime fun a => if a.onRc then a else { a with onRc := true, xtalFail := true, phase := 0 }

/-- No crystal edge within 256 RC periods (R160). -/
def execCrystalWatchdogExpiry (s : State) : Host.Outcome State Fault Refusal :=
  s.on fun d => if d.aonRuns then d.toRc else d

/-- Crystal edges have returned for 32,768 periods (R160). -/
def execCrystalReturn (s : State) : Host.Outcome State Fault Refusal :=
  s.on fun d => if d.aonRuns then d.onAonTime fun a => { a with onRc := false, phase := 0 } else d

/-- An edge of the PPS input: its direction, and whether R587 ignores it (R162). -/
def execPpsEdge (falling ignored : Bool) (s : State) : Host.Outcome State Fault Refusal :=
  s.on fun d =>
    if ignored || falling != d.time.cfg.ppsFall || !d.supply.clocks then d else d.ppsEdge.2

/-- The supervisor's writes take effect: the clocks run, and no close has halted it (R231). -/
def Dev.superWrites (d : Dev) : Bool := d.supply.clocks && decide (d.power.mode ≠ .close)

/-- A write of TIME_MEAS_HI (R163). -/
def execTimeMeasSubmit (hi : BitVec 32) (s : State) : Host.Outcome State Fault Refusal :=
  s.on fun d => if d.superWrites then (d.measSubmit hi).2 else d

/-- TIME_REF_TO runs out for the active source (R161). -/
def execTimeRefToExpiry (s : State) : Host.Outcome State Fault Refusal := s.on Dev.refTimeout

/-- TIME_CTRL.LABEL_ARM (R162). -/
def execTimeLabelArm (s : State) : Host.Outcome State Fault Refusal := s.on fun d => if d.superWrites then d.labelArm else d

/-- A write of TIME_CTRL.FORCE_HOLD (R164). -/
def execForceHoldWrite (on : Bool) (s : State) : Host.Outcome State Fault Refusal :=
  s.on fun d => if d.superWrites then d.forceHold on else d

/-- The clock reaches the value of an enabled alarm; with WAKE it is a wake source (R171, R224). -/
def execTimeAlarmFire (n : Nat) (s : State) : Host.Outcome State Fault Refusal :=
  s.on fun d =>
    if !(d.aonRuns && decide (n < 4) && d.alarmDue n) then d
    else if (vget d.time.aon.alarms n {}).wake then d.alarmFire n |>.wake 5
    else d.alarmFire n

/-- Another 64 units of operating time, which count in STANDBY too (R157, R169, R170). -/
def execCounterLogCheckpoint (ok : Bool) (s : State) : Host.Outcome State Fault Refusal :=
  s.on fun d =>
    if (d.supply.clocks || (d.supply.pgood && decide (d.power.mode = .standby))) && decide (d.time.log.row.oph / 64 < d.time.aon.oph / 64) then d.checkpoint ok else d

/-- A requester's number: 0 the supervisor, 1 to 8 comb controllers, 16 + p port p, else the debug port. -/
def Requester.ofNat (n : Nat) : Requester :=
  if n = 0 then .supervisor else if n ≤ 8 then .comb (n - 1) else if 16 ≤ n && n < 21 then .port (n - 16) else .dbg

/-- A read of a LO register of a pair (R174). -/
def execLatchedLoRead (who reg : Nat) (s : State) : Host.Outcome State Fault Refusal :=
  s.on fun d => if d.supply.clocks then d.latchPair (.ofNat who) reg else d

/-- A PTP event message at its start-of-frame point on P2 or P3, with the port's latency added (R266). -/
def execPtpEventMessage (port : Nat) (tx : Bool) (s : State) : Host.Outcome State Fault Refusal :=
  s.on fun d =>
    if !(isUdp port && d.supply.clocks && d.time.servo.run) then d
    else
      let units := fun (ns : Nat) => ns * 4294967296 / 1000000000
      d.onEth port fun e =>
        if tx then { e with stampTx := d.now + units e.latTx } else { e with stampRx := d.now + units e.latRx }

/-- A slew ends (R155). -/
def execSlewComplete (s : State) : Host.Outcome State Fault Refusal := s.on Dev.slewDone

/-- The error bound grows (R166, R167). -/
def execErrorBoundGrowth (s : State) : Host.Outcome State Fault Refusal :=
  s.on fun d => if d.time.servo.run then d.refreshBound else d

end Sys2Proof.Machine
end

