-- ==== Sys2Proof/Machine/Dispatch.lean ====
section
/-! DEFINITION. One arm per command of the opcode table. -/
namespace Sys2Proof.Machine

/-- The effect of a command on everything but the queue. -/
def exec (i : Instr) (s : State) : Host.Outcome State Fault Refusal :=
  match i with
  | .pgoodRise => Sys2Proof.Machine.execPgoodRise s
  | .resetHoldExpiry kat => Sys2Proof.Machine.execResetHoldExpiry kat s
  | .romHandOff rowOk => Sys2Proof.Machine.execRomHandOff rowOk s
  | .timeStartWaitExpiry => Sys2Proof.Machine.execTimeStartWaitExpiry s
  | .bootDone => Sys2Proof.Machine.execBootDone s
  | .randomOutputReady => Sys2Proof.Machine.execRandomOutputReady s
  | .storeScanDone => Sys2Proof.Machine.execStoreScanDone s
  | .reconcile => Sys2Proof.Machine.execReconcile s
  | .startUpDone => Sys2Proof.Machine.execStartUpDone s
  | .pgoodFall => Sys2Proof.Machine.execPgoodFall s
  | .aonPowerLoss => Sys2Proof.Machine.execAonPowerLoss s
  | .pfailNAssert => Sys2Proof.Machine.execPfailNAssert s
  | .pfailNDeassert => Sys2Proof.Machine.execPfailNDeassert s
  | .pfailRestartWaitExpiry => Sys2Proof.Machine.execPfailRestartWaitExpiry s
  | .closeFlushDone => Sys2Proof.Machine.execCloseFlushDone s
  | .closeFlushExpiry => Sys2Proof.Machine.execCloseFlushExpiry s
  | .closeOpeningProgrammed => Sys2Proof.Machine.execCloseOpeningProgrammed s
  | .schussEngineSlot lane units => Sys2Proof.Machine.execSchussEngineSlot lane units s
  | .sealCutoffExpiry done => Sys2Proof.Machine.execSealCutoffExpiry done s
  | .finalSnapshot => Sys2Proof.Machine.execFinalSnapshot s
  | .closeRecordProgrammed => Sys2Proof.Machine.execCloseRecordProgrammed s
  | .closeDeadlineExpiry => Sys2Proof.Machine.execCloseDeadlineExpiry s
  | .closeDone => Sys2Proof.Machine.execCloseDone s
  | .modeRequest req => Sys2Proof.Machine.execModeRequest req s
  | .modeTransitionDone => Sys2Proof.Machine.execModeTransitionDone s
  | .pwrShutdown => Sys2Proof.Machine.execPwrShutdown s
  | .gpioEdge line level => Sys2Proof.Machine.execGpioEdge line level s
  | .timeCompensationInterval temp => Sys2Proof.Machine.execTimeCompensationInterval temp s
  | .aonTrimWindow => Sys2Proof.Machine.execAonTrimWindow s
  | .crystalWatchdogExpiry => Sys2Proof.Machine.execCrystalWatchdogExpiry s
  | .crystalReturn => Sys2Proof.Machine.execCrystalReturn s
  | .ppsEdge falling ignored => Sys2Proof.Machine.execPpsEdge falling ignored s
  | .timeMeasSubmit hi => Sys2Proof.Machine.execTimeMeasSubmit hi s
  | .timeRefToExpiry => Sys2Proof.Machine.execTimeRefToExpiry s
  | .timeLabelArm => Sys2Proof.Machine.execTimeLabelArm s
  | .forceHoldWrite on => Sys2Proof.Machine.execForceHoldWrite on s
  | .timeAlarmFire n => Sys2Proof.Machine.execTimeAlarmFire n s
  | .counterLogCheckpoint ok => Sys2Proof.Machine.execCounterLogCheckpoint ok s
  | .latchedLoRead who reg => Sys2Proof.Machine.execLatchedLoRead who reg s
  | .ptpEventMessage port tx => Sys2Proof.Machine.execPtpEventMessage port tx s
  | .snapshotIssue => Sys2Proof.Machine.execSnapshotIssue s
  | .snapshotCapture => Sys2Proof.Machine.execSnapshotCapture s
  | .hiveBoundary => Sys2Proof.Machine.execHiveBoundary s
  | .hiveRootComputed => Sys2Proof.Machine.execHiveRootComputed s
  | .hiveCtrlDemand => Sys2Proof.Machine.execHiveCtrlDemand s
  | .hiveCtrlAtArm => Sys2Proof.Machine.execHiveCtrlAtArm s
  | .hiveCtrlAtCancel => Sys2Proof.Machine.execHiveCtrlAtCancel s
  | .hivePeriodNextWrite value => Sys2Proof.Machine.execHivePeriodNextWrite value s
  | .hiveEpochNextWrite value => Sys2Proof.Machine.execHiveEpochNextWrite value s
  | .epochBoundary => Sys2Proof.Machine.execEpochBoundary s
  | .epochLinkAppend lane => Sys2Proof.Machine.execEpochLinkAppend lane s
  | .hiveLinkMaxExpiry lane => Sys2Proof.Machine.execHiveLinkMaxExpiry lane s
  | .epochSignatureAppend lane => Sys2Proof.Machine.execEpochSignatureAppend lane s
  | .wagBarrier id => Sys2Proof.Machine.execWagBarrier id s
  | .wagBroadcast => Sys2Proof.Machine.execWagBroadcast s
  | .wagSnapshot => Sys2Proof.Machine.execWagSnapshot s
  | .wagReset machine => Sys2Proof.Machine.execWagReset machine s
  | .wagEpArrive comb id => Sys2Proof.Machine.execWagEpArrive comb id s
  | .barrierRelease => Sys2Proof.Machine.execBarrierRelease s
  | .wagBarTimeoutExpiry => Sys2Proof.Machine.execWagBarTimeoutExpiry s
  | .wagOpComplete => Sys2Proof.Machine.execWagOpComplete s
  | .wagAckLimitExpiry ep => Sys2Proof.Machine.execWagAckLimitExpiry ep s
  | .ringInDoorbell port lane ring value => Sys2Proof.Machine.execRingInDoorbell port lane ring value s
  | .ringCmpHeadWrite port lane ring value => Sys2Proof.Machine.execRingCmpHeadWrite port lane ring value s
  | .sealUnit lane ctx bytes ok => Sys2Proof.Machine.execSealUnit lane ctx bytes ok s
  | .verifyElement lane ctx bytes ok => Sys2Proof.Machine.execVerifyElement lane ctx bytes ok s
  | .unitSuspend lane done => Sys2Proof.Machine.execUnitSuspend lane done s
  | .verifyComplete lane ctx data ok => Sys2Proof.Machine.execVerifyComplete lane ctx data ok s
  | .unitResume lane crcOk => Sys2Proof.Machine.execUnitResume lane crcOk s
  | .suspMaxExpiry lane => Sys2Proof.Machine.execSuspMaxExpiry lane s
  | .payloadFetchStart lane => Sys2Proof.Machine.execPayloadFetchStart lane s
  | .payloadFetchDone lane data ok => Sys2Proof.Machine.execPayloadFetchDone lane data ok s
  | .pcieCompletionTimeout lane ctx => Sys2Proof.Machine.execPcieCompletionTimeout lane ctx s
  | .unitAccept lane => Sys2Proof.Machine.execUnitAccept lane s
  | .engineStart lane => Sys2Proof.Machine.execEngineStart lane s
  | .segmentAppend lane => Sys2Proof.Machine.execSegmentAppend lane s
  | .completionEntryPost lane ring => Sys2Proof.Machine.execCompletionEntryPost lane ring s
  | .outputWriteFault lane ring => Sys2Proof.Machine.execOutputWriteFault lane ring s
  | .coalTimeExpiry lane ring => Sys2Proof.Machine.execCoalTimeExpiry lane ring s
  | .arbAgeExpiry lane => Sys2Proof.Machine.execArbAgeExpiry lane s
  | .laneDrain lane => Sys2Proof.Machine.execLaneDrain lane s
  | .drainComplete lane => Sys2Proof.Machine.execDrainComplete lane s
  | .laneReset lane => Sys2Proof.Machine.execLaneReset lane s
  | .combClkEnWrite comb on => Sys2Proof.Machine.execCombClkEnWrite comb on s
  | .storeSqDoorbell tail => Sys2Proof.Machine.execStoreSqDoorbell tail s
  | .storeRead machine => Sys2Proof.Machine.execStoreRead machine s
  | .storeProgram data ok => Sys2Proof.Machine.execStoreProgram data ok s
  | .storeErase => Sys2Proof.Machine.execStoreErase s
  | .storeAppend data ok => Sys2Proof.Machine.execStoreAppend data ok s
  | .storePin => Sys2Proof.Machine.execStorePin s
  | .storeUnpin => Sys2Proof.Machine.execStoreUnpin s
  | .storeDescComplete index bad hostOk => Sys2Proof.Machine.execStoreDescComplete index bad hostOk s
  | .storePageProgrammed block page ok => Sys2Proof.Machine.execStorePageProgrammed block page ok s
  | .storeEraseDone block ok => Sys2Proof.Machine.execStoreEraseDone block ok s
  | .containerWriterTake n => Sys2Proof.Machine.execContainerWriterTake n s
  | .ringPreerase => Sys2Proof.Machine.execRingPreerase s
  | .triggerHoldPlace => Sys2Proof.Machine.execTriggerHoldPlace s
  | .trigDebExpiry line => Sys2Proof.Machine.execTrigDebExpiry line s
  | .storTrigPopRead => Sys2Proof.Machine.execStorTrigPopRead s
  | .journalPageProgrammed ok => Sys2Proof.Machine.execJournalPageProgrammed ok s
  | .stagingTrainDone channels ok => Sys2Proof.Machine.execStagingTrainDone channels ok s
  | .stagingDrainDone => Sys2Proof.Machine.execStagingDrainDone s
  | .mbxDoorbell port slot len tag => Sys2Proof.Machine.execMbxDoorbell port slot len tag s
  | .mbxSlotAck port slot => Sys2Proof.Machine.execMbxSlotAck port slot s
  | .mbxCtrlLogout port => Sys2Proof.Machine.execMbxCtrlLogout port s
  | .mbxNtcHeadWrite port value => Sys2Proof.Machine.execMbxNtcHeadWrite port value s
  | .udpHello port bytes => Sys2Proof.Machine.execUdpHello port bytes s
  | .udpProve port bytes => Sys2Proof.Machine.execUdpProve port bytes s
  | .udpRequest port bytes => Sys2Proof.Machine.execUdpRequest port bytes s
  | .udpNoticeAck port bytes => Sys2Proof.Machine.execUdpNoticeAck port bytes s
  | .udpExportAck port bytes => Sys2Proof.Machine.execUdpExportAck port bytes s
  | .udpLogout port bytes => Sys2Proof.Machine.execUdpLogout port bytes s
  | .ethReasmExpiry port sess => Sys2Proof.Machine.execEthReasmExpiry port sess s
  | .ethRetxExpiry port sess => Sys2Proof.Machine.execEthRetxExpiry port sess s
  | .challengeExpiry port sess => Sys2Proof.Machine.execChallengeExpiry port sess s
  | .mbxLockoutExpiry port => Sys2Proof.Machine.execMbxLockoutExpiry port s
  | .mbxIdleExpiry port sess => Sys2Proof.Machine.execMbxIdleExpiry port sess s
  | .pciePortReset port down rate width => Sys2Proof.Machine.execPciePortReset port down rate width s
  | .pcieD3hot port => Sys2Proof.Machine.execPcieD3hot port s
  | .pcieD0Return port => Sys2Proof.Machine.execPcieD0Return port s
  | .pcieL1Exit port => Sys2Proof.Machine.execPcieL1Exit port s
  | .pcieStandbyAccess port len read => Sys2Proof.Machine.execPcieStandbyAccess port len read s
  | .mgtWrite addr data held => Sys2Proof.Machine.execMgtWrite addr data held s
  | .mgtRead addr len held => Sys2Proof.Machine.execMgtRead addr len held s
  | .mgtStandbyWake len => Sys2Proof.Machine.execMgtStandbyWake len s
  | .i2cSclLowExpiry => Sys2Proof.Machine.execI2cSclLowExpiry s
  | .getInfo port slot => Sys2Proof.Machine.execGetInfo port slot s
  | .authHello port slot => Sys2Proof.Machine.execAuthHello port slot s
  | .authProve port slot => Sys2Proof.Machine.execAuthProve port slot s
  | .logout port slot => Sys2Proof.Machine.execLogout port slot s
  | .bufWrite port slot => Sys2Proof.Machine.execBufWrite port slot s
  | .bufRead port slot => Sys2Proof.Machine.execBufRead port slot s
  | .noticeSubscribe port slot => Sys2Proof.Machine.execNoticeSubscribe port slot s
  | .setMode port slot => Sys2Proof.Machine.execSetMode port slot s
  | .shutdown port slot => Sys2Proof.Machine.execShutdown port slot s
  | .recovery port slot => Sys2Proof.Machine.execRecovery port slot s
  | .rngRead port slot => Sys2Proof.Machine.execRngRead port slot s
  | .streamOpen port slot preparing => Sys2Proof.Machine.execStreamOpen port slot preparing s
  | .streamClose port slot => Sys2Proof.Machine.execStreamClose port slot s
  | .verifyOpen port slot => Sys2Proof.Machine.execVerifyOpen port slot s
  | .verifyClose port slot => Sys2Proof.Machine.execVerifyClose port slot s
  | .verifyReanchor port slot => Sys2Proof.Machine.execVerifyReanchor port slot s
  | .ringRetarget port slot readBack => Sys2Proof.Machine.execRingRetarget port slot readBack s
  | .streamStatus port slot => Sys2Proof.Machine.execStreamStatus port slot s
  | .hiveDemand port slot => Sys2Proof.Machine.execHiveDemand port slot s
  | .hiveAt port slot => Sys2Proof.Machine.execHiveAt port slot s
  | .hivePeriods port slot => Sys2Proof.Machine.execHivePeriods port slot s
  | .hiveGet port slot => Sys2Proof.Machine.execHiveGet port slot s
  | .holdPlace port slot => Sys2Proof.Machine.execHoldPlace port slot s
  | .holdRelease port slot => Sys2Proof.Machine.execHoldRelease port slot s
  | .holdList port slot => Sys2Proof.Machine.execHoldList port slot s
  | .storeExport port slot => Sys2Proof.Machine.execStoreExport port slot s
  | .storeInfo port slot => Sys2Proof.Machine.execStoreInfo port slot s
  | .timeGet port slot => Sys2Proof.Machine.execTimeGet port slot s
  | .timeSet port slot => Sys2Proof.Machine.execTimeSet port slot s
  | .timeLabel port slot => Sys2Proof.Machine.execTimeLabel port slot s
  | .timeAlarm port slot => Sys2Proof.Machine.execTimeAlarm port slot s
  | .identityGet port slot => Sys2Proof.Machine.execIdentityGet port slot s
  | .keyDeliver port slot => Sys2Proof.Machine.execKeyDeliver port slot s
  | .keyStatement port slot => Sys2Proof.Machine.execKeyStatement port slot s
  | .keyInfo port slot => Sys2Proof.Machine.execKeyInfo port slot s
  | .logRead port slot => Sys2Proof.Machine.execLogRead port slot s
  | .logFreeze port slot => Sys2Proof.Machine.execLogFreeze port slot s
  | .logUnfreeze port slot => Sys2Proof.Machine.execLogUnfreeze port slot s
  | .logClear port slot => Sys2Proof.Machine.execLogClear port slot s
  | .lcGet port slot => Sys2Proof.Machine.execLcGet port slot s
  | .lcTransition port slot => Sys2Proof.Machine.execLcTransition port slot s
  | .debugChallenge port slot => Sys2Proof.Machine.execDebugChallenge port slot s
  | .debugUnlock port slot => Sys2Proof.Machine.execDebugUnlock port slot s
  | .debugLock port slot => Sys2Proof.Machine.execDebugLock port slot s
  | .fieldStatus port slot => Sys2Proof.Machine.execFieldStatus port slot s
  | .fieldPageUpdate port slot => Sys2Proof.Machine.execFieldPageUpdate port slot s
  | .fieldInventory port slot replies => Sys2Proof.Machine.execFieldInventory port slot replies s
  | .fieldPair port slot sel auth prove pair rssi => Sys2Proof.Machine.execFieldPair port slot sel auth prove pair rssi s
  | .extLoad port slot => Sys2Proof.Machine.execExtLoad port slot s
  | .extStart port slot => Sys2Proof.Machine.execExtStart port slot s
  | .extStop port slot => Sys2Proof.Machine.execExtStop port slot s
  | .extStatus port slot => Sys2Proof.Machine.execExtStatus port slot s
  | .fwStage port slot => Sys2Proof.Machine.execFwStage port slot s
  | .fwActivate port slot => Sys2Proof.Machine.execFwActivate port slot s
  | .setRead port slot => Sys2Proof.Machine.execSetRead port slot s
  | .setWrite port slot => Sys2Proof.Machine.execSetWrite port slot s
  | .setCommit port slot => Sys2Proof.Machine.execSetCommit port slot s
  | .setDiscard port slot => Sys2Proof.Machine.execSetDiscard port slot s
  | .fieldPageCommitExpiry => Sys2Proof.Machine.execFieldPageCommitExpiry s
  | .fieldInventoryDurationExpiry => Sys2Proof.Machine.execFieldInventoryDurationExpiry s
  | .pkSqDoorbell sub tail => Sys2Proof.Machine.execPkSqDoorbell sub tail s
  | .falconSign tile => Sys2Proof.Machine.execFalconSign tile s
  | .falconVerify tile => Sys2Proof.Machine.execFalconVerify tile s
  | .falconKeygen tile => Sys2Proof.Machine.execFalconKeygen tile s
  | .mlkemKeygen tile => Sys2Proof.Machine.execMlkemKeygen tile s
  | .mlkemEncaps tile => Sys2Proof.Machine.execMlkemEncaps tile s
  | .mlkemDecaps tile => Sys2Proof.Machine.execMlkemDecaps tile s
  | .ecdsaP384Sign tile => Sys2Proof.Machine.execEcdsaP384Sign tile s
  | .ecdsaP384Verify tile => Sys2Proof.Machine.execEcdsaP384Verify tile s
  | .p384Keygen tile => Sys2Proof.Machine.execP384Keygen tile s
  | .ecdhP384 tile => Sys2Proof.Machine.execEcdhP384 tile s
  | .x25519 tile => Sys2Proof.Machine.execX25519 tile s
  | .x25519Keygen tile => Sys2Proof.Machine.execX25519Keygen tile s
  | .rsaVerify tile => Sys2Proof.Machine.execRsaVerify tile s
  | .tileYieldPoint tile => Sys2Proof.Machine.execTileYieldPoint tile s
  | .tileJobComplete tile fault => Sys2Proof.Machine.execTileJobComplete tile fault s
  | .pkAbort sub tag => Sys2Proof.Machine.execPkAbort sub tag s
  | .pkTileEnWrite en => Sys2Proof.Machine.execPkTileEnWrite en s
  | .keyOpGenerate who resv => Sys2Proof.Machine.execKeyOpGenerate who resv s
  | .keyOpDerive who flavour kek resv => Sys2Proof.Machine.execKeyOpDerive who flavour kek resv s
  | .keyOpWrap who resv => Sys2Proof.Machine.execKeyOpWrap who resv s
  | .keyOpUnwrap who resv => Sys2Proof.Machine.execKeyOpUnwrap who resv s
  | .keyOpOpenDst who resv => Sys2Proof.Machine.execKeyOpOpenDst who resv s
  | .keyOpClear who resv => Sys2Proof.Machine.execKeyOpClear who resv s
  | .keyOpLoadLane who resv => Sys2Proof.Machine.execKeyOpLoadLane who resv s
  | .keyOpInfo who resv => Sys2Proof.Machine.execKeyOpInfo who resv s
  | .keyLogRecordWritten ok => Sys2Proof.Machine.execKeyLogRecordWritten ok s
  | .kekPrepare ok => Sys2Proof.Machine.execKekPrepare ok s
  | .keyEpochBoundary => Sys2Proof.Machine.execKeyEpochBoundary s
  | .noiseHealthFail source test => Sys2Proof.Machine.execNoiseHealthFail source test s
  | .sourceStartupTestDone source ok => Sys2Proof.Machine.execSourceStartupTestDone source ok s
  | .conditionerBlock => Sys2Proof.Machine.execConditionerBlock s
  | .rngRetestA => Sys2Proof.Machine.execRngRetestA s
  | .rngRetestB => Sys2Proof.Machine.execRngRetestB s
  | .rngKat bad => Sys2Proof.Machine.execRngKat bad s
  | .rngIctrlReseed inst => Sys2Proof.Machine.execRngIctrlReseed inst s
  | .rngIctrlReinst inst => Sys2Proof.Machine.execRngIctrlReinst inst s
  | .reseedIntervalReached inst => Sys2Proof.Machine.execReseedIntervalReached inst s
  | .hostFillWindowExpiry => Sys2Proof.Machine.execHostFillWindowExpiry s
  | .sensorDetectorFire cls det site level => Sys2Proof.Machine.execSensorDetectorFire cls det site level s
  | .corroborationWindowExpiry => Sys2Proof.Machine.execCorroborationWindowExpiry s
  | .filterWindowExpiry cls => Sys2Proof.Machine.execFilterWindowExpiry cls s
  | .encDebExpiry input => Sys2Proof.Machine.execEncDebExpiry input s
  | .tecIncrement => Sys2Proof.Machine.execTecIncrement s
  | .tamperedEntryProgram ok => Sys2Proof.Machine.execTamperedEntryProgram ok s
  | .tmpCfgCommit => Sys2Proof.Machine.execTmpCfgCommit s
  | .tmpInject cls det => Sys2Proof.Machine.execTmpInject cls det s
  | .logFlushExpiry => Sys2Proof.Machine.execLogFlushExpiry s
  | .logPageProgrammed ok => Sys2Proof.Machine.execLogPageProgrammed ok s
  | .logBlockEraseDone => Sys2Proof.Machine.execLogBlockEraseDone s
  | .logSwGo typ => Sys2Proof.Machine.execLogSwGo typ s
  | .lcEntryProgrammed ok => Sys2Proof.Machine.execLcEntryProgrammed ok s
  | .retireStoreErase => Sys2Proof.Machine.execRetireStoreErase s
  | .dbgCtrlLock => Sys2Proof.Machine.execDbgCtrlLock s
  | .dbgCtrlLcProvision => Sys2Proof.Machine.execDbgCtrlLcProvision s
  | .dbgCtrlLcRetire => Sys2Proof.Machine.execDbgCtrlLcRetire s
  | .dbgCoreHalt mask => Sys2Proof.Machine.execDbgCoreHalt mask s
  | .dbgCoreResume => Sys2Proof.Machine.execDbgCoreResume s
  | .dbgCoreStep => Sys2Proof.Machine.execDbgCoreStep s
  | .unlockWindowExpiry => Sys2Proof.Machine.execUnlockWindowExpiry s
  | .debugChallengeExpiry => Sys2Proof.Machine.execDebugChallengeExpiry s
  | .tapExtest => Sys2Proof.Machine.execTapExtest s
  | .tapSamplePreload cells => Sys2Proof.Machine.execTapSamplePreload cells s
  | .tapIdcode => Sys2Proof.Machine.execTapIdcode s
  | .tapClamp => Sys2Proof.Machine.execTapClamp s
  | .tapHighz => Sys2Proof.Machine.execTapHighz s
  | .tapDbgAccess wr space core addr value => Sys2Proof.Machine.execTapDbgAccess wr space core addr value s
  | .tapBypass => Sys2Proof.Machine.execTapBypass s
  | .cflSqDoorbell tail => Sys2Proof.Machine.execCflSqDoorbell tail s
  | .cflRead => Sys2Proof.Machine.execCflRead s
  | .cflProgram => Sys2Proof.Machine.execCflProgram s
  | .cflErase => Sys2Proof.Machine.execCflErase s
  | .cflActivate => Sys2Proof.Machine.execCflActivate s
  | .cflRdp => Sys2Proof.Machine.execCflRdp s
  | .cflRowProgrammed bank ok => Sys2Proof.Machine.execCflRowProgrammed bank ok s
  | .cflEraseDone bank ok => Sys2Proof.Machine.execCflEraseDone bank ok s
  | .cflEraseResumeExpiry bank => Sys2Proof.Machine.execCflEraseResumeExpiry bank s
  | .cflFctrlWrite pf bc => Sys2Proof.Machine.execCflFctrlWrite pf bc s
  | .fieldCarrierRise => Sys2Proof.Machine.execFieldCarrierRise s
  | .carrierAbsenceExpiry => Sys2Proof.Machine.execCarrierAbsenceExpiry s
  | .fldBegin crcOk => Sys2Proof.Machine.execFldBegin crcOk s
  | .fldWalk plen pre crcOk => Sys2Proof.Machine.execFldWalk plen pre crcOk s
  | .fldSelect id crcOk => Sys2Proof.Machine.execFldSelect id crcOk s
  | .fldReshuffle id crcOk => Sys2Proof.Machine.execFldReshuffle id crcOk s
  | .fldSilence id crcOk => Sys2Proof.Machine.execFldSilence id crcOk s
  | .fldAuth keyId rr crcOk => Sys2Proof.Machine.execFldAuth keyId rr crcOk s
  | .fldProve mr crcOk => Sys2Proof.Machine.execFldProve mr crcOk s
  | .fldRead block crcOk => Sys2Proof.Machine.execFldRead block crcOk s
  | .fldEnd crcOk => Sys2Proof.Machine.execFldEnd crcOk s
  | .fldPair crcOk => Sys2Proof.Machine.execFldPair crcOk s
  | .sessionInactivityExpiry => Sys2Proof.Machine.execSessionInactivityExpiry s
  | .authWindowExpiry => Sys2Proof.Machine.execAuthWindowExpiry s
  | .fieldLockoutExpiry => Sys2Proof.Machine.execFieldLockoutExpiry s
  | .readerReplyWindowExpiry replies => Sys2Proof.Machine.execReaderReplyWindowExpiry replies s
  | .fldWrPage => Sys2Proof.Machine.execFldWrPage s
  | .fldWrPool => Sys2Proof.Machine.execFldWrPool s
  | .fieldPageCommit ok => Sys2Proof.Machine.execFieldPageCommit ok s
  | .fldKeyLoad slot keyId entry => Sys2Proof.Machine.execFldKeyLoad slot keyId entry s
  | .fldKeyClear slot keyId entry => Sys2Proof.Machine.execFldKeyClear slot keyId entry s
  | .fldReaderEnable on => Sys2Proof.Machine.execFldReaderEnable on s
  | .mpuCtrlEnWrite core value => Sys2Proof.Machine.execMpuCtrlEnWrite core value s
  | .mpuUpdateSettle core => Sys2Proof.Machine.execMpuUpdateSettle core s
  | .asyncEventTaken core => Sys2Proof.Machine.execAsyncEventTaken core s
  | .registerWrite who bar addr width machine value => Sys2Proof.Machine.execRegisterWrite who bar addr width machine value s
  | .cpuAdd u f => Sys2Proof.Machine.execCpuAdd u f s
  | .cpuSub u f => Sys2Proof.Machine.execCpuSub u f s
  | .cpuAddv u f => Sys2Proof.Machine.execCpuAddv u f s
  | .cpuSubv u f => Sys2Proof.Machine.execCpuSubv u f s
  | .cpuAnd u f => Sys2Proof.Machine.execCpuAnd u f s
  | .cpuOr u f => Sys2Proof.Machine.execCpuOr u f s
  | .cpuXor u f => Sys2Proof.Machine.execCpuXor u f s
  | .cpuAndn u f => Sys2Proof.Machine.execCpuAndn u f s
  | .cpuShl u f => Sys2Proof.Machine.execCpuShl u f s
  | .cpuShr u f => Sys2Proof.Machine.execCpuShr u f s
  | .cpuSar u f => Sys2Proof.Machine.execCpuSar u f s
  | .cpuRol u f => Sys2Proof.Machine.execCpuRol u f s
  | .cpuSlt u f => Sys2Proof.Machine.execCpuSlt u f s
  | .cpuSltu u f => Sys2Proof.Machine.execCpuSltu u f s
  | .cpuMin u f => Sys2Proof.Machine.execCpuMin u f s
  | .cpuMax u f => Sys2Proof.Machine.execCpuMax u f s
  | .cpuMinu u f => Sys2Proof.Machine.execCpuMinu u f s
  | .cpuMaxu u f => Sys2Proof.Machine.execCpuMaxu u f s
  | .cpuMul u f => Sys2Proof.Machine.execCpuMul u f s
  | .cpuMulh u f => Sys2Proof.Machine.execCpuMulh u f s
  | .cpuMulhu u f => Sys2Proof.Machine.execCpuMulhu u f s
  | .cpuDiv u f => Sys2Proof.Machine.execCpuDiv u f s
  | .cpuDivu u f => Sys2Proof.Machine.execCpuDivu u f s
  | .cpuRem u f => Sys2Proof.Machine.execCpuRem u f s
  | .cpuRemu u f => Sys2Proof.Machine.execCpuRemu u f s
  | .cpuClz u f => Sys2Proof.Machine.execCpuClz u f s
  | .cpuPopc u f => Sys2Proof.Machine.execCpuPopc u f s
  | .cpuAbs u f => Sys2Proof.Machine.execCpuAbs u f s
  | .cpuExtb u f => Sys2Proof.Machine.execCpuExtb u f s
  | .cpuInsb u f => Sys2Proof.Machine.execCpuInsb u f s
  | .cpuAddi u f => Sys2Proof.Machine.execCpuAddi u f s
  | .cpuAndi u f => Sys2Proof.Machine.execCpuAndi u f s
  | .cpuOri u f => Sys2Proof.Machine.execCpuOri u f s
  | .cpuXori u f => Sys2Proof.Machine.execCpuXori u f s
  | .cpuSlti u f => Sys2Proof.Machine.execCpuSlti u f s
  | .cpuSltiu u f => Sys2Proof.Machine.execCpuSltiu u f s
  | .cpuShli u f => Sys2Proof.Machine.execCpuShli u f s
  | .cpuShri u f => Sys2Proof.Machine.execCpuShri u f s
  | .cpuSari u f => Sys2Proof.Machine.execCpuSari u f s
  | .cpuLi u f => Sys2Proof.Machine.execCpuLi u f s
  | .cpuLih u f => Sys2Proof.Machine.execCpuLih u f s
  | .cpuLia u f => Sys2Proof.Machine.execCpuLia u f s
  | .cpuMova u f => Sys2Proof.Machine.execCpuMova u f s
  | .cpuMovd u f => Sys2Proof.Machine.execCpuMovd u f s
  | .cpuAdda u f => Sys2Proof.Machine.execCpuAdda u f s
  | .cpuSuba u f => Sys2Proof.Machine.execCpuSuba u f s
  | .cpuAddai u f => Sys2Proof.Machine.execCpuAddai u f s
  | .cpuMac u f => Sys2Proof.Machine.execCpuMac u f s
  | .cpuMsu u f => Sys2Proof.Machine.execCpuMsu u f s
  | .cpuMacu u f => Sys2Proof.Machine.execCpuMacu u f s
  | .cpuMpy u f => Sys2Proof.Machine.execCpuMpy u f s
  | .cpuClrac u f => Sys2Proof.Machine.execCpuClrac u f s
  | .cpuShac u f => Sys2Proof.Machine.execCpuShac u f s
  | .cpuExtac u f => Sys2Proof.Machine.execCpuExtac u f s
  | .cpuExtacv u f => Sys2Proof.Machine.execCpuExtacv u f s
  | .cpuLdacl u f => Sys2Proof.Machine.execCpuLdacl u f s
  | .cpuLdacm u f => Sys2Proof.Machine.execCpuLdacm u f s
  | .cpuLdach u f => Sys2Proof.Machine.execCpuLdach u f s
  | .cpuMfacl u f => Sys2Proof.Machine.execCpuMfacl u f s
  | .cpuMfacm u f => Sys2Proof.Machine.execCpuMfacm u f s
  | .cpuMfach u f => Sys2Proof.Machine.execCpuMfach u f s
  | .cpuLd u f => Sys2Proof.Machine.execCpuLd u f s
  | .cpuSt u f => Sys2Proof.Machine.execCpuSt u f s
  | .cpuLda u f => Sys2Proof.Machine.execCpuLda u f s
  | .cpuSta u f => Sys2Proof.Machine.execCpuSta u f s
  | .cpuIn u f => Sys2Proof.Machine.execCpuIn u f s
  | .cpuOut u f => Sys2Proof.Machine.execCpuOut u f s
  | .cpuIld u f => Sys2Proof.Machine.execCpuIld u f s
  | .cpuIst u f => Sys2Proof.Machine.execCpuIst u f s
  | .cpuBcc u f => Sys2Proof.Machine.execCpuBcc u f s
  | .cpuJ u f => Sys2Proof.Machine.execCpuJ u f s
  | .cpuCall u f => Sys2Proof.Machine.execCpuCall u f s
  | .cpuJr u f => Sys2Proof.Machine.execCpuJr u f s
  | .cpuCallr u f => Sys2Proof.Machine.execCpuCallr u f s
  | .cpuLoop u f => Sys2Proof.Machine.execCpuLoop u f s
  | .cpuNop u f => Sys2Proof.Machine.execCpuNop u f s
  | .cpuTrap u f => Sys2Proof.Machine.execCpuTrap u f s
  | .cpuBrk u f => Sys2Proof.Machine.execCpuBrk u f s
  | .cpuWait u f => Sys2Proof.Machine.execCpuWait u f s
  | .cpuFence u f => Sys2Proof.Machine.execCpuFence u f s
  | .cpuSynci u f => Sys2Proof.Machine.execCpuSynci u f s
  | .cpuMfs u f => Sys2Proof.Machine.execCpuMfs u f s
  | .cpuMts u f => Sys2Proof.Machine.execCpuMts u f s
  | .cpuRete u f => Sys2Proof.Machine.execCpuRete u f s
  | .ethLinkDown port => Sys2Proof.Machine.execEthLinkDown port s
  | .arpNdpIcmpEcho port kind body => Sys2Proof.Machine.execArpNdpIcmpEcho port kind body s
  | .slewComplete => Sys2Proof.Machine.execSlewComplete s
  | .errorBoundGrowth => Sys2Proof.Machine.execErrorBoundGrowth s
  | .aonPowerReturn cell => Sys2Proof.Machine.execAonPowerReturn cell s
  | .gcmTagFormed lane => Sys2Proof.Machine.execGcmTagFormed lane s
  | .previousKekClear => Sys2Proof.Machine.execPreviousKekClear s
  | .dieNoResponse die => Sys2Proof.Machine.execDieNoResponse die s
  | .cpuUndefinedEncoding u w => Sys2Proof.Machine.execCpuUndefinedEncoding u w s

end Sys2Proof.Machine
end

