-- ==== Sys2Proof/Machine/TickOps.lean ====
section
/-! DEFINITION. What happens at a clock edge when no command waits: the accumulators, the counters, the waggle
tree's own edges, the sequencer's ISSUE advance, tiles and exports (R99, R124, R154, R158, R169, R478). -/
namespace Sys2Proof.Machine

/-- Edges a second of what the always-on counter runs from: the crystal, or the RC oscillator at its nominal rate (R158, R160). -/
def AonTime.rateHz (a : AonTime) : Nat := if a.onRc then 4194304 else 32768

/-- Nanoseconds to its next edge. -/
def AonTime.toEdge (a : AonTime) : Nat := ceilDiv (1000000000 - a.phase) a.rateHz

/-- `ns` nanoseconds pass, at most one of its periods. -/
def AonTime.pass (a : AonTime) (ns : Nat) (running : Bool) : AonTime :=
  let p := a.phase + a.rateHz * ns
  if p < 1000000000 then { a with phase := p } else { (a.edge running) with phase := p - 1000000000 }

/-- Core clock cycles that end in the nanosecond after `clk`: 1.2 GHz on the supervisor; on a comb controller 1.0 GHz
while the comb's clock runs (R218, R478). -/
def Dev.coreCycles (d : Dev) (n : Nat) : Nat :=
  if n = 0 then (d.clk + 1) * 6 / 5 - d.clk * 6 / 5 else b2n (d.comb (n - 1)).clkEn

/-- A deadline's edge is over: receipts captured before a boundary that has come, epoch signatures under way, and what was left to
complete on the edge are dropped (R29, R111, R119). -/
def Dev.edgeOver (d : Dev) : Dev :=
  let d := if d.hiveDue && (d.receipts.making.any fun m => decide (m.boundary < d.boundaryNow d.hive.period)) then d.lapseReceipts else d
  let d := d.each ((List.range d.nLanes).filter fun n => d.epochDue n && (d.lane n).stream.sig.isSome) Dev.dropEpochSig
  d.lapse

/-- What stands as a capture edge comes is latched: that of a boundary which was not due before, or of a snapshot in flight (R106). -/
def Dev.edgeComes (d : Dev) (was : Bool) : Dev :=
  if (d.hiveDue && !was) || d.wag.flights.any fun f => f.op == .snapshot && !f.acted && f.edgeAt == d.clk then d.latchShadows else d

/-- The clocks and counters of one edge of the fast clocks, 1 ns. -/
def Dev.fastCount (d : Dev) : Dev :=
  let run := d.time.servo.run
  let aon := (d.time.aon.pass 1 run).operate 1
  let servo := d.time.servo.edge d.time.cfg.slewMax
  let cores := Vector.ofFn fun (i : Fin 9) => { d.cores[i] with cycles := (d.cores[i].cycles + d.coreCycles i) % 2 ^ 48 }
  { d with clk := d.clk + 1, time := { d.time with servo := servo, aon := aon }, cores := cores }

/-- One edge of the fast clocks, 1 ns: what the last one leaves, the counts, and what the new one brings. -/
def Dev.fastTick (d : Dev) : Dev :=
  let d := d.edgeOver
  let d := (d.fastCount.edgeComes d.hiveDue).issueEnds.wagEdges.wagIssue
  let d := ((d.each (List.range 8) Dev.tileSettle).submitReceipt []).exportEdge
  if d.hive.st = .idle then d.hiveSettle else d

/-- One edge of the crystal or the RC oscillator, with the fast clocks stopped; without the always-on supply only time passes. -/
def Dev.slowTick (d : Dev) : Dev :=
  let n := d.time.aon.toEdge
  let d := { d with clk := d.clk + n }
  if d.supply.vbat || d.supply.vddIo then
    let on := d.supply.pgood
    d.onAonTime fun a => if on then (a.pass n false).operate n else a.pass n false
  else d

/-- What passes while the queue is empty. -/
def Dev.tick (d : Dev) : Dev := if d.supply.clocks then d.fastTick else d.slowTick

end Sys2Proof.Machine
end

