-- ==== Sys2Proof/Safety.lean ====
section
/-! DEFINITION. The terms in which the claims are stated: when an instruction issues and how it ends, the invariant of the
cores, and the changes of mode and of life cycle that the spec lists. -/
namespace Sys2Proof.Machine

/-- The command completes, the waiting commands stay as they are, and `P` holds of the device afterwards. -/
def Completes (i : Instr) (s : State) (P : Dev → Prop) : Prop := ∃ t, exec i s = .next t ∧ t.pending = s.pending ∧ P t.dev

/-! Kwaxon-48 instructions -/

/-- The instruction of `u` issues and its fetch is served; `d` is the device as the instruction finds it (R490). -/
def Starts (s : State) (u : Issue) (d : Dev) : Prop :=
  s.dev.mayIssue u.core = true ∧ ∃ e, s.dev.fetch u = .ok e ∧ d = e.onCore u.core fun c => { c with waiting := false }

/-- No taken branch to an address outside I-space waits for the end of this instruction (R471). -/
def Core.slotSound (c : Core) : Prop := ∀ x, c.slot = some x → x.taken = true → x.target < 2 ^ 24

/-- A core after an instruction that is no control transfer, with the PSW that waits for the shadow, if any (R471, R473, R479). -/
def Core.after (c : Core) (shadow : Option Psw) : Core := ({ c with landed := false }.follow).retire shadow

/-- The device after an instruction that changes its core by `g` and is no control transfer. -/
def Dev.finishes (d : Dev) (n : Nat) (g : Core → Core) : Dev := (d.stepped n).onCore n fun c => (g c).after none

/-- The instruction starts, and no earlier branch fails at its end. -/
def Runs (s : State) (u : Issue) (d : Dev) : Prop := Starts s u d ∧ (d.core u.core).slotSound

/-- A control transfer may stand here: no slot and no shadow, and no active loop ends here or, for a delayed branch, at the
next address (R472, R475). -/
def Core.ctlAllowed (c : Core) (delayed : Bool) : Prop :=
  c.slot = none ∧ c.shadow = none
    ∧ (c.psw.lact0 = true → c.pc ≠ c.loop0.stop ∧ (delayed = true → c.pc + 1 ≠ c.loop0.stop))
    ∧ (c.psw.lact1 = true → c.pc ≠ c.loop1.stop ∧ (delayed = true → c.pc + 1 ≠ c.loop1.stop))

/-- The address of a memory instruction lies in D-space, and the MPU allows the access: kind 0 reads, 1 writes (R461, R507). -/
def Dev.dataAt (d : Dev) (u : Issue) (f : FormM) (kind a : Nat) : Prop :=
  ((d.core u.core).address f).1.toNat = a ∧ a < sramWords u.core ∧ a < 2 ^ 32
    ∧ d.mpuCheck u.core (d.core u.core).psw.priv 1 kind a = none

/-- An address register field of five bits, and an accumulator field, name one (R459). -/
abbrev namesA (i : BitVec 5) : Prop := i.toNat < 16
abbrev namesAc (i : BitVec 5) : Prop := i.toNat < 4

/-- The instruction ends in the next state with `v` in D[rd], of which `P` holds, and nothing else changed but the order of
instructions. -/
def GivesD (i : Instr) (s : State) (u : Issue) (d : Dev) (rd : BitVec 5) (P : W48 → Prop) : Prop :=
  ∃ v, exec i s = .next { s with dev := d.finishes u.core fun c => c.setD rd v } ∧ P v

/-- The same with A[rd]. -/
def GivesA (i : Instr) (s : State) (u : Issue) (d : Dev) (rd : Nat) (P : W48 → Prop) : Prop :=
  ∃ v, exec i s = .next { s with dev := d.finishes u.core fun c => c.setA rd v } ∧ P v

/-- The same with AC[rd]. -/
def GivesAc (i : Instr) (s : State) (u : Issue) (d : Dev) (rd : BitVec 5) (P : Acc → Prop) : Prop :=
  ∃ v, exec i s = .next { s with dev := d.finishes u.core fun c => c.setAc rd v } ∧ P v

/-- The instruction is a delayed branch to `target`: the core changes by `g`, its slot comes next, and it is counted (R471). -/
def Branches (i : Instr) (s : State) (u : Issue) (d : Dev) (g : Core → Core) (target : Nat) (taken : Bool) : Prop :=
  exec i s = .next
    { s with dev := (d.stepped u.core).onCore u.core fun c =>
        { (g c).retire none with
          slot := some { branch := c.pc, target := target, taken := taken }, pc := (c.pc + 1) % 2 ^ 24, landed := false } }

/-- The instruction raises `e`. -/
def Raises (i : Instr) (s : State) (u : Issue) (d : Dev) (e : Exc) : Prop :=
  exec i s = .next { s with dev := d.raise u.core e }

/-! The invariant of the cores -/

/-- Addresses of I-space and counts of a hardware loop fit their registers (R473). -/
def LoopRegs.sound (l : LoopRegs) : Prop := l.start < 2 ^ 24 ∧ l.stop < 2 ^ 24 ∧ l.count < 2 ^ 32

/-- Every register holds a value of its width, every address of an instruction lies in I-space, and both memories are in their
canonical form (R458, R471, R473, R478, R487, R495). -/
def Core.sound (c : Core) : Prop :=
  c.pc < 2 ^ 24 ∧ (∀ x, c.slot = some x → x.branch < 2 ^ 24) ∧ c.loop0.sound ∧ c.loop1.sound
    ∧ c.vbr < 2 ^ 32 ∧ c.vbr % 64 = 0 ∧ c.pceil < 4 ∧ c.eha < 2 ^ 24 ∧ c.cycles < 2 ^ 48 ∧ c.retired < 2 ^ 48
    ∧ (∀ k, (vget c.mods k {}).len ≤ 2 ^ 20 ∧ (vget c.mods k {}).nbits ≤ 20)
    ∧ spWf zeroWord c.dmem = true ∧ spWf zeroWord c.imem = true

/-! The life cycle -/

/-- A transition of the table of R441, by whoever requests it; the DESTROY path apart. -/
def lcTable (old new : LcSt) : Prop :=
  (old = .blank ∧ (new = .provision ∨ new = .retired))
    ∨ (old = .provision ∧ (new = .fleet ∨ new = .tampered ∨ new = .retired))
    ∨ (old = .fleet ∧ (new = .service ∨ new = .tampered ∨ new = .retired))
    ∨ (old = .service ∧ (new = .fleet ∨ new = .tampered ∨ new = .retired))
    ∨ (old = .tampered ∧ (new = .service ∨ new = .retired))

/-! Custody time -/

/-- A 64-bit register as a signed number. -/
def signed64 (v : Nat) : Int := if 9223372036854775808 ≤ v then (v : Int) - 18446744073709551616 else v

/-- `e` has taken the measured offset `o` (units of 2^-32 s) as R155 says: a step of the accumulator where the offset is above
the threshold and steps are enabled, and otherwise a slew that replaces the one under way; an offset too far below sets bit 2
of TIME_ERR. -/
def Corrects (d : Dev) (o : Int) (e : Dev) : Prop :=
  let thr : Int := (d.time.cfg.stepThr : Int) * 4294967296 / 1000000
  if thr < o ∧ d.time.cfg.stepEn = true then
    e.time.servo.acc = ((d.time.servo.acc : Int) + o * 4294967296).toNat % 2 ^ 96 ∧ e.time.servo.slew = 0 ∧ flag e.time.cfg.err 1 = true
  else
    e.time.servo.acc = d.time.servo.acc ∧ e.time.servo.slew = o * 4294967296 ∧ (o < -thr → flag e.time.cfg.err 2 = true)

/-! Datagrams -/

/-- A datagram may arrive on `p`: the clocks run, the mode is neither STANDBY nor CLOSE, and the setting that the
port had at power-up names a rate (R231, R265, R286, R336). -/
def Dev.udpUp (d : Dev) (p : Nat) : Prop :=
  (p = 2 ∨ p = 3) ∧ d.supply.clocks = true ∧ d.power.mode ≠ .standby ∧ d.power.mode ≠ .close ∧ (d.port p).eth.cfg % 8 ≠ 0

/-! Start-up -/

/-- The device after the ROM's reads and checks, before it looks for a bank to hand over to (R227, R417, R419, R439, R444, R531). -/
def Dev.romChecks (d : Dev) : Dev := d.lifeRead.tecRead.genProgram.tecProgram.flashWipe.canaryCheck

/-! Tamper monitors -/

/-- One more event of a class stays below the number that raises its alarm (R403). -/
def Dev.belowAlarm (d : Dev) (c : Nat) : Prop :=
  ((vget d.tamper.events c []).filter fun t => decide (d.clk ≤ t + (vget d.tamper.cfg.cls c {}).window)).length + 1
    < (vget d.tamper.cfg.cls c {}).n

/-! Public-key tiles -/

/-- The operations with their codes (R338). -/
def tileRows : List ((Nat → Instr) × Nat) :=
  [(.falconSign, 0x01), (.falconVerify, 0x02), (.falconKeygen, 0x03), (.mlkemKeygen, 0x10), (.mlkemEncaps, 0x11),
   (.mlkemDecaps, 0x12), (.ecdsaP384Sign, 0x20), (.ecdsaP384Verify, 0x21), (.p384Keygen, 0x22), (.ecdhP384, 0x23),
   (.x25519, 0x30), (.x25519Keygen, 0x31), (.rsaVerify, 0x40)]

/-- The next completion entry of a submitter has these words: `q` are the queue registers before it (R343). -/
def Dev.tileNoted (e : Dev) (q : TileQueue) (sub w0 w1 : Nat) : Prop :=
  let at_ := q.cqBase + q.cqTail % 2 ^ q.size * 2
  spGet zeroWord (e.core sub).dmem at_ = BitVec.ofNat 48 w0 ∧ spGet zeroWord (e.core sub).dmem (at_ + 1) = BitVec.ofNat 48 w1

/-- Word 0 of the completion of a job that ran on tile `t` (R343). -/
def Dev.ranWord (d : Dev) (q : TileQueue) (j : Job) (t : Nat) (st : Status) (cause : Nat) : Nat :=
  j.tag + st.code % 4096 * 2 ^ 16 + phaseOf q.cqTail q.size * 2 ^ 28 + (if j.cmp then 2 ^ 29 else 0) + cause * 2 ^ 32
    + t * 2 ^ 36 + 2 ^ 39

/-! The key store -/

/-- A requester's key operation registers (R381). -/
def Dev.keyRegs (d : Dev) (who : Nat) : KeyOpRegs := vget d.keys.ops who {}

/-- A key with attribute word `a` may enter slot `n` for a requester: the slot is there, of that size and class, empty, and the
word fits it (R359, R360, R382). -/
abbrev Dev.takesKey (d : Dev) (who n a : Nat) : Prop :=
  attrDefined a = true ∧ 1 ≤ attrAlg a ∧ d.slotCheck n (attrAlg a) true = none ∧ (d.keySlot n).full = false ∧ mayPut who n a = true
    ∧ d.tooNew a = false

/-- The operation ends at once with a status, and no slot changes but `n`, which holds `k`. -/
def Dev.keyEnds (e d : Dev) (who : Nat) (st : Status) (n : Nat) (k : KeySlot → Prop) : Prop :=
  (e.keyRegs who).done = true ∧ (e.keyRegs who).busy = false ∧ (e.keyRegs who).status = st.code ∧ k (e.keySlot n)
    ∧ (∀ m, m ≠ n → e.keySlot m = d.keySlot m) ∧ e.keys.pending = d.keys.pending

/-- A record of a kind waits to be written; until then the requester is busy and no slot has changed (R379, R381). -/
def Dev.keyWaits (e d : Dev) (who kind n : Nat) (k : KeySlot → Prop) : Prop :=
  (e.keyRegs who).busy = true ∧ e.keys.slots = d.keys.slots
    ∧ ∃ p, e.keys.pending = d.keys.pending ++ [p] ∧ p.done = .op who ∧ p.rec_.kind = kind ∧ p.rec_.index = n ∧ k p.rec_.slot

/-! Commands of the host ports -/

/-- A slot or session waits for the response of the command it has sent (R253, R258); in CLOSE there is
none (R285). -/
abbrev Dev.waitsAt (d : Dev) (p i : Nat) : Prop :=
  d.power.mode ≠ .close
    ∧ ((p = 2 ∨ p = 3) ∧ i < 8 ∧ (d.sess p i).st = .active ∧ (d.sess p i).running = true
      ∨ ((p = 0 ∨ p = 1) ∧ i < 4 ∨ p = 4 ∧ i = 0) ∧ (d.slot p i).st = .busy)

/-- The response of the command that `d` holds for `p`, `i` has been delivered: its status and body (R255, R262, R268, R280). -/
def Dev.answered (e d : Dev) (p i st : Nat) (body : List Byte) : Prop :=
  let f := responseFrame (numAt (d.request p i) 6 2) (numAt (d.request p i) 12 4) st body
  if isUdp p then (e.sess p i).running = false ∧ (e.sess p i).cached = f
  else if (d.port p).pcie.d3hot then (e.slot p i).resp = some f
  else (e.slot p i).st = .done ∧ (e.slot p i).respLen = f.length ∧ spGetAll zeroByte (e.port p).mbx.win (respWindow p i) f.length = f

/-- Sharnolos takes the command of code `op` from `p`, `i` next, and its frame passes the checks of R282; `b` is its body (R257). -/
abbrev Dev.takes (d : Dev) (op p i : Nat) (b : List Byte) : Prop :=
  d.serves = true ∧ d.nextRequest = some (p, i) ∧ numAt (d.request p i) 6 2 = op ∧ (d.request p i).drop 16 = b ∧ d.waitsAt p i
    ∧ d.frameRights p i = none

/-- The device once Sharnolos has taken the request of `p`, `i` (R257). -/
def Dev.started (d : Dev) (p i : Nat) : Dev := { d with portsCfg := { d.portsCfg with arrivals := d.portsCfg.arrivals.erase (p, i) } }

/-- The command is answered, and nothing but the ports and what the device has sent differs from `d`. -/
def Dev.replied (e d : Dev) (p i st : Nat) (body : List Byte) : Prop :=
  e.answered d p i st body ∧ e = { d with ports := e.ports, out := e.out }

/-- Nothing differs from `d` but that the command waits with a body for its answer. -/
def Dev.awaits (e d : Dev) (p i : Nat) (w : WaitFor) (body : List Byte) : Prop :=
  e = { d with waits := d.waits ++ [{ port := p, slot := i, for_ := w, body := body }] }

/-- The checks of a command in their order: the first that fails answers with its status, with an empty body and no effect; where
none fails, `f` (R280, R282). -/
def Checked (c : Instr) (s : State) (p i : Nat) : List (Prop × Status) → Prop → Prop
  | [], f => f
  | (bad, st) :: l, f =>
    (bad → Completes c s fun e => e.replied (s.dev.started p i) p i st.code []) ∧ (¬bad → Checked c s p i l f)

/-- A reference into the session buffer is wrong (R283). -/
def badRef (p off len : Nat) : List (Prop × Status) :=
  [(len = 0, .badLength), (bufWords p < off + ceilDiv len 6, .lenTooLarge)]

/-- The bytes lie in the session buffer at a word offset, and no other word of it has changed (R284). -/
def Dev.buffered (e d : Dev) (p i off : Nat) (bs : List Byte) : Prop :=
  e.bufGet p i off bs.length = bs
    ∧ ∀ w, w < off ∨ off + ceilDiv bs.length 6 ≤ w →
      spGet zeroWord (e.sess p (sessOf p i)).buf w = spGet zeroWord (d.sess p (sessOf p i)).buf w

/-- The rows of the host commands with their opcodes (R288). -/
def commandRows (rb : Nat) (rs : List (List Bool × Bool)) (sel : Option (List Byte)) (auth : List Byte) (pr pa lv : Nat) :
    List ((Nat → Nat → Instr) × Nat) :=
  [(.getInfo, 0x0001), (.authHello, 0x0002), (.authProve, 0x0003), (.logout, 0x0004), (.bufWrite, 0x0005), (.bufRead, 0x0006),
   (.noticeSubscribe, 0x0007), (.setMode, 0x0008), (.shutdown, 0x0009), (.recovery, 0x000A), (.rngRead, 0x000B),
   (fun p i => .streamOpen p i false, 0x0101), (.streamClose, 0x0102), (.verifyOpen, 0x0103), (.verifyClose, 0x0104),
   (.verifyReanchor, 0x0105), (fun p i => .ringRetarget p i rb, 0x0106), (.streamStatus, 0x0107), (.hiveDemand, 0x0201),
   (.hiveAt, 0x0202), (.hivePeriods, 0x0203), (.hiveGet, 0x0204), (.holdPlace, 0x0301), (.holdRelease, 0x0302), (.holdList, 0x0303),
   (.storeExport, 0x0304), (.storeInfo, 0x0305), (.timeGet, 0x0401), (.timeSet, 0x0402), (.timeLabel, 0x0403), (.timeAlarm, 0x0404),
   (.identityGet, 0x0501), (.keyDeliver, 0x0502), (.keyStatement, 0x0503), (.keyInfo, 0x0504), (.logRead, 0x0601),
   (.logFreeze, 0x0602), (.logUnfreeze, 0x0603), (.logClear, 0x0604), (.lcGet, 0x0701), (.lcTransition, 0x0702),
   (.debugChallenge, 0x0703), (.debugUnlock, 0x0704), (.debugLock, 0x0705), (.fieldStatus, 0x0801), (.fieldPageUpdate, 0x0802),
   (fun p i => .fieldInventory p i rs, 0x0803), (fun p i => .fieldPair p i sel auth pr pa lv, 0x0804), (.extLoad, 0x0901),
   (.extStart, 0x0902), (.extStop, 0x0903), (.extStatus, 0x0904), (.fwStage, 0x0905), (.fwActivate, 0x0906), (.setRead, 0x0A01),
   (.setWrite, 0x0A02), (.setCommit, 0x0A03), (.setDiscard, 0x0A04)]

end Sys2Proof.Machine
end

