-- ==== Sys2Proof/Certificates/Slice0/Obligations.lean ====
section
/-! DEFINITION. What is claimed of the model, for the provers. -/
section
open Sys2Proof
open Sys2Proof.Machine

/-! Kwaxon-48 -/

/-- R468: the instructions on two data registers put their result in D[RD] and complete. -/
def Obligations.AluResults : Prop :=
  ∀ (s : State) (u : Issue) (f : FormR) (d : Dev), Runs s u d → f.resv = 0#17 →
    let a := (d.core u.core).dreg f.rs1
    let b := (d.core u.core).dreg f.rs2
    let gives := fun (i : Issue → FormR → Instr) (P : W48 → Prop) => GivesD (i u f) s u d f.rd P
    gives .cpuAdd (fun v => v.toNat = (a.toNat + b.toNat) % 2 ^ 48)
    ∧ gives .cpuSub (fun v => v.toNat = (a.toNat + (2 ^ 48 - b.toNat)) % 2 ^ 48)
    ∧ gives .cpuAnd (fun v => ∀ i, v.getLsbD i = (a.getLsbD i && b.getLsbD i))
    ∧ gives .cpuOr (fun v => ∀ i, v.getLsbD i = (a.getLsbD i || b.getLsbD i))
    ∧ gives .cpuXor (fun v => ∀ i, v.getLsbD i = (a.getLsbD i ^^ b.getLsbD i))
    ∧ gives .cpuAndn (fun v => ∀ i, v.getLsbD i = (a.getLsbD i && !b.getLsbD i))
    ∧ gives .cpuShl (fun v => v.toNat = a.toNat * 2 ^ b.toNat % 2 ^ 48)
    ∧ gives .cpuShr (fun v => v.toNat = a.toNat / 2 ^ b.toNat)
    ∧ gives .cpuSar (fun v => v.toInt = a.toInt / 2 ^ b.toNat)
    ∧ gives .cpuRol (fun v => ∀ i, i < 48 → v.getLsbD ((i + b.toNat) % 48) = a.getLsbD i)
    ∧ gives .cpuSlt (fun v => v.toNat = if a.toInt < b.toInt then 1 else 0)
    ∧ gives .cpuSltu (fun v => v.toNat = if a.toNat < b.toNat then 1 else 0)
    ∧ gives .cpuMin (fun v => v.toInt = min a.toInt b.toInt)
    ∧ gives .cpuMax (fun v => v.toInt = max a.toInt b.toInt)
    ∧ gives .cpuMinu (fun v => v.toNat = min a.toNat b.toNat)
    ∧ gives .cpuMaxu (fun v => v.toNat = max a.toNat b.toNat)
    ∧ gives .cpuMul (fun v => v.toNat = a.toNat * b.toNat % 2 ^ 48)
    ∧ gives .cpuMulh (fun v => v.toInt = a.toInt * b.toInt / 2 ^ 48)
    ∧ gives .cpuMulhu (fun v => v.toNat = a.toNat * b.toNat / 2 ^ 48)

/-- R468: ADDV, SUBV, the divisions and EXTACV where no arithmetic exception arises; and R469, R500 and R501: an arithmetic
fault is taken before anything is written where PREC = 1; where PREC = 0 the destination takes the value of R469, and
ARITH_ASYNC is pending or, while one is, CPU_ERR.ARITH_MULTI is set. -/
def Obligations.CheckedAndFaultingResults : Prop :=
  (∀ (s : State) (u : Issue) (f : FormR) (d : Dev), Runs s u d → f.resv = 0#17 →
    let a := (d.core u.core).dreg f.rs1
    let b := (d.core u.core).dreg f.rs2
    let gives := fun (i : Issue → FormR → Instr) (P : W48 → Prop) => GivesD (i u f) s u d f.rd P
    (-(2 ^ 47) ≤ a.toInt + b.toInt ∧ a.toInt + b.toInt < 2 ^ 47 → gives .cpuAddv fun v => v.toInt = a.toInt + b.toInt)
    ∧ (-(2 ^ 47) ≤ a.toInt - b.toInt ∧ a.toInt - b.toInt < 2 ^ 47 → gives .cpuSubv fun v => v.toInt = a.toInt - b.toInt)
    ∧ (b ≠ 0#48 →
        gives .cpuDiv (fun v => v = BitVec.ofInt 48 (a.toInt.tdiv b.toInt))
        ∧ gives .cpuDivu (fun v => v.toNat = a.toNat / b.toNat)
        ∧ gives .cpuRem (fun v => v.toInt = a.toInt.tmod b.toInt)
        ∧ gives .cpuRemu (fun v => v.toNat = a.toNat % b.toNat))
    ∧ (namesAc f.rs1 →
        let x := ((d.core u.core).acc f.rs1).toInt / 2 ^ min (b.toNat % 128) 111
        (-(2 ^ 47) ≤ x) → x < 2 ^ 47 → gives .cpuExtacv fun v => v.toInt = x))
  ∧ (∀ (s : State) (u : Issue) (f : FormR) (d : Dev), Runs s u d → f.resv = 0#17 →
    let c := d.core u.core
    let a := c.dreg f.rs1
    let b := c.dreg f.rs2
    let faults := fun (i : Issue → FormR → Instr) (cause : Nat) (P : W48 → Prop) =>
      (c.psw.prec = true → Raises (i u f) s u d { vec := 5, cause := cause })
      ∧ (c.psw.prec = false → ∃ v, P v ∧ exec (i u f) s = .next
          { s with dev := d.finishes u.core fun c =>
              if c.arith = none then { c.setD f.rd v with arith := some (c.pc, cause) }
              else { c.setD f.rd v with err := setBit c.err 1 } })
    (¬ (-(2 ^ 47) ≤ a.toInt + b.toInt ∧ a.toInt + b.toInt < 2 ^ 47) →
        faults .cpuAddv 1 fun v => v.toNat = (a.toNat + b.toNat) % 2 ^ 48)
    ∧ (¬ (-(2 ^ 47) ≤ a.toInt - b.toInt ∧ a.toInt - b.toInt < 2 ^ 47) →
        faults .cpuSubv 1 fun v => v.toNat = (a.toNat + (2 ^ 48 - b.toNat)) % 2 ^ 48)
    ∧ (b = 0#48 → faults .cpuDiv 2 (· = 0#48) ∧ faults .cpuDivu 2 (· = 0#48) ∧ faults .cpuRem 2 (· = a) ∧ faults .cpuRemu 2 (· = a))
    ∧ (namesAc f.rs1 →
        let x := (c.acc f.rs1).toInt / 2 ^ min (b.toNat % 128) 111
        (x < -(2 ^ 47) → faults .cpuExtacv 3 fun v => v.toInt = -(2 ^ 47))
        ∧ (2 ^ 47 ≤ x → faults .cpuExtacv 3 fun v => v.toInt = 2 ^ 47 - 1)))

/-- R468: CLZ, POPC, ABS, EXTB and INSB; and R466, R468: the instructions with an immediate and a data register as
destination. -/
def Obligations.BitByteAndImmediateResults : Prop :=
  (∀ (s : State) (u : Issue) (f : FormR) (d : Dev), Runs s u d → f.resv = 0#17 →
    let a := (d.core u.core).dreg f.rs1
    let b := (d.core u.core).dreg f.rs2
    let old := (d.core u.core).dreg f.rd
    let gives := fun (i : Issue → FormR → Instr) (P : W48 → Prop) => GivesD (i u f) s u d f.rd P
    (f.rs2 = 0#5 →
      gives .cpuClz (fun v => v.toNat ≤ 48 ∧ (∀ i, 48 - v.toNat ≤ i → a.getLsbD i = false)
          ∧ (v.toNat < 48 → a.getLsbD (47 - v.toNat) = true))
      ∧ gives .cpuPopc (fun v => v.toNat = ((List.range 48).map fun i => (a.getLsbD i).toNat).sum))
    ∧ gives .cpuAbs (fun v => v = BitVec.ofInt 48 a.toInt.natAbs)
    ∧ gives .cpuExtb (fun v => v.toNat = if b.toNat ≤ 5 then a.toNat / 256 ^ b.toNat % 256 else 0)
    ∧ gives .cpuInsb (fun v => ∀ i, i < 48 → v.getLsbD i = if i / 8 = b.toNat then a.getLsbD (i % 8) else old.getLsbD i))
  ∧ ((∀ (s : State) (u : Issue) (f : FormI) (d : Dev), Runs s u d →
    let a := (d.core u.core).dreg f.rs1
    let gives := fun (i : Issue → FormI → Instr) (P : W48 → Prop) => GivesD (i u f) s u d f.rd P
    gives .cpuAddi (fun v => v = BitVec.ofInt 48 (a.toInt + f.imm.toInt))
    ∧ gives .cpuAndi (fun v => ∀ i, v.getLsbD i = (a.getLsbD i && f.imm.getLsbD i))
    ∧ gives .cpuOri (fun v => ∀ i, v.getLsbD i = (a.getLsbD i || f.imm.getLsbD i))
    ∧ gives .cpuXori (fun v => ∀ i, v.getLsbD i = (a.getLsbD i ^^ f.imm.getLsbD i))
    ∧ gives .cpuSlti (fun v => v.toNat = if a.toInt < f.imm.toInt then 1 else 0)
    ∧ gives .cpuSltiu (fun v => v.toNat = if (a.toNat : Int) < f.imm.toInt % 2 ^ 48 then 1 else 0)
    ∧ (f.imm.toNat < 64 →
        gives .cpuShli (fun v => v.toNat = a.toNat * 2 ^ f.imm.toNat % 2 ^ 48)
        ∧ gives .cpuShri (fun v => v.toNat = a.toNat / 2 ^ f.imm.toNat)
        ∧ gives .cpuSari (fun v => v.toInt = a.toInt / 2 ^ f.imm.toNat)))
  ∧ (∀ (s : State) (u : Issue) (f : FormL) (d : Dev), Runs s u d → f.resv = 0#3 →
    GivesD (.cpuLi u f) s u d f.rd (fun v => v.toInt = f.imm.toInt)
    ∧ (f.imm.toNat < 2 ^ 16 → GivesD (.cpuLih u f) s u d f.rd fun v =>
        v.toNat % 2 ^ 32 = ((d.core u.core).dreg f.rd).toNat % 2 ^ 32 ∧ v.toNat / 2 ^ 32 = f.imm.toNat)))

/-- R468: the accumulator instructions that raise no exception. -/
def Obligations.AccumulatorResults : Prop :=
  ∀ (s : State) (u : Issue) (f : FormR) (d : Dev), Runs s u d → f.resv = 0#17 →
    let c := d.core u.core
    let a := c.dreg f.rs1
    let b := c.dreg f.rs2
    let gives := fun (i : Issue → FormR → Instr) (P : Acc → Prop) => GivesAc (i u f) s u d f.rd P
    let reads := fun (i : Issue → FormR → Instr) (P : W48 → Prop) => GivesD (i u f) s u d f.rd P
    (namesAc f.rd →
      let x := c.acc f.rd
      gives .cpuMac (fun v => v = BitVec.ofInt 112 (x.toInt + a.toInt * b.toInt))
      ∧ gives .cpuMsu (fun v => v = BitVec.ofInt 112 (x.toInt - a.toInt * b.toInt))
      ∧ gives .cpuMacu (fun v => v = BitVec.ofInt 112 (x.toInt + a.toNat * b.toNat))
      ∧ gives .cpuMpy (fun v => v.toInt = a.toInt * b.toInt)
      ∧ (f.rs1 = 0#5 → f.rs2 = 0#5 → gives .cpuClrac (· = 0#112))
      ∧ gives .cpuShac (fun v =>
          (0 ≤ a.toInt → v.toNat = x.toNat * 2 ^ a.toInt.toNat % 2 ^ 112)
          ∧ (a.toInt < 0 → v.toInt = x.toInt / 2 ^ min (-a.toInt).toNat 111))
      ∧ gives .cpuLdacl (fun v => v.extractLsb' 0 48 = a ∧ v.extractLsb' 48 64 = x.extractLsb' 48 64)
      ∧ gives .cpuLdacm (fun v => v.extractLsb' 48 48 = a ∧ v.extractLsb' 0 48 = x.extractLsb' 0 48
          ∧ v.extractLsb' 96 16 = x.extractLsb' 96 16)
      ∧ gives .cpuLdach (fun v => v.extractLsb' 96 16 = a.extractLsb' 0 16 ∧ v.extractLsb' 0 96 = x.extractLsb' 0 96))
    ∧ (namesAc f.rs1 →
      let y := c.acc f.rs1
      let z := y.toInt / 2 ^ min (b.toNat % 128) 111
      reads .cpuMfacl (fun v => v.toNat = y.toNat % 2 ^ 48)
      ∧ reads .cpuMfacm (fun v => v.toNat = y.toNat / 2 ^ 48 % 2 ^ 48)
      ∧ reads .cpuMfach (fun v => v.toInt = y.toInt / 2 ^ 96)
      ∧ reads .cpuExtac (fun v => v.toInt = max (-(2 ^ 47)) (min z (2 ^ 47 - 1))))

/-- R462, R463: addresses and writebacks of the addressing modes, DISP23 a signed number of words; and R466, R468: the
address instructions. -/
def Obligations.AddressesAndModes : Prop :=
  (∀ (c : Core) (f : FormM),
    let a := c.areg f.ab.toNat
    let x := c.dreg f.ix
    let m := vget c.mods f.ab.toNat {}
    let plus := fun (v : W48) => BitVec.ofInt 48 (v.toInt + f.disp.toInt)
    (f.mode = 0#3 → c.address f = (plus a, none))
    ∧ (f.mode = 1#3 → c.address f = (plus (a + x), none))
    ∧ (f.mode = 2#3 → c.address f = (a, some (plus a)))
    ∧ (f.mode = 3#3 → c.address f = (plus a, some (plus a)))
    ∧ (f.mode = 5#3 → 1 ≤ m.len → m.len ≤ 1048576 → ∃ p w, c.address f = (a, some w)
        ∧ (∃ k, p = 2 ^ k) ∧ m.len ≤ p ∧ p < 2 * m.len
        ∧ w = BitVec.ofNat 48 (a.toNat - a.toNat % p + (((a.toNat % p : Int) + f.disp.toInt).emod m.len).toNat))
    ∧ (f.mode = 6#3 → 1 ≤ m.nbits → m.nbits ≤ 20 →
        let n := m.nbits
        ∃ w, c.address f = (a, some w) ∧ w.toNat / 2 ^ n = a.toNat / 2 ^ n
          ∧ revBits n (w.toNat % 2 ^ n) = (revBits n (a.toNat % 2 ^ n) + revBits n (f.disp.toInt.emod (2 ^ n)).toNat) % 2 ^ n))
  ∧ (∀ (s : State) (u : Issue) (f : FormR) (g : FormI) (l : FormL) (d : Dev), Runs s u d → f.resv = 0#17 → l.resv = 0#3 →
    let c := d.core u.core
    (namesA f.rd →
      GivesA (.cpuMova u f) s u d f.rd.toNat (· = c.dreg f.rs1)
      ∧ (namesA f.rs1 →
          GivesA (.cpuAdda u f) s u d f.rd.toNat (fun v =>
            v.toNat = ((c.areg f.rs1.toNat).toNat + (c.dreg f.rs2).toNat) % 2 ^ 48)
          ∧ GivesA (.cpuSuba u f) s u d f.rd.toNat (fun v =>
            v.toNat = ((c.areg f.rs1.toNat).toNat + (2 ^ 48 - (c.dreg f.rs2).toNat)) % 2 ^ 48)))
    ∧ (namesA f.rs1 → GivesD (.cpuMovd u f) s u d f.rd (· = c.areg f.rs1.toNat))
    ∧ (namesA g.rd → namesA g.rs1 → GivesA (.cpuAddai u g) s u d g.rd.toNat fun v =>
        v = BitVec.ofInt 48 ((c.areg g.rs1.toNat).toInt + g.imm.toInt))
    ∧ (namesA l.rd → GivesA (.cpuLia u l) s u d l.rd.toNat fun v => v.toNat = l.imm.toNat))

/-- R461, R462, R468: loads and stores of D-space; and R465, R468, R482, R514: IN, OUT, ILD and IST where the MPU allows the
access and the addressed block or word serves it. -/
def Obligations.MemoryIoAndInstructionSpace : Prop :=
  (∀ (s : State) (u : Issue) (f : FormM) (d : Dev) (a : Nat), Runs s u d → f.mode ≠ 4#3 → f.mode ≠ 7#3 →
    modeLate f true d (d.core u.core) = none →
    let c := d.core u.core
    let wb := (c.address f).2
    (d.dataAt u f 0 a → u.dataCode = true →
      (∃ v, exec (.cpuLd u f) s = .next { s with dev := d.finishes u.core fun c => (c.writeBack f wb).setD f.rt v }
        ∧ v = spGet (fun _ => 0#48) c.dmem a)
      ∧ (namesA f.rt →
        ∃ v, exec (.cpuLda u f) s = .next { s with dev := d.finishes u.core fun c => (c.writeBack f wb).setA f.rt.toNat v }
          ∧ v = spGet (fun _ => 0#48) c.dmem a))
    ∧ (d.dataAt u f 1 a →
      (∃ m, exec (.cpuSt u f) s = .next { s with dev := d.finishes u.core fun c => { c.writeBack f wb with dmem := m } }
        ∧ spGet (fun _ => 0#48) m a = c.dreg f.rt
        ∧ ∀ b, b ≠ a → spGet (fun _ => 0#48) m b = spGet (fun _ => 0#48) c.dmem b)
      ∧ (namesA f.rt →
        ∃ m, exec (.cpuSta u f) s = .next { s with dev := d.finishes u.core fun c => { c.writeBack f wb with dmem := m } }
          ∧ spGet (fun _ => 0#48) m a = c.areg f.rt.toNat
          ∧ ∀ b, b ≠ a → spGet (fun _ => 0#48) m b = spGet (fun _ => 0#48) c.dmem b)))
  ∧ (∀ (s : State) (u : Issue) (f : FormM) (d : Dev), Runs s u d → f.mode.toNat < 4 →
    let n := u.core
    let c := d.core n
    let a := (c.address f).1.toNat
    let wb := (c.address f).2
    let allowed := fun (space kind : Nat) => a < spaceWords space ∧ d.mpuCheck n c.psw.priv space kind a = none
    (∀ v e, allowed 2 0 → d.ioRead n c.psw.priv a = some (v, e) → u.dataCode = true →
      exec (.cpuIn u f) s = .next { s with dev := e.loaded n f fun c => c.setD f.rt (BitVec.ofNat 48 v) })
    ∧ (∀ e, allowed 2 1 → d.ioWrite n c.psw.priv a (c.dreg f.rt).toNat = some e → d.restarted e = false →
      exec (.cpuOut u f) s = .next { s with dev := (e.onCore n fun k => k.writeBack f wb).complete n })
    ∧ (allowed 2 0 → d.ioRead n c.psw.priv a = none → Raises (.cpuIn u f) s u d (busError 3 2 0 a))
    ∧ (allowed 2 1 → d.ioWrite n c.psw.priv a (c.dreg f.rt).toNat = none → Raises (.cpuOut u f) s u d (busError 3 2 1 a))
    ∧ (∀ e, allowed 0 0 → d.ispaceRead n 0 a u.dataCode = .ok e →
      exec (.cpuIld u f) s = .next { s with dev := (e.ispaceWord n a).2.loaded n f fun c => c.setD f.rt (e.ispaceWord n a).1 })
    ∧ (allowed 0 1 → c.psw.priv ≠ .user → writableIspace n a = true →
      ∃ m, exec (.cpuIst u f) s = .next { s with dev := d.finishes n fun c => { c.writeBack f wb with imem := m } }
        ∧ spGet (fun _ => 0#48) m a = c.dreg f.rt
        ∧ ∀ b, b ≠ a → spGet (fun _ => 0#48) m b = spGet (fun _ => 0#48) c.imem b)
    ∧ (allowed 0 1 → c.psw.priv ≠ .user → n = 0 → a < 0x400000 → Raises (.cpuIst u f) s u d (busError 5 0 1 a))
    ∧ (c.psw.priv = .user → Raises (.cpuIst u f) s u d (privilege 1)))

/-- R470, R471: the delayed branches decide, link and leave their slot to come next. -/
def Obligations.DelayedBranches : Prop :=
  ∀ (s : State) (u : Issue) (b : FormB) (j : FormJ) (r : FormR) (d : Dev), Starts s u d → (d.core u.core).ctlAllowed true →
    let c := d.core u.core
    let link := fun (n : Nat) (c : Core) => c.setA n (BitVec.ofNat 48 (c.pc + 2))
    (b.cond.toNat < 12 → FormB.resvSet b = false →
      let x := c.dreg b.rs1
      let y := if b.immf then BitVec.ofInt 48 b.opnd.toInt else c.dreg b.rs2
      ∃ taken, Branches (.cpuBcc u b) s u d id (((c.pc : Int) + b.off.toInt).emod (2 ^ 48)).toNat taken
        ∧ (b.cond = 0#4 → (taken = true ↔ x = y)) ∧ (b.cond = 1#4 → (taken = true ↔ x ≠ y))
        ∧ (b.cond = 2#4 → (taken = true ↔ x.toInt < y.toInt)) ∧ (b.cond = 3#4 → (taken = true ↔ y.toInt ≤ x.toInt))
        ∧ (b.cond = 4#4 → (taken = true ↔ x.toNat < y.toNat)) ∧ (b.cond = 5#4 → (taken = true ↔ y.toNat ≤ x.toNat))
        ∧ (b.cond = 6#4 → (taken = true ↔ x.getLsbD y.toNat = true)) ∧ (b.cond = 7#4 → (taken = true ↔ x.getLsbD y.toNat = false))
        ∧ (b.cond = 8#4 → (taken = true ↔ y.toInt < x.toInt)) ∧ (b.cond = 9#4 → (taken = true ↔ x.toInt ≤ y.toInt))
        ∧ (b.cond = 10#4 → (taken = true ↔ y.toNat < x.toNat)) ∧ (b.cond = 11#4 → (taken = true ↔ x.toNat ≤ y.toNat)))
    ∧ (j.resv = 0#12 →
      (j.ra = 0#4 → Branches (.cpuJ u j) s u d id j.tgt.toNat true)
      ∧ Branches (.cpuCall u j) s u d (link j.ra.toNat) j.tgt.toNat true)
    ∧ (r.resv = 0#17 → namesA r.rs1 →
      Branches (.cpuJr u r) s u d id (c.areg r.rs1.toNat).toNat true
      ∧ (namesA r.rd → Branches (.cpuCallr u r) s u d (link r.rd.toNat) (c.areg r.rs1.toNat).toNat true))

/-- R471, R473, R476: what follows an instruction that is no control transfer: the slot's transfer, a loop's next round, or
the next address; and R473, R474: LOOP checks its operands in order, and starts a level. -/
def Obligations.LoopsAndWhatComesNext : Prop :=
  (∀ (c : Core) (sh : Option Psw),
    let n := c.after sh
    (c.slot = none → ¬ (c.psw.lact0 = true ∧ c.loop0.stop = c.pc) → ¬ (c.psw.lact1 = true ∧ c.loop1.stop = c.pc) →
      n.pc = (c.pc + 1) % 2 ^ 24 ∧ n.loop0 = c.loop0 ∧ n.loop1 = c.loop1)
    ∧ (c.slot = none → c.psw.lact1 = true → c.loop1.stop = c.pc → 1 < c.loop1.count → c.loop1.count < 2 ^ 32 →
      n.pc = c.loop1.start ∧ n.loop1.count = c.loop1.count - 1 ∧ n.loop0 = c.loop0)
    ∧ (c.slot = none → c.psw.lact0 = true → c.loop0.stop = c.pc → c.psw.lact1 = false → 1 < c.loop0.count → c.loop0.count < 2 ^ 32 →
      n.pc = c.loop0.start ∧ n.loop0.count = c.loop0.count - 1 ∧ n.loop1 = c.loop1)
    ∧ (c.slot = none → c.shadow = none → c.psw.lact0 = true → c.loop0.stop = c.pc → c.psw.lact1 = false → c.loop0.count = 1 →
      n.pc = (c.pc + 1) % 2 ^ 24 ∧ n.loop0.count = 0 ∧ n.psw = { c.psw with lact0 := false })
    ∧ (∀ x, c.slot = some x → x.taken = false → n.pc = (c.pc + 1) % 2 ^ 24 ∧ n.slot = none)
    ∧ (∀ x, c.slot = some x → x.taken = true → x.target < 2 ^ 24 → n.pc = x.target ∧ n.slot = none ∧ n.landed = true
      ∧ (c.shadow = none → c.psw.lact0 = true → x.target < c.loop0.start ∨ c.loop0.stop < x.target →
          n.psw.lact0 = false ∧ n.psw.lact1 = false ∧ n.loop0 = c.loop0)
      ∧ (c.shadow = none → c.loop0.start ≤ x.target → x.target ≤ c.loop0.stop → n.psw.lact0 = c.psw.lact0))
    ∧ (c.shadow = none → c.psw.priv = n.psw.priv) ∧ (∀ p, c.shadow = some p → n.psw = p)
    ∧ n.shadow = sh ∧ n.afterShadow = c.shadow.isSome ∧ n.retired = (c.retired + 1) % 2 ^ 48
    ∧ n.a = c.a ∧ n.d = c.d ∧ n.ac = c.ac ∧ n.dmem = c.dmem ∧ n.imem = c.imem ∧ n.mods = c.mods ∧ n.vbr = c.vbr
    ∧ n.esp = c.esp ∧ n.pceil = c.pceil ∧ n.mpu = c.mpu ∧ n.arith = c.arith ∧ n.cycles = c.cycles ∧ n.err = c.err)
  ∧ (∀ (s : State) (u : Issue) (f : FormP) (d : Dev), Starts s u d → f.resv = 0#1 → (d.core u.core).ctlAllowed false →
    let c := d.core u.core
    let stop := c.pc + f.stop.toNat
    let count := if f.immf then f.cnt.toNat else (c.dreg f.rs).toNat
    let depth := if f.lvl then c.psw.lact0 = true ∧ c.psw.lact1 = false else c.psw.lact0 = false ∧ c.psw.lact1 = false
    let range := 1 ≤ f.stop.toNat ∧ stop < 2 ^ 24 ∧ (f.lvl = true → stop < c.loop0.stop)
    (¬ depth → Raises (.cpuLoop u f) s u d (illegal 5))
    ∧ (depth → ¬ range → Raises (.cpuLoop u f) s u d (illegal 6))
    ∧ (depth → range → 2 ^ 32 ≤ count → Raises (.cpuLoop u f) s u d (illegal 7))
    ∧ (depth → range → count < 2 ^ 32 →
      ∃ t k, exec (.cpuLoop u f) s = .next t ∧ k = t.dev.core u.core ∧ t.pending = s.pending
        ∧ (if f.lvl then k.loop1 else k.loop0) = { start := (c.pc + 1) % 2 ^ 24, stop := stop, count := count }
        ∧ (if f.lvl then k.psw.lact1 else k.psw.lact0) = decide (count ≠ 0)
        ∧ k.pc = (if count = 0 then stop + 1 else c.pc + 1) % 2 ^ 24
        ∧ k.d = c.d ∧ k.a = c.a ∧ k.dmem = c.dmem ∧ k.retired = (c.retired + 1) % 2 ^ 48))

/-- R465, R468, R482: the system instructions that take no exception; and R489, R494: TRAP enters vector 6 with its code in
AUX, and BRK vector 7 or, where a debugger reaches the core, a halt; the resume address is the next instruction. -/
def Obligations.SystemTrapAndBreakpoint : Prop :=
  (∀ (s : State) (u : Issue) (f : FormS) (d : Dev), Runs s u d → f.resv = 0#5 →
    let n := u.core
    let c := d.core n
    exec (.cpuNop u f) s = .next { s with dev := d.finishes n id }
    ∧ exec (.cpuFence u f) s = .next { s with dev := d.finishes n id }
    ∧ (c.psw.priv ≠ .user → 0 < n → exec (.cpuSynci u f) s = .next { s with dev := d.finishes n id })
    ∧ (c.psw.priv ≠ .user → n = 0 → ∃ e : Dev, exec (.cpuSynci u f) s = .next { s with dev := (e.finishes n id) }
        ∧ e.cores = d.cores ∧ e.flash.prefetch = [] ∧ e.flash.branches = [])
    ∧ (c.psw.priv ≠ .user → c.ctlAllowed false →
        ∃ t, exec (.cpuWait u f) s = .next t ∧ (t.dev.core n).pc = (c.pc + 1) % 2 ^ 24
          ∧ ((t.dev.core n).waiting = true ↔ d.pendingVec n = none)
          ∧ (t.dev.core n).retired = (c.retired + 1) % 2 ^ 48 ∧ (t.dev.core n).d = c.d)
    ∧ (c.psw.priv = .user → Raises (.cpuSynci u f) s u d (privilege 1))
    ∧ (c.psw.priv = .user → c.ctlAllowed false → Raises (.cpuWait u f) s u d (privilege 1)))
  ∧ (∀ (s : State) (u : Issue) (f : FormS) (d : Dev), Starts s u d → f.resv = 0#5 → (d.core u.core).ctlAllowed false →
    let n := u.core
    let next := ((d.core n).pc + 1) % 2 ^ 24
    Raises (.cpuTrap u f) s u d { vec := 6, cause := 0, aux := f.imm.toNat, ret := some next }
    ∧ (¬ (d.debugOn = true ∧ d.coreInReach n = true) → Raises (.cpuBrk u f) s u d { vec := 7, cause := 0, ret := some next })
    ∧ (d.debugOn = true → d.coreInReach n = true →
      ∃ t, exec (.cpuBrk u f) s = .next t ∧ t.dev.dbg.halted.testBit n = true ∧ (t.dev.core n).pc = next
        ∧ (t.dev.core n).d = (d.core n).d ∧ (t.dev.core n).dmem = (d.core n).dmem))

/-- R478, R479, R485, R486: MFS and MTS. -/
def Obligations.SystemRegisters : Prop :=
  ∀ (s : State) (u : Issue) (f : FormS) (d : Dev) (r : Priv) (w : Option Priv), Runs s u d → f.resv = 0#5 →
    sysLevels f.sel.toNat = some (r, w) →
    let n := u.core
    let c := d.core n
    let sel := f.sel.toNat
    let v := (c.dreg f.reg).toNat
    (r.code ≤ c.psw.priv.code → GivesD (.cpuMfs u f) s u d f.reg fun x =>
        (sel = 0 → x.toNat % 4 = c.psw.priv.code ∧ x.getLsbD 2 = c.psw.exm ∧ x.getLsbD 3 = c.psw.prec ∧ x.getLsbD 4 = c.psw.lact0
          ∧ x.getLsbD 5 = c.psw.lact1 ∧ x.getLsbD 6 = c.psw.esc ∧ x.toNat < 128)
        ∧ (sel = 1 → x = BitVec.ofNat 48 c.vbr) ∧ (sel = 2 → x = c.esp) ∧ (sel = 3 → x = BitVec.ofNat 48 c.pceil)
        ∧ (sel = 4 → x.toNat = n) ∧ (sel = 10 → x = BitVec.ofNat 48 c.loop0.count) ∧ (sel = 24 → x = BitVec.ofNat 48 c.cycles)
        ∧ (sel = 25 → x = BitVec.ofNat 48 c.retired))
    ∧ (c.psw.priv.code < r.code → Raises (.cpuMfs u f) s u d (privilege 2))
    ∧ (mtsLate f d c = none → (∀ p, w = some p → c.psw.priv.code < p.code) → Raises (.cpuMts u f) s u d (privilege 2))
    ∧ (∀ p, mtsLate f d c = none → w = some p → p.code ≤ c.psw.priv.code → sel ≠ 0 →
        exec (.cpuMts u f) s = .next { s with dev := d.finishes n fun c => c.sysWrite sel v })
    ∧ (∀ p q, mtsLate f d c = none → w = some p → p.code ≤ c.psw.priv.code → sel = 0 → q.code = v % 4 →
        (c.psw.priv.code < q.code → Raises (.cpuMts u f) s u d (privilege 3))
        ∧ (q.code ≤ c.psw.priv.code → exec (.cpuMts u f) s = .next
            { s with dev := (d.stepped n).onCore n fun c =>
                c.after (some { priv := q, exm := v.testBit 2, prec := v.testBit 3, lact0 := v.testBit 4, lact1 := v.testBit 5, esc := false }) }))
    ∧ (sel = 0 → (v % 4 = 2 ∨ 64 ≤ v) → Raises (.cpuMts u f) s u d (illegal 2))
    ∧ (8 ≤ sel → sel ≤ 10 → c.psw.lact0 = true → Raises (.cpuMts u f) s u d (illegal 8))

/-- R491, R493, R494: a synchronous fault taken with EXM = 0 pushes its frame below A15 and enters the handler of its vector
at the greater of the handler's privilege and the core's; and R495, R497, R498: a synchronous fault with EXM = 1 escalates
with reason EXM, and with ESC = 1 it locks the core up. -/
def Obligations.ExceptionEntryAndLockup : Prop :=
  (∀ (d : Dev) (n : Nat) (e : Exc) (pc : Nat) (p : Priv),
    let c := d.core n
    let h := if p.code < c.psw.priv.code then c.psw.priv else p
    let base := (c.areg 15).toNat - 8
    n < 9 → e.vec ≠ 8 → c.psw.exm = false → c.psw.esc = false → d.vector n e.vec = some (pc, p) →
    d.mpuCheck n h 1 0 (c.vbr + e.vec) = none → 8 ≤ (c.areg 15).toNat → (c.areg 15).toNat ≤ sramWords n →
    (∀ i, i < 8 → d.mpuCheck n h 1 1 (base + i) = none) →
    let k := (d.raise n e).core n
    k.pc = pc ∧ k.psw = { c.psw with priv := h, exm := true, lact0 := false, lact1 := false } ∧ (k.areg 15).toNat = base
    ∧ k.slot = none ∧ k.shadow = none ∧ k.lastVec = e.vec ∧ k.lastCause = e.cause ∧ k.d = c.d ∧ k.ac = c.ac
    ∧ (∀ i, i < 15 → k.areg i = c.areg i) ∧ k.loop0 = c.loop0 ∧ k.loop1 = c.loop1
    ∧ spGetAll (fun _ => 0#48) k.dmem base 8 = c.frame e 0
    ∧ (∀ a, a < base ∨ base + 8 ≤ a → spGet (fun _ => 0#48) k.dmem a = spGet (fun _ => 0#48) c.dmem a))
  ∧ (∀ (d : Dev) (n : Nat) (e : Exc), n < 9 → e.vec ≠ 8 →
    let c := d.core n
    let base := c.esp.toNat - 8
    (c.psw.exm = true → c.psw.esc = false → 8 ≤ c.esp.toNat → c.esp.toNat ≤ sramWords n →
      let k := (d.raise n e).core n
      k.pc = c.eha ∧ k.psw = { c.psw with priv := .machine, exm := true, esc := true, lact0 := false, lact1 := false }
      ∧ (k.areg 15).toNat = base ∧ k.esp = c.esp ∧ k.escCnt = satInc 16 c.escCnt ∧ flag k.err 2 = true
      ∧ spGetAll (fun _ => 0#48) k.dmem base 8 = c.frame e 2)
    ∧ (c.psw.esc = true → 0 < n → (d.raise n e).core n = { c with lockup := true }))

/-- R502 to R506: RETE restores what the frame holds once its checks pass, and otherwise raises ILLEGAL_RETURN. -/
def Obligations.ExceptionReturn : Prop :=
  ∀ (s : State) (u : Issue) (f : FormS) (d : Dev) (ws : List W48), Starts s u d → f.resv = 0#5 → (d.core u.core).ctlAllowed false →
    (d.core u.core).psw.priv ≠ .user → d.frameRead u.core u.dataCode ((d.core u.core).areg 15) 8 = .ok ws →
    let c := d.core u.core
    let w := fun (i : Nat) => (ws.getD i 0#48).toNat
    let sh := (w 0).testBit 25
    let legal := fun (n : Nat) => n % 4 ≠ 2 ∧ n.testBit 6 = false
    let within := fun (n : Nat) => n % 4 ≤ c.pceil ∧ n % 4 ≤ c.psw.priv.code
    (legal (w 1) → (w 5).testBit 6 = false → within (w 1) → (sh = true → legal (w 5) ∧ within (w 5)) →
      ∃ t k, exec (.cpuRete u f) s = .next t ∧ k = t.dev.core u.core
        ∧ k.psw.priv.code = w 1 % 4 ∧ k.psw.exm = (w 1).testBit 2 ∧ k.psw.prec = (w 1).testBit 3 ∧ k.psw.lact0 = (w 1).testBit 4
        ∧ k.psw.lact1 = (w 1).testBit 5 ∧ k.psw.esc = false
        ∧ k.pc = w 0 % 2 ^ 24 ∧ (k.areg 15).toNat = w 6 ∧ (∀ i, i < 15 → k.areg i = c.areg i) ∧ k.d = c.d ∧ k.dmem = c.dmem
        ∧ ((w 0).testBit 24 = false → k.slot = none)
        ∧ ((w 0).testBit 24 = true → ∃ x, k.slot = some x ∧ x.taken = true ∧ x.target = w 3 % 2 ^ 24)
        ∧ (sh = false → k.shadow = none) ∧ (sh = true → ∃ p, k.shadow = some p ∧ p.priv.code = w 5 % 4 ∧ p.exm = (w 5).testBit 2))
    ∧ (legal (w 1) → (w 5).testBit 6 = false → sh = false → c.pceil < w 1 % 4 →
        Raises (.cpuRete u f) s u d { vec := 8, cause := 1, aux := w 0 })
    ∧ (legal (w 1) → (w 5).testBit 6 = false → sh = false → w 1 % 4 ≤ c.pceil → c.psw.priv.code < w 1 % 4 →
        Raises (.cpuRete u f) s u d { vec := 8, cause := 2, aux := w 0 })
    ∧ (¬ legal (w 1) → Raises (.cpuRete u f) s u d { vec := 8, cause := 3, aux := w 0 })

/-- R467, R468, R472, R475, R484: an undefined encoding raises UNDEFINED; a control transfer raises SLOT in a slot or a
shadow, and LOOP_END where an active loop ends. -/
def Obligations.IllegalInstructions : Prop :=
  ∀ (s : State) (u : Issue) (d : Dev), Starts s u d →
    let c := d.core u.core
    (∀ w : W48, definedWord w.toNat = false → Raises (.cpuUndefinedEncoding u w) s u d (illegal 1))
    ∧ Raises (.cpuUndefinedEncoding u 0#48) s u d (illegal 1)
    ∧ Raises (.cpuUndefinedEncoding u (BitVec.allOnes 48)) s u d (illegal 1)
    ∧ (∀ f : FormJ, f.ra = 0#4 → f.resv = 0#12 →
        (c.slot ≠ none ∨ c.shadow ≠ none → Raises (.cpuJ u f) s u d (illegal 3) ∧ Raises (.cpuCall u f) s u d (illegal 3))
        ∧ (c.slot = none → c.shadow = none → c.psw.lact0 = true → c.pc = c.loop0.stop ∨ c.pc + 1 = c.loop0.stop →
            Raises (.cpuJ u f) s u d (illegal 4) ∧ Raises (.cpuCall u f) s u d (illegal 4)))
    ∧ (∀ f : FormJ, f.resv ≠ 0#12 → Raises (.cpuJ u f) s u d (illegal 2) ∧ Raises (.cpuCall u f) s u d (illegal 2))
    ∧ (∀ f : FormR, f.resv ≠ 0#17 → Raises (.cpuAdd u f) s u d (illegal 2) ∧ Raises (.cpuMac u f) s u d (illegal 2))
    ∧ (∀ f : FormR, ¬ namesA f.rd → Raises (.cpuMova u f) s u d (illegal 2))

/-- R490, R492: an asynchronous event is taken by the lowest pending vector, at a boundary where none of R492 applies and
with EXM = 0; the frame resumes at the next instruction. -/
def Obligations.AsynchronousEvents : Prop :=
  ∀ (s : State) (n : Nat),
    let d := s.dev
    let c := d.core n
    (c.psw.exm = true ∨ c.slot ≠ none ∨ c.shadow ≠ none ∨ c.afterShadow = true → exec (.asyncEventTaken n) s = .next s)
    ∧ (∀ v, d.coreRuns n = true → d.pendingVec n = some v → c.masked = false → c.mpu.inForce = true ∨ c.psw.priv = .machine →
        exec (.asyncEventTaken n) s = .next
          { s with dev := (d.stepped n).enter n
                    (Exc.mk v 0 0 (if v = 16 then (c.arith.map Prod.fst).getD 0 else 0) (some c.pc)) })
    ∧ (c.arith ≠ none → d.pendingVec n = some 16)
    ∧ (∀ v, d.pendingVec n = some v → v = 16 ∨ (17 ≤ v ∧ v ≤ 19) ∨ (24 ≤ v ∧ v ≤ 55))

/-- R507, R508, R509: the lowest region that holds the address decides; with none, only S passes, and only while SDEF = 1. M
is never checked, and the first fault is recorded; and R510: the rules leave force with the write that clears EN, and are in
force from the fourth cycle after the one that sets it. -/
def Obligations.MemoryProtection : Prop :=
  (∀ (d : Dev) (n : Nat) (priv : Priv) (space kind addr : Nat), n < 9 →
    let m := (d.core n).mpu
    let holds := fun (r : Nat) => (vget m.regions r {}).decides space addr = true
    let allowed := d.mpuCheck n priv space kind addr = none
    (priv = .machine → allowed)
    ∧ (priv ≠ .machine → (∀ r, r < 16 → ¬ holds r) → (allowed ↔ priv = .supervisor ∧ m.sdef = true))
    ∧ (∀ r, priv ≠ .machine → r < 16 → holds r → (∀ q, q < r → ¬ holds q) →
        (allowed ↔ (if priv = .user then (vget m.regions r {}).uperm else (vget m.regions r {}).sperm).testBit kind = true))
    ∧ (∀ r, r < 16 → holds r → (vget m.regions r {}).base % 64 = 0
        ∧ ((vget m.regions r {}).limit + 1 - (vget m.regions r {}).base) % 512 = 0 ∧ (vget m.regions r {}).base ≤ addr
        ∧ addr ≤ (vget m.regions r {}).limit)
    ∧ (∀ e x, d.mpuCheck n priv space kind addr = some (e, x) → x.vec = 4 ∧ x.cause = kind + 1 ∧ x.aux ≤ 31
        ∧ (m.valid = false → (e.core n).mpu.valid = true ∧ (e.core n).mpu.faddr = addr ∧ (e.core n).mpu.kind = kind
          ∧ (e.core n).mpu.priv = priv.code)
        ∧ (m.valid = true → (e.core n).mpu = { m with multi := true })))
  ∧ (∀ (s : State) (n : Nat), n ≤ s.dev.nCombs → s.dev.supply.clocks = true →
    let c := s.dev.core n
    (∀ v : BitVec 32, c.psw.priv = .machine → v.toNat = 0 →
      ∃ t, exec (.mpuCtrlEnWrite n v) s = .next t ∧ (t.dev.core n).mpu.en = false ∧ (t.dev.core n).mpu.inForce = false
        ∧ (t.dev.core n).mpu.regions = c.mpu.regions)
    ∧ (∀ v : BitVec 32, c.psw.priv = .machine → v.toNat = 1 → c.mpu.en = false → c.mpu.inForce = false →
      ∃ t, exec (.mpuCtrlEnWrite n v) s = .next t ∧ (t.dev.core n).mpu.en = true ∧ (t.dev.core n).mpu.inForce = false
        ∧ (t.dev.core n).mpu.enAt = c.cycles)
    ∧ (c.psw.priv ≠ .machine → ∀ v, exec (.mpuCtrlEnWrite n v) s = .next s)
    ∧ (c.mpu.en = true → c.mpu.enAt + 4 ≤ c.cycles → c.cycles < 2 ^ 48 →
      ∃ t, exec (.mpuUpdateSettle n) s = .next t ∧ (t.dev.core n).mpu.inForce = true))

/-! Power: start-up, supplies, modes, close and GPIO -/

/-- R156, R168, R192, R227, R245, R397, R518: the steps of a main power-up, each from the state that the step before it leaves; while
the row of the new power cycle does not program, the device waits in ROM and consumes no count. -/
def Obligations.StartUpSteps : Prop :=
  ∀ (s : State), let d := s.dev
    (d.supply.pgood = false → d.power.mode = .vault ∨ d.power.mode = .field →
      Completes .pgoodRise s fun e => e.supply.pgood = true ∧ e.power.mode = .test ∧ e.power.startStep = .reset
        ∧ e.power.holdAt = some (d.clk + 100000) ∧ e.supply.clocks = false ∧ e.power.bootDone = false
        ∧ e.lanes = Vector.replicate 64 {} ∧ e.ports = Vector.replicate 5 {} ∧ e.cores = Vector.replicate 9 {} ∧ e.waits = [])
    ∧ (∀ t, d.power.holdAt = some t → d.supply.pgood = true →
        (t < d.clk → Completes (.resetHoldExpiry 0) s fun e => e.supply.clocks = true ∧ e.power.holdAt = none ∧ e.power.startStep = .rom
          ∧ e.startCode = 1 ∧ e.store.st = .scan)
        ∧ (d.clk ≤ t → Completes (.resetHoldExpiry 0) s fun e => e = d))
    ∧ (d.power.mode = .test → d.power.startStep = .rom → d.supply.clocks = true → ∀ r b fb, r = d.romChecks → r.power.mode = .test →
        r.bootBank = some (b, fb) →
      Completes (.romHandOff true) s fun e => e.flash.runBank = b ∧ e.flash.fallback = fb ∧ e.power.startStep = .firmware
        ∧ e.time.aon.lost = false ∧ e.time.log.row.pcyc = e.time.aon.pcyc
        ∧ (r.time.aon.lost = false → r.time.aon.pcyc < 0xFFFFFFFF → r.time.aon.pcyc < e.time.aon.pcyc))
    ∧ (d.power.mode = .test → d.power.startStep = .rom → d.supply.clocks = true →
      Completes (.romHandOff false) s fun e => e.power.startStep = .rom ∧ e.time.aon = d.time.aon ∧ e.time.log.row = d.time.log.row
        ∧ e.time.servo = d.time.servo)
    ∧ (∀ t, d.time.servo.waitAt = some t → d.time.servo.dstate = .startWait → t < d.clk →
      Completes .timeStartWaitExpiry s fun e => e.time.servo.waitAt = none ∧ e.time.servo.run = true
        ∧ e.time.servo.dstate ≠ .startWait ∧ e.power = d.power)
    ∧ (d.power.mode = .test → d.power.startStep = .firmware → d.time.servo.run = true →
      Completes .bootDone s fun e => e.power.bootDone = true ∧ e.power.startStep = .scan ∧ e.power.mode = .test)
    ∧ (d.rng.ready = false → d.rng.stopped = false → 512 ≤ d.rng.gathered → d.rng.stA = .ok ∨ d.rng.stB = .ok →
      Completes .randomOutputReady s fun e => e.rng.ready = true ∧ e.power = d.power)
    ∧ (d.rng.gathered < 512 → d.rng.ready = false → Completes .randomOutputReady s fun e => e = d)
    ∧ (d.store.st = .scan → d.power.mode = .standby → Completes .storeScanDone s fun e => e.store.st = .ready ∧ e.lanes = d.lanes)
    ∧ (d.store.st = .scan → d.power.mode = .test → d.power.bootDone = true →
      Completes .storeScanDone s fun e => e.store.st = .ready ∧ e.power.mode = .test ∧ e.power.noPfail = false ∧ e.power.closeCut = false
        ∧ (d.power.noPfail = true → flag e.power.err 3 = true) ∧ (d.power.pfail = true → e.power.pfailLogged = true))
    ∧ (d.power.mode = .test → d.power.startStep = .scan → d.store.st = .ready → d.power.bootDone = true → d.power.pfail = false →
        d.log.open_ = true → d.store.recon = .none → d.storedKind 0x30 = none → d.storedKind 0x32 = none →
      Completes .reconcile s fun e => e.power.startStep = .reconcile ∧ e.store.recon = .ended ∧ e.store.blocks = d.store.blocks)
    ∧ (d.power.mode = .test → d.power.startStep = .reconcile → d.store.recon = .ended → d.power.pfail = false →
      Completes .startUpDone s fun e => e.power.mode = .idle ∧ e.power.startStep = .done ∧ e.store.writerEn = true ∧ e.hive.en = true)

/-- R158, R414, R576: falls and returns of the supplies; and R36, R231, R238: PFAIL_N starts a custody close in RECORD and
INGEST and is counted elsewhere; its deassertion starts the 10 ms after which a device in close-done restarts. -/
def Obligations.SupplyAndPowerFail : Prop :=
  (∀ (s : State), let d := s.dev
    (d.supply.pgood = true →
      Completes .pgoodFall s fun e => e.supply.pgood = false ∧ e.supply.clocks = false
        ∧ e.power.mode = (if d.supply.vbat = false ∧ d.supply.field = true then .field else .vault)
        ∧ e.keys.slots = d.keys.slots ∧ e.lanes = Vector.replicate 64 {}
        ∧ (e.store.blocks.map fun b => (b.1, b.2.pages)) = (d.store.blocks.map fun b => (b.1, b.2.pages))
        ∧ (d.power.mode = .record ∨ d.power.mode = .ingest → d.power.pfail = false → e.power.noPfail = true)
        ∧ (d.power.mode = .close → d.close.recordDone = false → e.power.closeCut = true))
    ∧ (d.supply.pgood = false →
      Completes .aonPowerLoss s fun e => e.supply.vbat = false ∧ e.supply.vddIo = false ∧ e.time.aon = {} ∧ e.keys.slots = []
        ∧ e.keys.log = d.keys.log ∧ e.life.st = d.life.st ∧ e.power.mode = (if d.supply.field then .field else .vault))
    ∧ (d.supply.vbat = false → d.supply.vddIo = false →
      Completes (.aonPowerReturn true) s fun e => e.supply.vbat = true ∧ e.time.aon = {} ∧ e.keys = d.keys)
    ∧ (d.supply.vddIo = true → Completes (.aonPowerReturn true) s fun e => e.supply.vbat = true ∧ e.time = d.time))
  ∧ (∀ (s : State), let d := s.dev
    (d.power.pfail = false → d.power.mode = .record ∨ d.power.mode = .ingest →
      Completes .pfailNAssert s fun e => e.power.pfail = true ∧ e.power.mode = .close ∧ e.power.closeCause = .pfail
        ∧ e.power.closeStep = .stop ∧ e.power.target = none ∧ e.close.stopAt = d.clk ∧ e.close.pfailAt = some d.clk
        ∧ e.store.st = .close ∧ e.dbg.level = .closed ∧ e.power.asserts = satInc 16 d.power.asserts)
    ∧ (d.power.pfail = false → d.power.mode = .idle ∨ d.power.mode = .standby →
      Completes .pfailNAssert s fun e => e.power.pfail = true ∧ e.power.mode = d.power.mode ∧ e.lanes = d.lanes
        ∧ e.power.quiet = satInc 16 d.power.quiet ∧ e.power.asserts = satInc 16 d.power.asserts)
    ∧ (d.power.pfail = false → d.power.mode = .vault → Completes .pfailNAssert s fun e => e = { d with power := { d.power with pfail := true } })
    ∧ (d.power.pfail = true → d.power.mode = .close →
      Completes .pfailNDeassert s fun e => e.power.pfail = false ∧ e.close.restartAt = some (d.clk + 10000000) ∧ e.power.mode = .close)
    ∧ (∀ t, d.close.restartAt = some t → d.power.mode = .close → d.power.closeDone = true → d.power.pfail = false →
        d.close.after = .onPfail →
        (t < d.clk → Completes .pfailRestartWaitExpiry s fun e => e.power.mode = .test ∧ e.power.startStep = .reset
          ∧ e.power.holdAt = some (d.clk + 100000) ∧ e.lanes = Vector.replicate 64 {})
        ∧ (d.clk ≤ t → Completes .pfailRestartWaitExpiry s fun e => e = d)))

/-- R37, R38, R113, R185, R213, R231 to R238: the steps of a custody close, in their order. -/
def Obligations.CloseSteps : Prop :=
  ∀ (s : State), let d := s.dev
    d.power.mode = .close →
    (d.close.openingForm = false → d.store.pages = [] → d.store.journal.inFlight = [] →
      Completes .closeFlushDone s fun e => e.close.openingForm = true ∧ e.power.closeStep = .opening ∧ e.power.mode = .close
        ∧ e.close.openingDigest = digest64 d.openingRecord)
    ∧ (d.close.openingForm = false → d.close.flushLate = false → d.close.stopAt + 200000 < d.clk → d.store.journal.inFlight ≠ [] →
      Completes .closeFlushExpiry s fun e => e.close.flushLate = true ∧ e.power.mode = .close)
    ∧ (d.close.openingDone = false → (d.store.reserve.stored.any fun r => r.kind == 0x30) = true →
      Completes .closeOpeningProgrammed s fun e => e.close = { d.close with openingDone := true } ∧ e.store = d.store
        ∧ d.power.closeStep.code ≤ e.power.closeStep.code
        ∧ (d.power.closeStep = .opening → e.power.closeStep = (if d.lanes.toList.all Lane.closed then
            (if 2 ≤ d.close.stage ∧ (d.store.reserve.queue.any ReserveRec.ofLane) = false then .records else .reserve) else .seal)))
    ∧ (∀ n, n < d.nLanes → d.close.cutoff = false → (d.lane n).st = .schuss → (d.lane n).closed = false →
        ((List.range d.nLanes).countP fun i => (d.lane i).slot) < 16 →
        (∀ i, i < n → (d.lane i).st ≠ .schuss) →
      Completes (.schussEngineSlot n 0) s fun e => e.power.mode = .close ∧ (e.lane n).slot = !(d.lane n).allSealed
        ∧ ((d.lane n).allSealed = true → (e.lane n).stream.ended = true))
    ∧ (∀ l, d.close.cutoff = false → d.close.stopAt + 10000000 ≤ d.clk →
      Completes (.sealCutoffExpiry l) s fun e => e.close.cutoff = true ∧ e.power.mode = .close)
    ∧ (d.close.openingForm = true → d.close.stage = 0 → d.lanes.toList.all Lane.closed = true → d.close.unsigned = false →
        (d.keySlot 1025).full = true →
      Completes .finalSnapshot s fun e => e.close.stage = 1 ∧ e.close.attempts = 1 ∧ e.close.finalAt = d.now
        ∧ e.hive.snapSeq = (if d.hive.snapSeq + 1 = 2 ^ 32 then 1 else d.hive.snapSeq + 1) ∧ e.close.finalRoot = e.hive.root
        ∧ e.close.finalUncertain = d.time.servo.uncertain)
    ∧ (d.close.recordDone = false → (d.store.reserve.stored.any fun r => r.kind == 0x32) = true →
      Completes .closeRecordProgrammed s fun e => e.close.recordDone = true ∧ e.power.mode = .close ∧ e.power.closeStep = .field
        ∧ e.power.lastCause = d.power.closeCause ∧ e.store.st = .off
        ∧ ∀ n, n < d.nLanes → (e.lane n).st = (if (d.lane n).st = .idle then .idle else .off) ∧ (e.lane n).units = [] ∧ (e.lane n).key = none
          ∧ (e.lane n).ring0.valid = false ∧ (e.lane n).ring1.valid = false)
    ∧ (∀ t, d.close.pfailAt = some t → d.close.recordDone = false → d.close.late = false → t + 32000000 < d.clk →
      Completes .closeDeadlineExpiry s fun e => e.close.late = true ∧ flag e.power.err 2 = true)
    ∧ (d.close.recordDone = true → d.power.closeDone = false → (d.field.waits.any fun w => w.work == .close) = false →
        (d.close.after = .onPfail ∨ d.close.after = .stopped →
          Completes .closeDone s fun e => e.power.closeDone = true ∧ e.power.closeStep = .done ∧ e.supply.clocks = false ∧ e.power.mode = .close)
        ∧ (d.close.after = .onWake → Completes .closeDone s fun e => e.power.closeDone = true ∧ e.power.safeOff = true ∧ e.supply.mainEn = false)
        ∧ (d.close.after = .restartNow → Completes .closeDone s fun e => e.power.mode = .test ∧ e.power.startStep = .reset))

/-- R221, R222: a mode request is refused or starts a transition, which completes; SHUTDOWN; and R195, R224, R590: a
recognised GPIO level, with its trigger or wake edge. -/
def Obligations.ModesAndTriggers : Prop :=
  (∀ (s : State) (req : Nat), let d := s.dev
    d.superRuns = true →
    (Mode.ofReq (req % 8) = none → Completes (.modeRequest req) s fun e =>
        e.power.mode = d.power.mode ∧ e.power.target = d.power.target ∧ e.power.lastStatus = 0x013 ∧ flag e.power.err 1 = true
          ∧ e.power.req = d.power.req ∧ flag e.power.err 0 = true)
    ∧ (∀ m, Mode.ofReq (req % 8) = some m → d.power.target ≠ none → Completes (.modeRequest req) s fun e =>
        e.power.target = d.power.target ∧ e.power.lastStatus = 0x014 ∧ flag e.power.err 1 = true)
    ∧ (∀ m, Mode.ofReq (req % 8) = some m → d.power.target = none → d.power.mode ≠ .test → d.power.mode ≠ m → d.mayGo m = true →
        Completes (.modeRequest req) s fun e => e.power.target = some m ∧ e.power.mode = d.power.mode ∧ e.power.lastStatus = 0
          ∧ e.power.req = req % 8)
    ∧ (∀ m, Mode.ofReq (req % 8) = some m → d.power.target = none → d.power.mode ≠ .test → d.power.mode ≠ m → d.mayGo m = false →
        Completes (.modeRequest req) s fun e => e.power.target = none ∧ e.power.mode = d.power.mode ∧ e.power.lastStatus = 0x015
          ∧ flag e.power.err 1 = true
          ∧ (d.power.mode = .ingest → d.staging.st = .ready → ∀ off : Dev, off = { d with staging := { d.staging with st := .off } } →
              e.staging.st = if off.mayGo m then .drain else .ready))
    ∧ (∀ m, d.power.target = some m → d.power.mode ≠ .standby → m ≠ .standby →
        Completes .modeTransitionDone s fun e => e.power.mode = m ∧ e.power.target = none
          ∧ (d.power.mode = .ingest → m ≠ .ingest → e.staging.st = .off))
    ∧ (d.power.target = some .standby → d.power.mode = .idle → d.power.shutdown = false →
        (d.trailerWaits .standby = false →
          Completes .modeTransitionDone s fun e => e.power.mode = .standby ∧ e.supply.clocks = false
            ∧ e.store.st = (if d.store.st = .fault then .fault else .off))
        ∧ (d.store.st = .ready → d.store.writerEn = true → d.store.container ≠ none → Completes .modeTransitionDone s fun e => e = d))
    ∧ (d.power.mode = .record ∨ d.power.mode = .ingest →
        Completes .pwrShutdown s fun e => e.power.mode = .close ∧ e.power.closeCause = .shutdown ∧ e.close.after = .onWake)
    ∧ (d.power.mode = .idle → d.power.target = none → d.mayGo .standby = true →
        Completes .pwrShutdown s fun e => e.power.mode = .idle ∧ e.power.target = some .standby ∧ e.power.shutdown = true))
  ∧ (∀ (s : State) (n : Nat) (level : Bool), let d := s.dev
    n < 32 → flag d.supply.gpio n = !level → flag d.power.wakeGpio n = false →
    (flag d.store.trig.en n = false → Completes (.gpioEdge n level) s fun e =>
        flag e.supply.gpio n = level ∧ (∀ k, k < 32 → k ≠ n → flag e.supply.gpio k = flag d.supply.gpio k) ∧ e.store = d.store)
    ∧ (flag d.store.trig.en n = true → flag d.store.trig.pol n = !level → d.power.mode = .record → d.store.trig.rearm = [] →
        d.store.trig.fifo.length < 32 →
      Completes (.gpioEdge n level) s fun e => e.store.trig.fifo = d.store.trig.fifo ++ [(n, d.now)]
        ∧ e.store.trig.toPlace = d.store.trig.toPlace ++ [(n, d.now)] ∧ e.power = d.power))

/-! Custody time -/

/-- R154, R155, R161 to R164: a valid measurement of the active source is applied as a step or as a slew; what the other
commands of the servo do. -/
def Obligations.TimeMeasurements : Prop :=
  ∀ (s : State), let d := s.dev
    (∀ falling, d.supply.clocks = true → d.time.servo.dstate = .acquire ∨ d.time.servo.dstate = .locked → falling = d.time.cfg.ppsFall →
        d.ppsBad = false → d.activeSrc = 1 → d.time.cfg.discEn = true → d.time.cfg.forceHold = false →
      Completes (.ppsEdge falling false) s fun e =>
        Corrects d ((if d.time.cfg.labelArm then d.time.cfg.label * 2 ^ 32 else (d.now + 2 ^ 31) / 2 ^ 32 * 2 ^ 32 : Nat) - (d.now : Int)) e
        ∧ e.time.cfg.ppsCap = d.now ∧ e.time.cfg.labelArm = false ∧ e.time.servo.ppsEdgeAt = some d.clk
        ∧ e.time.servo.refAt = some (d.clk + ms d.time.cfg.refTo))
    ∧ (∀ falling t, d.supply.clocks = true → falling = d.time.cfg.ppsFall → d.time.servo.ppsEdgeAt = some t →
        d.clk - t < ms 900 ∨ ms 1100 < d.clk - t ∧ d.clk - t ≤ ms d.time.cfg.refTo →
      Completes (.ppsEdge falling false) s fun e => flag e.time.cfg.err 4 = true ∧ e.time.cfg.ppsCap = d.now
        ∧ e.time.cfg.labelArm = d.time.cfg.labelArm
        ∧ e.time.servo = { d.time.servo with goodA := if d.time.cfg.srcA = 1 then 0 else d.time.servo.goodA })
    ∧ (∀ falling, Completes (.ppsEdge falling true) s fun e => e = d)
    ∧ (∀ hi o, d.supply.clocks = true → d.power.mode ≠ .close → o = signed64 (hi.toNat * 4294967296 + d.time.cfg.measLo) →
        (2 ^ 62 < o.natAbs → Completes (.timeMeasSubmit hi) s fun e => flag e.time.cfg.err 6 = true
          ∧ e.time.servo = { d.time.servo with goodA := if d.ptpSrc = some d.time.cfg.srcA then 0 else d.time.servo.goodA })
        ∧ (o.natAbs ≤ 2 ^ 62 → d.activeSrc = 2 ∨ d.activeSrc = 3 → d.ptpSrc = some d.activeSrc → d.time.servo.dstate = .acquire ∨ d.time.servo.dstate = .locked →
            d.time.cfg.discEn = true → d.time.cfg.forceHold = false →
          Completes (.timeMeasSubmit hi) s fun e => Corrects d o e ∧ e.time.servo.srcActive = d.activeSrc))
    ∧ (∀ t, d.time.servo.refAt = some t → d.time.servo.run = true → t < d.clk → d.time.servo.onSrcB = false →
        (d.time.cfg.srcB = 0 → d.time.servo.dstate = .acquire ∨ d.time.servo.dstate = .locked →
          Completes .timeRefToExpiry s fun e => e.time.servo.dstate = .holdover ∧ e.time.servo.srcActive = 0 ∧ flag e.time.cfg.err 3 = true
            ∧ e.time.servo.acc = d.time.servo.acc)
        ∧ (∀ l, d.time.cfg.srcB = 2 → d.time.servo.lastP2 = some l → d.clk ≤ l + ms d.time.cfg.refTo →
          Completes .timeRefToExpiry s fun e => e.activeSrc = 2 ∧ e.time.servo.dstate = d.time.servo.dstate ∧ e.time.cfg = d.time.cfg
            ∧ e.time.servo.refAt = some (l + ms d.time.cfg.refTo)))
    ∧ (d.supply.clocks = true → d.power.mode ≠ .close →
        (d.time.cfg.label ≤ 0xFFFF0000 → Completes .timeLabelArm s fun e => e = { d with time := { d.time with cfg := { d.time.cfg with labelArm := true } } })
        ∧ (0xFFFF0000 < d.time.cfg.label → Completes .timeLabelArm s fun e => e.time.cfg.labelArm = d.time.cfg.labelArm ∧ flag e.time.cfg.err 0 = true))
    ∧ (∀ on, d.supply.clocks = true → d.power.mode ≠ .close →
        (d.life.st ≠ .service → d.life.st ≠ .provision → Completes (.forceHoldWrite on) s fun e => e = d)
        ∧ (d.life.st = .service ∨ d.life.st = .provision → d.time.servo.dstate = .locked → d.time.cfg.forceHold = false →
          Completes (.forceHoldWrite on) s fun e => e.time.cfg.forceHold = on ∧ e.time.servo.dstate = (if on then .holdover else .locked)))
    ∧ (d.time.servo.slew ≠ 0 → d.time.servo.slew.natAbs ≤ slewStep d.time.cfg.slewMax →
      Completes .slewComplete s fun e => e.time.servo.slew = 0 ∧ e.time.servo.rest = d.time.servo.slew
        ∧ e.time.servo.uncorrected = 0 ∧ e.time.servo.acc = d.time.servo.acc)
    ∧ (slewStep d.time.cfg.slewMax < d.time.servo.slew.natAbs → Completes .slewComplete s fun e => e = d)
    ∧ (d.time.servo.run = true →
        (d.time.servo.dstate = .locked → Completes .errorBoundGrowth s fun e => e.time.servo.errBound = 20)
        ∧ (∀ n, d.time.servo.dstate = .holdover → n = (d.clk - d.time.servo.holdAt) / 1000000000 →
          Completes .errorBoundGrowth s fun e =>
            e.time.servo.errBound = Nat.min (d.time.servo.hold + (2 * n + d.time.cfg.hoStab * (n * (n + 1)) / 7200)) 0xFFFFFFFF
            ∧ (d.time.cfg.uncThr * 1000 < e.time.servo.errBound → e.time.servo.uncertain = true)))

/-- R157 to R160, R170, R171, R174, R266: the always-on counter, its alarms, the counter log, the latches and the time
stamps. -/
def Obligations.AlwaysOnTime : Prop :=
  ∀ (s : State), let d := s.dev
    (∀ temp k, d.supply.vbat = true ∨ d.supply.vddIo = true → k = curveAt temp * 10 + 80 * d.time.aon.trim →
      Completes (.timeCompensationInterval temp) s fun e => e.time.aon.temp = temp ∧ e.time.aon.acc = d.time.aon.acc
        ∧ (d.time.aon.onRc = true → e.time.aon.rcInc = d.time.aon.rcInc) ∧ (d.time.aon.onRc = false → 0 < e.time.aon.rcInc)
        ∧ e.time.aon.inc = ((2 * (8589934592 * (80000000000 - k)) + 80000000000) / 160000000000).toNat)
    ∧ (∀ t x, d.time.servo.dstate = .locked → d.time.servo.window = some (t, x) →
        (t + 64000000000 ≤ d.clk → Completes .aonTrimWindow s fun e => e.aonTime = d.now ∧ (e.time.aon.trim - d.time.aon.trim).natAbs ≤ 50
          ∧ e.time.servo = { d.time.servo with window := some (d.clk, 0) })
        ∧ (d.clk < t + 64000000000 → Completes .aonTrimWindow s fun e => e = d))
    ∧ (d.time.servo.dstate ≠ .locked → Completes .aonTrimWindow s fun e => e = d)
    ∧ (d.supply.vbat = true ∨ d.supply.vddIo = true →
        (d.time.aon.onRc = false → Completes .crystalWatchdogExpiry s fun e =>
          e.time.aon = { d.time.aon with onRc := true, xtalFail := true, phase := 0 })
        ∧ (d.time.aon.onRc = true → Completes .crystalWatchdogExpiry s fun e => e.time = d.time)
        ∧ Completes .crystalReturn s fun e => e.time.aon = { d.time.aon with onRc := false, phase := 0 })
    ∧ (∀ n a, d.supply.vbat = true ∨ d.supply.vddIo = true → n < 4 → a = vget d.time.aon.alarms n {} → a.en = true → a.value ≤ d.now → a.wake = false →
      Completes (.timeAlarmFire n) s fun e => vget e.time.aon.alarms n {} =
          { a with fired := true, en := decide (a.per ≠ 0), value := if a.per = 0 then a.value else (a.value + a.per * 2 ^ 32) % 2 ^ 64 }
        ∧ ∀ m, m ≠ n → vget e.time.aon.alarms m {} = vget d.time.aon.alarms m {})
    ∧ (∀ row, d.supply.clocks = true ∨ d.supply.pgood = true ∧ d.power.mode = .standby → row = d.time.log.row →
        row.oph / 64 < d.time.aon.oph / 64 →
        Completes (.counterLogCheckpoint true) s (fun e => e.time.logFails = 0 ∧ e.time.log.row =
          { pcyc := d.time.aon.pcyc, oph := d.time.aon.oph, seq := row.seq + 1,
            ckpt := if d.time.servo.run then d.now else if d.power.mode = .standby then Nat.max row.ckpt d.aonTime else row.ckpt })
        ∧ Completes (.counterLogCheckpoint false) s fun e => e.time.log.row = row ∧ e.time.aon = d.time.aon
          ∧ (d.time.logFails = 2 → e.time.logFails = 0 ∧ flag e.time.cfg.err 5 = true)
          ∧ (d.time.logFails < 2 → e.time.logFails = d.time.logFails + 1 ∧ e.time.cfg = d.time.cfg))
    ∧ (∀ who reg v, d.supply.clocks = true → d.timePair reg = some v → (Requester.ofNat who).readsPair reg = true →
      Completes (.latchedLoRead who reg) s fun e => e.time.latched (.ofNat who) reg = v ∧ e.time.servo = d.time.servo)
    ∧ (∀ p, p = 2 ∨ p = 3 → d.supply.clocks = true → d.time.servo.run = true →
        Completes (.ptpEventMessage p false) s (fun e => (e.port p).eth.stampRx = d.now + (d.port p).eth.latRx * 4294967296 / 1000000000
          ∧ (e.port p).eth.stampTx = (d.port p).eth.stampTx)
        ∧ Completes (.ptpEventMessage p true) s fun e => (e.port p).eth.stampTx = d.now + (d.port p).eth.latTx * 4294967296 / 1000000000
          ∧ (e.port p).eth.stampRx = (d.port p).eth.stampRx)

/-! The hive sequencer and the waggle tree -/

/-- R102, R106, R109, R110, R115, R116, R120: snapshots become receipts in making; demands, the armed time and the
periods. A shadow takes what stood before the capture edge. -/
def Obligations.HiveReceipts : Prop :=
  ∀ (s : State), let d := s.dev
    let shadow := fun (n : Nat) => if d.wag.latched then (d.lane n).latch else (d.lane n).shadowNow
    (∀ n, d.time.servo.run = true → d.hiveRuns = true → d.hiveTakes = true → n = d.nsUntil (d.boundaryNext d.hive.period) → n ≤ d.wagHalf →
        (∀ f ∈ d.wag.flights, f.why ≠ .periodic) →
      Completes .snapshotIssue s fun e => e.wag.lastIssue = some d.clk ∧ (d.hive.st = .armed → e.hive.st = .capture)
        ∧ e.wag.flights = d.wag.flights ++ [{ op := .snapshot, edgeAt := d.clk + n, dueAt := d.clk + n + d.wagHalf, why := .periodic, at_ := d.hive.atTime }])
    ∧ (∀ n, d.time.servo.run = true → d.hiveRuns = true → d.hiveTakes = true →
        d.wagHalf + 24 < d.nsUntil (d.boundaryNext d.hive.period) → d.hive.atArmed = true → n = d.nsUntil d.hive.atTime → 0 < n → n ≤ d.wagHalf →
        d.spaced = true → d.hive.readAt ≤ d.clk → (∀ f ∈ d.wag.flights, f.why ≠ .at_) →
      Completes .snapshotIssue s fun e => e.wag.lastIssue = some d.clk
        ∧ e.wag.flights = d.wag.flights ++ [{ op := .snapshot, edgeAt := d.clk + n, dueAt := d.clk + n + d.wagHalf, why := .at_, at_ := d.hive.atTime }])
    ∧ (∀ b, d.hiveDue = true → b = d.boundaryNow (d.hive.periodsAt d.now).period → d.hive.lastBoundary < b →
      Completes .hiveBoundary s fun e => e.hive.lastBoundary = b ∧ e.hive.snapSeq = (if d.hive.snapSeq + 1 = 2 ^ 32 then 1 else d.hive.snapSeq + 1)
        ∧ e.hive.st = .capture ∧ e.hive.period = (d.hive.periodsAt b).period
        ∧ (∀ n, n < d.nLanes → (e.lane n).shadow = shadow n)
        ∧ ∃ m, e.receipts.making = some m ∧ m.kind = .periodic ∧ m.boundary = b ∧ m.snapSeq = e.hive.snapSeq ∧ m.prev = d.receipts.lastDigest
          ∧ m.leaves = (List.range d.nLanes).map (fun n => (shadow n).leaf n)
          ∧ (d.receipts.demand = true → d.receipts.demandAt + d.wagHalf ≤ d.clk → m.waiters = d.receipts.demandFor ∧ e.receipts.demand = false)
          ∧ (d.clk < d.receipts.demandAt + d.wagHalf → m.waiters = [] ∧ e.receipts.demand = d.receipts.demand))
    ∧ (d.boundaryNow d.hive.period ≤ d.hive.lastBoundary → Completes .hiveBoundary s fun e => e = d)
    ∧ (∀ f rest, d.wag.flights = f :: rest → f.op = .snapshot → f.acted = false → f.edgeAt ≤ d.clk → d.receipts.making = none →
        d.receipts.queued = [] →
        (f.why = .demand → Completes .snapshotCapture s fun e => e.hive.st = .capture ∧ e.receipts.taken = []
          ∧ e.receipts.demand = d.receipts.demand ∧ (∀ n, n < d.nLanes → (e.lane n).shadow = shadow n)
          ∧ ∃ m, e.receipts.making = some m ∧ m.kind = .demand ∧ m.boundary = d.now ∧ m.waiters = d.receipts.taken)
        ∧ (f.why = .at_ → Completes .snapshotCapture s fun e => e.hive.st = .capture ∧ e.hive.atArmed = (d.hive.atArmed && d.hive.atTime != f.at_)
          ∧ (∀ n, n < d.nLanes → (e.lane n).shadow = shadow n)
          ∧ ∃ m, e.receipts.making = some m ∧ m.kind = .at_ ∧ m.boundary = f.at_)
        ∧ (f.why = .software → Completes .snapshotCapture s fun e => e.receipts.making = none
          ∧ ∀ n, n < d.nLanes → (e.lane n).shadow = shadow n))
    ∧ (∀ m, d.receipts.making = some m → m.root = [] → d.hive.st = .hash →
      Completes .hiveRootComputed s fun e => e.hive.st = .sign ∧ e.hive.root = d.hiveRoot m.leaves ∧ e.hive.rootBound = m.boundary
        ∧ e.receipts.making = some { m with root := d.hiveRoot m.leaves, attempts := 1 })
    ∧ (d.supply.clocks = true → d.power.mode ≠ .close →
        (d.hiveTakes = true → d.wag.pending.contains .snapshot = false →
          Completes .hiveCtrlDemand s fun e => e.receipts.demand = true ∧ e.wag.pending = d.wag.pending ++ [.snapshot] ∧ e.hive = d.hive)
        ∧ (d.hiveTakes = true → d.wag.pending.contains .snapshot = true →
          Completes .hiveCtrlDemand s fun e => e = { d with wag := { d.wag with busyRefused := true } })
        ∧ (d.hiveTakes = false →
          Completes .hiveCtrlDemand s (fun e => e.receipts = d.receipts ∧ flag e.hive.err 0 = true)
          ∧ Completes .hiveCtrlAtArm s fun e => e.hive.atArmed = d.hive.atArmed ∧ flag e.hive.err 0 = true)
        ∧ (d.hiveTakes = true → d.now + 4295 ≤ d.hive.atTime → Completes .hiveCtrlAtArm s fun e => e.hive = { d.hive with atArmed := true })
        ∧ (d.hiveTakes = true → d.hive.atTime < d.now + 4295 →
          Completes .hiveCtrlAtArm s fun e => e.hive.atArmed = d.hive.atArmed ∧ flag e.hive.err 1 = true)
        ∧ Completes .hiveCtrlAtCancel s fun e => e.hive = { d.hive with atArmed := false })
    ∧ (∀ p h, d.supply.clocks = true → d.power.mode ≠ .close → h = (if d.hiveDue then d.hive else (d.hive.periodsAt d.now).epochsAt d.now) →
        (p < 10 ∨ 10000 < p → Completes (.hivePeriodNextWrite p) s fun e =>
          e.hive.period = h.period ∧ e.hive.periodNext = h.periodNext ∧ flag e.hive.err 0 = true)
        ∧ (10 ≤ p → p ≤ 10000 → p ≠ h.period → d.changePoint h.period p ≤ d.now + 3600 * 2 ^ 32 →
          Completes (.hivePeriodNextWrite p) s fun e => e.hive = { h with periodNext := p, periodAt := some (d.changePoint h.period p) })
        ∧ (p < 10 ∨ 60000 < p → Completes (.hiveEpochNextWrite p) s fun e =>
          e.hive.epoch = h.epoch ∧ e.hive.epochNext = h.epochNext ∧ flag e.hive.err 0 = true)
        ∧ (10 ≤ p → p ≤ 60000 → p ≠ h.epoch → d.changePoint h.epoch p ≤ d.now + 3600 * 2 ^ 32 →
          Completes (.hiveEpochNextWrite p) s fun e => e.hive = { h with epochNext := p, epochAt := some (d.changePoint h.epoch p) }))

/-- R117 to R119: the capture of a lane at an epoch boundary, its link, the late link and the epoch signature. -/
def Obligations.LaneEpochs : Prop :=
  ∀ (s : State) (n : Nat), let d := s.dev; let l := d.lane n
    n < d.nLanes →
    (∀ b c, d.time.servo.run = true → b = d.boundaryNow (d.hive.epochsAt d.now).epoch → d.hive.lastEpoch < b → l.ctx0.dir = .seal →
        l.stream.ended = false → l.stream.epochStart < b →
        c = { first := l.stream.firstSeq, last := if l.stream.firstSeq = 0 then 0 else l.stream.lastSeq,
              owed := l.units.countP (fun u => decide (u.st ≠ .appended)), boundary := b, start := l.stream.epochStart, lateAt := d.clk + d.hive.linkMax * 1000 } →
      Completes .epochBoundary s fun e => e.hive.lastEpoch = b ∧ (e.lane n).stream.firstSeq = 0 ∧ (e.lane n).stream.epochStart = b
        ∧ (d.power.mode = .close → (e.lane n).caps = l.caps ++ [c] ∧ (e.lane n).key = l.key)
        ∧ (d.power.mode ≠ .close → (∀ q ∈ l.caps, q.boundary ≠ b) →
            ∃ k, (e.lane n).key = some k ∧ k.epoch = b ∧ (e.lane n).caps = l.caps ++ [{ c with key := some k }]))
    ∧ (∀ b, d.time.servo.run = true → b = d.boundaryNow (d.hive.epochsAt d.now).epoch → d.hive.lastEpoch < b → l.ctx0.dir ≠ .seal →
      Completes .epochBoundary s fun e => e.lane n = l)
    ∧ (∀ c rest x, l.caps = c :: rest → l.st = .active ∨ l.st = .drain → d.power.mode ≠ .close → (d.keySlot 65).full = true → d.hiveDue = false →
        x = chainNext l.ctx0.head (element 2 (b2n d.time.servo.uncertain * 4) l.ctx0.stream c.boundary (linkBody c l.ctx0.elements l.ctx0.head)) →
      Completes (.epochLinkAppend n) s fun e => (e.lane n).caps = rest
        ∧ (c.key = none → (e.lane n).ctx0.elements = l.ctx0.elements + 1 ∧ (e.lane n).ctx0.head = x)
        ∧ (∀ k, c.key = some k → (d.keySlot (d.kekFor k.epoch).1).full = true → (e.lane n).ctx0.elements = l.ctx0.elements + 2
            ∧ ∃ w, (e.lane n).ctx0.head = chainNext x (element 3 (b2n d.time.servo.uncertain * 4) l.ctx0.stream d.now w)))
    ∧ (l.caps ≠ [] → d.hiveDue = true → Completes (.epochLinkAppend n) s fun e => e = d)
    ∧ (∀ c, l.caps = [c] → c.lateAt < d.clk → c.late = false →
      Completes (.hiveLinkMaxExpiry n) s fun e => (e.lane n).caps = [{ c with late := true }]
        ∧ (if n < 32 then flag e.hive.linkLate0 n else flag e.hive.linkLate1 (n - 32)) = true)
    ∧ (∀ b x, l.stream.signed = some (b, x) → l.st = .active ∨ l.st = .drain → l.ctx0.dir = .seal → l.stream.ended = false →
        d.boundaryDue n = false →
      Completes (.epochSignatureAppend n) s fun e => (e.lane n).ctx0.head = chainNext l.ctx0.head x
        ∧ (e.lane n).ctx0.elements = l.ctx0.elements + 1 ∧ (e.lane n).stream.signed = none ∧ (e.lane n).stream.lastSig = b)

/-- R99, R101, R103 to R105, R123: operations of the waggle tree are issued, act at their endpoints and complete;
barriers. -/
def Obligations.WaggleTree : Prop :=
  ∀ (s : State), let d := s.dev
    d.supply.clocks = true → d.power.mode ≠ .close → d.wag.pending = [] →
    (d.spaced = true → d.inGuard = false →
        let go := fun (op : WagOp) (e : Dev) => e.wag.lastIssue = some d.clk ∧ e.wag.pending = []
          ∧ e.wag.flights = d.wag.flights ++
            [{ op := op, edgeAt := d.clk + d.wagHalf, dueAt := d.clk + d.wagWhole, why := .software, eps := d.maskedEps, word := d.wag.bcast }]
        Completes .wagBroadcast s (go .broadcast)
        ∧ Completes (.wagReset true) s (go .reset)
        ∧ (d.hive.readAt ≤ d.clk →
          Completes .wagSnapshot s fun e => e.wag.lastIssue = some d.clk ∧ e.wag.pending = (if d.receipts.demand then [.snapshot] else [])
            ∧ e.wag.flights = d.wag.flights ++
              [{ op := .snapshot, edgeAt := d.clk + d.wagHalf, dueAt := d.clk + d.wagWhole, why := .software, eps := d.maskedEps,
                 word := d.wag.bcast }])
        ∧ ∀ id, d.wag.barrier = none → Completes (.wagBarrier id) s fun e => e.wag.lastIssue = some d.clk ∧ e.wag.flights = d.wag.flights
          ∧ ∃ w, e.wag.barrier = some (id % 16, w)
            ∧ ∀ c, c < 8 → (64 + c ∈ w ↔ 64 + c ∈ d.maskedEps ∧ (id % 16, c) ∉ d.wag.heldArrivals))
    ∧ (d.spaced = false → Completes .wagBroadcast s fun e => e.wag = { d.wag with pending := [.broadcast] })
    ∧ (Completes (.wagReset false) s fun e => e.wag = { d.wag with privRefused := true })
    ∧ (∀ c id, c < d.nCombs →
        (∀ w, d.wag.barrier = some (id % 16, (64 + c) :: w) → 64 + c ∉ w →
          Completes (.wagEpArrive c id) s fun e => e.wag.barrier = some (id % 16, w) ∧ (vget e.wagEps c {}).waiting = true
            ∧ (w = [] → e.wag.releaseAt = some (d.clk + d.wagWhole)) ∧ (w ≠ [] → e.wag.releaseAt = d.wag.releaseAt))
        ∧ (d.wag.barrier = none → Completes (.wagEpArrive c id) s fun e =>
            e.wag = { d.wag with heldArrivals := d.wag.heldArrivals ++ [(id % 16, c)] } ∧ (vget e.wagEps c {}).barId = id % 16))
    ∧ (∀ id w t, d.wag.barrier = some (id, w) →
        (d.wag.releaseAt = some t → t ≤ d.clk → Completes .barrierRelease s fun e => e.wag.barrier = none ∧ e.wag.lastOp = 1 ∧ e.wag.done = true
          ∧ ∀ c, c < d.nCombs → (vget d.wagEps c {}).waiting = true → (vget d.wagEps c {}).barId = id →
              vget e.wagEps c {} = { vget d.wagEps c {} with waiting := false, released := true })
        ∧ (d.wag.barAt = some t → t < d.clk → w ≠ [] →
          Completes .wagBarTimeoutExpiry s fun e => e.wag.barrier = none ∧ e.wag.barTimeoutF = true
            ∧ ∀ c, c < d.nCombs → (vget d.wagEps c {}).waiting = true → (vget d.wagEps c {}).barId = id →
                vget e.wagEps c {} = { vget d.wagEps c {} with waiting := false, timedOut := true }))
    ∧ (∀ f, d.wag.flights = [f] → f.acted = false → f.edgeAt ≤ d.clk → f.dueAt ≤ d.clk →
        (f.op = .broadcast → Completes .wagOpComplete s fun e => e.wag.flights = [] ∧ e.wag.lastOp = 2 ∧ e.wag.done = true
          ∧ ∀ c, c < 8 → (vget e.wagEps c {}).word = (if 64 + c ∈ f.eps then f.word else (vget d.wagEps c {}).word))
        ∧ (∀ n, n < 64 → f.op = .reset → f.eps = [n] → (d.lane n).resettable = true →
          Completes .wagOpComplete s fun e => e.wag.flights = [] ∧ e.wag.lastOp = 4 ∧ e.lane n = (d.lane n).afterReset)
        ∧ (∀ n, n < 32 → f.op = .reset → f.eps = [n] → (d.lane n).resettable = false →
          Completes .wagOpComplete s fun e => e.lanes = d.lanes ∧ e.wag.resetPartial = true ∧ flag e.wag.refused0 n = true)
        ∧ (∀ c, c < 8 → f.op = .reset → f.eps = [64 + c] →
          Completes .wagOpComplete s fun e => e.core (1 + c) = { dmem := (d.core (1 + c)).dmem, imem := (d.core (1 + c)).imem }))
    ∧ (∀ f, d.wag.flights = [f] → f.op = .snapshot → f.acted = true → f.why ≠ .software → f.dueAt ≤ d.clk → d.hive.st = .capture →
      Completes .wagOpComplete s fun e => e.wag.flights = [] ∧ e.wag.lastOp = 3 ∧ e.hive.st = .hash ∧ e.receipts = d.receipts)
    ∧ (∀ f rest ep, d.wag.flights = f :: rest → f.dueAt + 16 < d.clk →
      Completes (.wagAckLimitExpiry ep) s fun e => e.wag.flights = rest ∧ e.wag.noAck = true ∧ e.wag.noAckEp = ep % 128
        ∧ e.wag.noAckValid = true
        ∧ (∀ m, f.op = .snapshot → f.acted = true → f.why ≠ .software → d.receipts.making = some m → m.root = [] → m.snapSeq = f.seq →
            flag e.hive.err 2 = true ∧ e.receipts.making = d.receipts.queued.head?))

/-! The sealing lanes -/

/-- R54 to R56, R58 to R65, R85, R87, R94: doorbells, descriptor reads, completion entries and failed writes. -/
def Obligations.LaneRings : Prop :=
  ∀ (s : State) (n x : Nat), let d := s.dev; let l := d.lane n; let r := l.ring x
    n < d.nLanes → x ≤ 1 →
    (∀ p v, d.supply.clocks = true →
        (r.valid = true → r.port = p → idxDiff v r.inHead ≤ 2 ^ r.inSize →
          Completes (.ringInDoorbell p n x v) s fun e => (e.lane n).ring x = { r with inTail := v % 2 ^ 32 } ∧ (e.lane n).units = l.units
            ∧ (x = 0 ∨ l.parked = none → e = (d.onLane n fun l => l.onRing x fun r => { r with inTail := v % 2 ^ 32 }).settle n))
        ∧ (r.valid = true → r.port = p → 2 ^ r.inSize < idxDiff v r.inHead →
          Completes (.ringInDoorbell p n x v) s fun e => ((e.lane n).ring x).inTail = r.inTail ∧ flag ((e.lane n).ring x).err 0 = true)
        ∧ (r.valid = true → r.port = p → idxDiff r.cmpTail v ≤ 2 ^ r.cmpSize →
          Completes (.ringCmpHeadWrite p n x v) s fun e => e = (d.onLane n fun l => l.onRing x fun r => { r with cmpHead := v % 2 ^ 32 }).settle n)
        ∧ (r.valid = true → r.port = p → 2 ^ r.cmpSize < idxDiff r.cmpTail v →
          Completes (.ringCmpHeadWrite p n x v) s fun e => ((e.lane n).ring x).cmpHead = r.cmpHead ∧ flag ((e.lane n).ring x).err 1 = true)
        ∧ (r.valid = true → r.port ≠ p →
          Completes (.ringInDoorbell p n x v) s (fun e => ((e.lane n).ring x).inTail = r.inTail ∧ flag ((e.lane n).ring x).err 2 = true)
          ∧ Completes (.ringCmpHeadWrite p n x v) s fun e => ((e.lane n).ring x).cmpHead = r.cmpHead ∧ flag ((e.lane n).ring x).err 2 = true)
        ∧ (r.valid = false → Completes (.ringInDoorbell p n x v) s (fun e => e = d) ∧ Completes (.ringCmpHeadWrite p n x v) s fun e => e = d))
    ∧ (l.mayRead x = true →
        (∀ bs, Completes (.sealUnit n x bs false) s fun e => ((e.lane n).ring x).dead = true ∧ flag ((e.lane n).ring x).err 3 = true
          ∧ ((e.lane n).ring x).inHead = r.inHead)
        ∧ ∀ bs c, c = parseDesc bs r.inHead →
          let errs := fun (st : Status) (e : Dev) => ((e.lane n).ring x).inHead = idxAdd r.inHead 1 ∧ flag (e.lane n).regs.irqStatus 4 = true
            ∧ ((e.lane n).ring x).posts = r.posts ++ [{ entry := entryBytes 4 st.code c.index 0 0 0 c.payloadLen c.cookie [], irq := true }]
            ∧ ((e.lane n).ctx x).cur = (l.ctx x).cur ∧ ((e.lane n).ctx x).job = (l.ctx x).job
          (c.typ ≠ 1 → c.typ ≠ 2 → Completes (.sealUnit n x bs true) s (errs .badDescType))
          ∧ (c.typ = 1 → (l.ctx x).dir ≠ .seal → Completes (.sealUnit n x bs true) s (errs .wrongDirection))
          ∧ (c.typ = 2 → (l.ctx x).dir = .seal → Completes (.verifyElement n x bs true) s (errs .wrongDirection))
          ∧ (c.typ = 1 → l.descCheck x c = none → Completes (.sealUnit n x bs true) s fun e =>
              ((e.lane n).ctx x).cur = some { desc := c } ∧ ((e.lane n).ring x).inHead = idxAdd r.inHead 1 ∧ ((e.lane n).ring x).posts = r.posts)
          ∧ (c.typ = 2 → l.descCheck x c = none → Completes (.verifyElement n x bs true) s fun e =>
              ((e.lane n).ctx x).job = some c ∧ ((e.lane n).ring x).inHead = idxAdd r.inHead 1 ∧ ((e.lane n).ring x).posts = r.posts))
    ∧ (∀ p rest, r.posts = p :: rest → r.flows = true → l.st = .active ∨ l.st = .drain →
        (1 + p.conts.length ≤ r.room → p.ends = none → numAt p.entry 0 1 = 1 →
          Completes (.completionEntryPost n x) s fun e => ((e.lane n).ring x).posts = rest
            ∧ ((e.lane n).ring x).cmpTail = idxAdd r.cmpTail (1 + p.conts.length)
            ∧ Output.hostWrite r.port (r.cmpBase + idxAdd r.cmpTail 0 % 2 ^ r.cmpSize * 64) (p.entry.set 1 (u8 (phaseOf r.cmpTail r.cmpSize))) ∈ e.out
            ∧ ∀ u ∈ (e.lane n).units, u.seq = p.seq → u.tokenPosted = true)
        ∧ (x = 0 → 1 + p.conts.length ≤ r.room → p.ends = none → numAt p.entry 0 1 = 2 → l.ctx0.policy = .host →
          Completes (.completionEntryPost n x) s fun e => (e.lane n).ring0.posts = rest
            ∧ (∀ u ∈ (e.lane n).units, u.seq = p.seq → u.st ≠ .appended)
            ∧ ∀ u, l.units.find? (fun u => u.seq == p.seq) = some u → u.written = false →
                Output.hostWrite r.port u.desc.outputAddr u.segment ∈ e.out)
        ∧ (r.room < 1 + p.conts.length → Completes (.completionEntryPost n x) s fun e => e = d))
    ∧ (r.flows = true → l.st = .active ∨ l.st = .drain → Completes (.outputWriteFault n x) s fun e =>
        ((e.lane n).ring x).faulted = true ∧ ((e.lane n).ctx x).stopped = true ∧ flag (e.lane n).regs.err 3 = true
          ∧ flag (e.lane n).regs.irqStatus 1 = true ∧ (e.lane n).units = l.units)
    ∧ (∀ t, r.coalAt = some t →
        (t < d.clk → d.power.mode ≠ .close →
          let masked := flag (spGet (fun _ => 0#32) (d.port r.port).pcie.msix (4 * r.msix + 3)) 0
          Completes (.coalTimeExpiry n x) s fun e => ((e.lane n).ring x).coalAt = none
            ∧ (masked = false → e.out = .msix r.port r.msix :: d.out)
            ∧ (masked = true → e.out = d.out ∧ (r.port < 5 →
                flag (spGet (fun _ => 0#32) (e.port r.port).pcie.pba (r.msix / 32)) (r.msix % 32) = true)))
        ∧ (d.clk ≤ t ∨ d.power.mode = .close → Completes (.coalTimeExpiry n x) s fun e => e = d))

/-- R14 to R17, R53, R57, R66 to R69, R71 to R74, R76 to R82, R85, R86, R94, R117: a unit from its fetch to its segment, a
verify job, and suspension. -/
def Obligations.LaneUnits : Prop :=
  ∀ (s : State) (n : Nat), let d := s.dev; let l := d.lane n
    n < d.nLanes →
    (∀ u, l.ctx0.cur = some u → u.st = .checked → l.st = .active → l.ring0.flows = true →
        (u.desc.payloadLen ≤ l.lengthLimit u.desc → pagesFor u.desc.payloadLen ≤ l.freePages → Completes (.payloadFetchStart n) s fun e =>
          ((∀ r ∈ l.waits, r.kind ≠ 0) →
            ∃ r ∈ (e.lane n).waits, r.kind = 0 ∧ r.cls = l.ring0.cls ∧ r.at_ = some (d.clk + d.arb.age))
          ∧ (e.lane n).ctx0.cur = some { u with st := .fetching, fetchUntil := d.clk + (d.port l.ring0.port).pcie.cplLimit }
          ∧ ∀ k m, m = (d.port l.ring0.port).pcie.maxRead → 0 < m → k * m < u.desc.payloadLen →
              Output.hostRead l.ring0.port (u.desc.payloadAddr + k * m) (Nat.min m (u.desc.payloadLen - k * m)) ∈ e.out)
        ∧ (u.desc.payloadLen ≤ l.lengthLimit u.desc → l.freePages < pagesFor u.desc.payloadLen → Completes (.payloadFetchStart n) s fun e => e = d)
        ∧ (l.lengthLimit u.desc < u.desc.payloadLen → Completes (.payloadFetchStart n) s fun e => (e.lane n).ctx0.cur = none
          ∧ (e.lane n).ring0.posts = l.ring0.posts ++
              [{ entry := entryBytes 4 0x103 u.desc.index 0 0 0 u.desc.payloadLen u.desc.cookie [], irq := true }]))
    ∧ (∀ u data ok, l.ctx0.cur = some u → u.st = .fetching → l.st = .active →
        (ok = true → u.failed = false → Completes (.payloadFetchDone n data ok) s fun e =>
          (e.lane n).ctx0.cur = some { u with st := .resident, payload := fitBytes u.desc.payloadLen data })
        ∧ (ok = false ∨ u.failed = true → Completes (.payloadFetchDone n data ok) s fun e => (e.lane n).ctx0.cur = none
          ∧ flag (e.lane n).regs.err 2 = true ∧ (e.lane n).ring0.posts = l.ring0.posts ++
              [{ entry := entryBytes 4 0x016 u.desc.index 0 0 0 u.desc.payloadLen u.desc.cookie [], irq := true }])
        ∧ (u.fetchUntil < d.clk → Completes (.pcieCompletionTimeout n 0) s fun e => (e.lane n).ctx0.cur = some { u with failed := true })
        ∧ (d.clk ≤ u.fetchUntil → Completes (.pcieCompletionTimeout n 0) s fun e => (e.lane n).ctx0.cur = some u))
    ∧ (∀ u, l.ctx0.cur = some u → u.st = .resident →
        (l.st = .active → l.ctx0.dir = .seal → l.ctx0.stopped = false → d.power.mode = .record ∨ d.power.mode = .ingest → d.floorOk = true →
            d.store.fullLanes.contains n = false ∨ l.ctx0.policy = .host → l.acceptAt ≤ d.clk → d.time.servo.run = true →
            l.stream.ended = false →
          Completes (.unitAccept n) s fun e => (e.lane n).ctx0.cur = none ∧ (e.lane n).ctx0.nextSeq = l.ctx0.nextSeq + 1
            ∧ (e.lane n).units = l.units ++ [{ u with st := .accepted, seq := l.ctx0.nextSeq, time := d.now, uncertain := d.time.servo.uncertain }]
            ∧ (e.lane n).ring0.posts.length = l.ring0.posts.length + 1)
        ∧ (d.floorOk = false ∨ d.store.fullLanes.contains n = true ∧ l.ctx0.policy ≠ .host ∨ d.time.servo.run = false →
          Completes (.unitAccept n) s fun e => e = d))
    ∧ (∀ u k, l.nextUnit = some u → l.key = some k → l.st = .active ∨ l.st = .drain → l.engineBusy = false → l.parked = none →
      Completes (.engineStart n) s fun e =>
        (e.lane n).units = l.units.map fun v => if v.seq = u.seq then { v with st := .encrypting, key := k } else v)
    ∧ (∀ u, l.inEngine = some u → l.st = .active ∨ l.st = .drain → Completes (.gcmTagFormed n) s fun e =>
        (e.lane n).units = (l.units.map fun v => if v.seq = u.seq then { v with segment := sealUnit n l.ctx0.stream u false } else v)
          ∧ (l.usesPrev u = true → (e.lane n).prev = none))
    ∧ (∀ u, (l.units.find? fun u => decide (u.st = .encrypting) && !u.segment.isEmpty) = some u → l.st = .active ∨ l.st = .drain →
        (l.caps = [] → d.boundaryDue n = false → l.stream.signed = none →
          Completes (.segmentAppend n) s fun e => (e.lane n).ctx0.head = chainNext l.ctx0.head u.segment
          ∧ (e.lane n).ctx0.elements = l.ctx0.elements + 1 ∧ (e.lane n).ctx0.lastSeq = u.seq
          ∧ ∀ v ∈ (e.lane n).units, v.seq = u.seq → v.st = .appended ∧ v.segment = u.segment)
        ∧ (l.caps ≠ [] ∨ d.boundaryDue n = true ∨ l.stream.signed ≠ none → Completes (.segmentAppend n) s fun e => e = d))
    ∧ (∀ r t, l.waits = [r] → r.at_ = some t →
        (t < d.clk → l.wants r.kind = true → Completes (.arbAgeExpiry n) s fun e =>
          (e.lane n).waits = [{ r with cls := if 1 < r.cls then r.cls - 1 else r.cls, at_ := none }]
          ∧ e.arb.promotions = (if 1 < r.cls then satInc 16 d.arb.promotions else d.arb.promotions))
        ∧ (d.clk ≤ t ∨ l.wants r.kind = false → Completes (.arbAgeExpiry n) s fun e => e = d))
    ∧ (∀ t, t < 8 → (d.tile t).running ≠ none →
      Completes (.arbAgeExpiry (64 + t)) s fun e => e = { d with arb := { d.arb with promotions := satInc 16 d.arb.promotions } })
    ∧ (∀ u done, l.inEngine = some u → l.usesPrev u = false → l.regs.suspEn = true → l.ctx1.job ≠ none → l.ctx1.running = false →
        l.parked = none → l.st = .active ∨ l.st = .drain → done % 16 = 0 → done < u.desc.payloadLen →
        l.regs.suspMin * 4096 ≤ u.desc.payloadLen - done →
      Completes (.unitSuspend n done) s fun e =>
        (e.lane n).units = (l.units.map fun v => if v.seq = u.seq then { v with st := .suspended, done := done } else v)
          ∧ ∃ p, (e.lane n).parked = some p ∧ p.at_ = d.clk ∧ p.freeze = false ∧ p.verify = false
            ∧ p.saved.take 8 = le 4 done ++ le 4 (2 + done / 16))
    ∧ (∀ p, l.parked = some p → p.verify = false → l.st = .active ∨ l.st = .drain → l.mayResume p = true →
      Completes (.unitResume n true) s fun e => (e.lane n).parked = none
        ∧ (e.lane n).units = l.units.map fun v => if v.st = .suspended then { v with st := .encrypting } else v)
    ∧ (∀ p, l.parked = some p →
        (p.at_ + l.regs.suspMax * 1000 < d.clk → Completes (.suspMaxExpiry n) s fun e => (e.lane n).parked = some { p with late := true })
        ∧ (d.clk ≤ p.at_ + l.regs.suspMax * 1000 → Completes (.suspMaxExpiry n) s fun e => (e.lane n).parked = some p))
    ∧ (∀ x c data bs, x ≤ 1 → (l.ctx x).job = some c → (l.ctx x).running = true → (l.ctx x).closing = false → l.st = .active ∨ l.st = .drain →
        (l.ring x).flows = true → bs = fitBytes c.payloadLen data →
        (Completes (.verifyComplete n x data false) s fun e => ((e.lane n).ctx x).job = none ∧ flag (e.lane n).regs.err 2 = true
          ∧ ((e.lane n).ring x).posts = (l.ring x).posts ++
              [{ entry := entryBytes 4 0x016 c.index 0 0 0 c.payloadLen c.cookie [], irq := true }])
        ∧ ((l.ctx x).jobFailed = false → elementOk bs = false ∨ numAt bs 0x10 8 ≠ (l.ctx x).stream →
          Completes (.verifyComplete n x data true) s fun e => ((e.lane n).ctx x).job = none ∧ ((e.lane n).ctx x).broken = true
            ∧ ((e.lane n).ctx x).head = (l.ctx x).head ∧ flag (e.lane n).regs.err 5 = true)
        ∧ ((l.ctx x).jobFailed = false → elementOk bs = true → numAt bs 0x10 8 = (l.ctx x).stream →
            numAt bs 5 1 = 0x10 ∧ numAt bs 0x18 8 ≠ (l.ctx x).nextSeq →
          Completes (.verifyComplete n x data true) s fun e => ((e.lane n).ctx x).broken = true
            ∧ ((e.lane n).ctx x).head = (l.ctx x).head ∧ flag (e.lane n).regs.err 5 = true)
        ∧ ((l.ctx x).jobFailed = false → elementOk bs = true → numAt bs 0x10 8 = (l.ctx x).stream → numAt bs 5 1 = 0x10 →
            numAt bs 0x18 8 = (l.ctx x).nextSeq → (l.ctx x).dir = .verifyChain →
          Completes (.verifyComplete n x data true) s fun e => ((e.lane n).ctx x).job = none
            ∧ ((e.lane n).ctx x).head = chainNext (l.ctx x).head bs ∧ ((e.lane n).ctx x).nextSeq = (l.ctx x).nextSeq + 1
            ∧ ((e.lane n).ctx x).verified = (l.ctx x).verified + 1 ∧ ((e.lane n).ring x).posts.length = (l.ring x).posts.length + 1))

/-- R90, R91, R96, R218, R298: drain, reset and the comb clocks. -/
def Obligations.LaneControl : Prop :=
  ∀ (s : State), let d := s.dev
    d.supply.clocks = true →
    (d.power.mode = .close → ∀ n c on, Completes (.laneDrain n) s (fun e => e = d) ∧ Completes (.laneReset n) s (fun e => e = d)
      ∧ Completes (.combClkEnWrite c on) s fun e => e = d)
    ∧ (∀ n, let l := d.lane n; n < d.nLanes → d.power.mode ≠ .close →
        (l.st = .active → l.ctx0.dir ≠ .seal ∨ l.stream.ended = false → Completes (.laneDrain n) s fun e => (e.lane n).st = .drain ∧ (e.lane n).regs.drain = true ∧ (e.lane n).ctx0.cur = none
          ∧ (e.lane n).units = l.units)
        ∧ (l.st ≠ .active → Completes (.laneDrain n) s fun e => e.lane n = l)
        ∧ (l.st = .drain → l.ctx0.dir ≠ .seal → Completes (.drainComplete n) s fun e => (e.lane n).st ≠ .drain
            ∧ (e.lane n).regs.drain = false ∧ flag (e.lane n).regs.irqStatus 0 = true)
        ∧ (l.st = .drain → l.units = [] → l.caps = [] → l.stream.ended = false → l.ctx0.dir = .seal → d.boundaryDue n = false →
            l.stream.closing = true →
          Completes (.drainComplete n) s fun e => (e.lane n).stream.ended = true ∧ (e.lane n).regs.drain = false ∧ (e.lane n).st = .active
            ∧ flag (e.lane n).regs.irqStatus 0 = true ∧ (e.lane n).ctx0.elements = l.ctx0.elements + 1
            ∧ (e.lane n).ctx0.head = chainNext l.ctx0.head (element 4 (b2n d.time.servo.uncertain * 4) l.ctx0.stream d.now
                (closeBody l.ctx0.lastSeq l.ctx0.elements (if 0xFFFFFFFFFFFF < l.ctx0.nextSeq then 3 else 1) l.ctx0.head)))
        ∧ (l.ctx0.dir = .seal → l.stream.closing = false ∨ l.units ≠ [] ∨ l.caps ≠ [] → Completes (.drainComplete n) s fun e => e = d)
        ∧ (l.units = [] → l.ctx0.dir = .closed → l.ctx1.dir = .closed →
          Completes (.laneReset n) s fun e => e.lane n = { shadow := l.shadow, storeQ := l.storeQ })
        ∧ (l.units ≠ [] ∨ l.ctx0.dir ≠ .closed ∨ l.ctx1.dir ≠ .closed →
          Completes (.laneReset n) s fun e => flag (e.lane n).regs.err 1 = true ∧ (e.lane n).units = l.units ∧ (e.lane n).ctx0 = l.ctx0))
    ∧ (∀ c, c < d.nCombs → d.power.mode ≠ .close →
        ((d.comb c).clkEn = false → d.combsOn < d.combsMax → Completes (.combClkEnWrite c true) s fun e => (e.comb c).clkEn = true
          ∧ ∀ n, n / 8 = c → (d.lane n).regs.en = true → (d.lane n).st = .off → (e.lane n).st ≠ .off)
        ∧ ((d.comb c).clkEn = false → d.combsMax ≤ d.combsOn → Completes (.combClkEnWrite c true) s fun e =>
            (e.comb c).clkEn = false ∧ (e.comb c).modeLimit = true ∧ e.lanes = d.lanes)
        ∧ ((d.comb c).clkEn = true → d.combUsed c = true → Completes (.combClkEnWrite c false) s fun e =>
            (e.comb c).clkEn = true ∧ (e.comb c).clkRefused = true ∧ e.lanes = d.lanes)
        ∧ ((d.comb c).clkEn = true → d.combUsed c = false → Completes (.combClkEnWrite c false) s fun e => (e.comb c).clkEn = false
          ∧ ∀ n, n / 8 = c → (d.lane n).st ≠ .frozen → (d.lane n).st ≠ .schuss → (e.lane n).st = .off))

/-! The sealed store and staging memory -/

/-- R197 to R203: the doorbell; a descriptor that fails a check completes with its status and no side effect; what each
operation begins; and how a descriptor completes. -/
def Obligations.StoreDescriptors : Prop :=
  ∀ (s : State), let d := s.dev; let q := d.store.queue; let ws := d.storeDescWords; let o := parseStoreOp ws
    (∀ tail, d.supply.clocks = true → d.power.mode ≠ .close →
        (idxDiff tail q.sqHead ≤ 2 ^ q.sizeLog2 → Completes (.storeSqDoorbell tail) s fun e =>
          e = { d with store := { d.store with queue := { q with sqTail := tail % 2 ^ 32 } } })
        ∧ (2 ^ q.sizeLog2 < idxDiff tail q.sqHead → Completes (.storeSqDoorbell tail) s fun e =>
          e.store.queue = q ∧ flag e.store.err 1 = true))
    ∧ (∀ op, d.storeOpcode = some op →
        let turned := fun (st : Status) (e : Dev) => e.store.blocks = d.store.blocks ∧ e.store.pages = d.store.pages
          ∧ e.store.queue = { q with sqHead := idxAdd q.sqHead 1, cqTail := idxAdd q.cqTail 1, irq := q.irq || o.irq }
          ∧ spGet zeroWord (e.core 0).dmem (q.cqBase + q.cqTail % 2 ^ q.sizeLog2 * 2)
            = BitVec.ofNat 48 (o.tag + st.code % 4096 * 2 ^ 16 + phaseOf q.cqTail q.sizeLog2 * 2 ^ 28)
        let begun := fun (o' : StoreOp) (e : Dev) =>
          e.store.queue = { q with sqHead := idxAdd q.sqHead 1, running := q.running ++ [o'] } ∧ e.cores = d.cores
        (∀ m, op = 0 ∨ 6 < op → Completes (.storeRead m) s (turned .badDescType))
        ∧ (∀ m st, op = 1 → d.storeCheck ws m = some st → Completes (.storeRead m) s (turned st))
        ∧ (∀ st, d.storeCheck ws false = some st →
            (∀ data ok, op = 2 → Completes (.storeProgram data ok) s (turned st))
            ∧ (∀ data ok, op = 4 → Completes (.storeAppend data ok) s (turned st))
            ∧ (op = 3 → Completes .storeErase s (turned st)) ∧ (op = 5 → Completes .storePin s (turned st))
            ∧ (op = 6 → Completes .storeUnpin s (turned st)))
        ∧ (∀ m, op = 1 → d.storeCheck ws m = none → Completes (.storeRead m) s fun e => begun o e
            ∧ (e.blk o.block).readPins = (d.blk o.block).readPins + 1)
        ∧ (d.storeCheck ws false = none →
            (∀ data, op = 2 → Completes (.storeProgram data true) s fun e => begun o e ∧ (e.blk o.block).erased = false
              ∧ ∃ js : List PageJob, (e.store.pages.map fun j => { j with started := false })
                  = (d.store.pages ++ js).map (fun j => { j with started := false })
                ∧ js.map PageJob.data = pieces pageBytes (d.storeSource o data) ∧ ∀ j ∈ js, j.block = o.block ∧ j.owner = .queue o.tag)
            ∧ (∀ data, op = 2 → o.host = true → Completes (.storeProgram data false) s fun e =>
              begun { o with status := 0x016 } e ∧ e.store.pages = d.store.pages ∧ e.store.blocks = d.store.blocks)
            ∧ (op = 3 → (d.blk o.block).bad = false → Completes .storeErase s fun e => begun o e ∧ (e.blk o.block).erasing = true
              ∧ (e.blk o.block).pages = [] ∧ (e.blk o.block).ecnt = (d.blk o.block).ecnt)
            ∧ (∀ data, op = 4 → (frames (d.storeSource o data)).2 = false → Completes (.storeAppend data true) s fun e =>
              begun { o with status := 0x40A } e ∧ e.store.supQ = d.store.supQ)
            ∧ (∀ data, op = 4 → (frames (d.storeSource o data)).2 = true → Completes (.storeAppend data true) s fun e =>
              begun { o with done := o.bytes } e ∧ e.store.supQ = d.store.supQ
                ++ (frames (d.storeSource o data)).1.map fun f =>
                  { kind := f.1, lane := f.2.1, seq := 0, body := f.2.2, era := d.store.era })
            ∧ (op = 5 → (d.inSeqs o).Nodup → Completes .storePin s fun e => begun { o with done := (d.inSeqs o).length } e
              ∧ ∀ b, (e.blk b).holds = (d.blk b).holds + (if b ∈ d.inSeqs o then 1 else 0))
            ∧ (op = 6 → (d.inSeqs o).Nodup → Completes .storeUnpin s fun e =>
              begun { o with done := ((d.inSeqs o).filter fun b => decide (0 < (d.blk b).holds)).length } e
              ∧ ∀ b, (e.blk b).holds = (d.blk b).holds - (if b ∈ d.inSeqs o then 1 else 0))))
    ∧ (∀ i o, q.running[i]? = some o →
        (o.op = 3 → (d.blk o.block).erasing = false → (d.blk o.block).region ≠ .retired →
          Completes (.storeDescComplete i none true) s fun e =>
            e.store.queue = { q with running := q.running.eraseIdx i, cqTail := idxAdd q.cqTail 1, irq := q.irq || o.irq }
            ∧ spGet zeroWord (e.core 0).dmem (q.cqBase + q.cqTail % 2 ^ q.sizeLog2 * 2 + 1)
              = BitVec.ofNat 48 (o.done % 2 ^ 24 + (d.blk o.block).ecnt * 2 ^ 24))
        ∧ (o.op = 1 → o.host = true → Completes (.storeDescComplete i none false) s fun e =>
            e.store.queue.running = q.running.eraseIdx i
            ∧ ((d.blk o.block).eraseDue = false ∨ (d.blk o.block).bad = false → e.out = d.out) ∧ (e.blk o.block).readPins = (d.blk o.block).readPins - 1
            ∧ spGet zeroWord (e.core 0).dmem (q.cqBase + q.cqTail % 2 ^ q.sizeLog2 * 2)
              = BitVec.ofNat 48 (o.tag + 0x016 * 2 ^ 16 + phaseOf q.cqTail q.sizeLog2 * 2 ^ 28)))

/-- R179 to R184, R187, R190, R193, R195, R205, R213, R214: page programs, erases, the journal, the writer, and triggers; and
R207, R212, R216: training ends in READY with fresh keys or in FAULT; a drain ends in OFF without keys once nothing is
staged. -/
def Obligations.PagesAndStagingMemory : Prop :=
  (∀ (s : State), let d := s.dev
    (∀ j ok, j ∈ d.store.pages → j.done = false →
        (∀ k ∈ d.store.pages, k.block = j.block → k.page = j.page → k = j) →
        (j.started = false → d.power.mode ≠ .close → Completes (.storePageProgrammed j.block j.page ok) s fun e => e = d)
        ∧ (j.started = true → ok = true → j.owner ≠ .closeReserve → j.page = (d.blk j.block).readable → Completes (.storePageProgrammed j.block j.page ok) s fun e =>
          (d.blk j.block).readable < (e.blk j.block).readable ∧ (e.blk j.block).pages[(d.blk j.block).pages.length]? = some j.data)
        ∧ (j.started = true → ok = false → j.owner ≠ .closeReserve → Completes (.storePageProgrammed j.block j.page ok) s fun e =>
          flag e.store.err 2 = true ∧ (∀ tag, j.owner = .queue tag → j ∉ e.store.pages
            ∧ ∀ o ∈ d.store.queue.running, o.op = 2 → o.tag = tag →
                { o with status := Status.programFail.code } ∈ e.store.queue.running)))
    ∧ (∀ b ok, (d.blk b).erasing = true → (d.store.pages.any fun j => !j.done) = true ∨ (d.store.queue.running.any fun o => o.op == 1) = true →
      Completes (.storeEraseDone b ok) s fun e => e = d)
    ∧ (∀ b, (d.blk b).erasing = true → d.eraseSuspended = false →
        ((d.blk b).region = .container → Completes (.storeEraseDone b true) s fun e =>
          e.blk b = { region := .container, fast := (d.blk b).fast, ecnt := ((d.blk b).ecnt + 1) % 2 ^ 24, erased := true }
          ∧ e.store.erasedRing = d.store.erasedRing ++ [b] ∧ e.store.fullLanes = [])
        ∧ Completes (.storeEraseDone b false) s fun e => flag e.store.err 3 = true)
    ∧ (∀ b ok, (d.blk b).erasing = false → ok = true ∨ d.logErasing ≠ some b → Completes (.storeEraseDone b ok) s fun e => e = d)
    ∧ (∀ b, d.logErasing = some b → Completes (.storeEraseDone b false) s fun e => flag e.store.err 3 = true)
    ∧ (∀ rs rest ok, d.store.journal.inFlight = rs :: rest → d.dieTaken (d.blk d.store.journal.block).next = true →
        Completes (.journalPageProgrammed ok) s fun e => e = d)
    ∧ (∀ rs rest, d.store.journal.inFlight = rs :: rest → d.dieTaken (d.blk d.store.journal.block).next = false →
        (d.blk d.store.journal.block).next < 256 →
        (∀ b, b = d.store.journal.block → (d.blk b).next + (pieces pageBytes (jbytes rs)).length < 256 → (d.blk b).region = .journal →
            d.store.journal.taking = none ∨ rest ≠ [] →
          Completes (.journalPageProgrammed true) s fun e => (∃ more, e.store.journal.inFlight = rest ++ more)
            ∧ e.store.journal.records = (rs.reverse.map fun r => (b, r)) ++ d.store.journal.records
            ∧ (e.blk b).pages = (d.blk b).pages ++ pieces pageBytes (jbytes rs))
        ∧ Completes (.journalPageProgrammed false) s fun e => flag e.store.err 2 = true)
    ∧ (∀ n c r start copied f part, d.store.st = .ready → d.store.writerEn = true → d.store.cuts = [] → d.store.container = some c → c.cur = some (r, start, copied) →
        f = frameOf r.kind r.lane 0 r.body → part = (f.drop copied).take n → copied + part.length < f.length →
      Completes (.containerWriterTake n) s fun e => ∃ c', e.store.container = some c' ∧ c'.bytes = c.bytes ++ part
        ∧ c'.cur = some (r, start, copied + part.length) ∧ c'.records = c.records)
    ∧ (∀ n, d.store.st ≠ .ready ∨ d.store.writerEn = false ∨ d.store.cuts ≠ [] → Completes (.containerWriterTake n) s fun e => e = d)
    ∧ (∀ b, d.store.st = .ready → d.store.writerEn = true ∨ d.power.startStep = .reconcile → d.victim = some b → (d.blk b).bad = false →
        d.ringErased + (d.store.blocks.filter fun b => decide (b.2.region = .container) && b.2.erasing).length < d.store.preerase →
      Completes .ringPreerase s fun e => (e.blk b).erasing = true ∧ (e.blk b).seq = 0 ∧ (e.blk b).pages = []
        ∧ ∀ k, k ≠ b → e.blk k = d.blk k)
    ∧ (∀ line t rest, d.store.st = .ready → d.store.trig.toPlace = (line, t) :: rest →
      Completes .triggerHoldPlace s fun e => e.store.trig.toPlace = rest
        ∧ ∃ h ∈ e.store.holds, h.id = d.time.aon.pcyc * 2 ^ 32 + (d.store.holdCount + 1) ∧ h.origin = 1 ∧ h.source = line
          ∧ h.start = t - d.preRoll line * 2 ^ 32 ∧ h.stop = t + d.postRoll line * 2 ^ 32)
    ∧ (∀ line t, d.store.trig.rearm = [(line, t)] →
        (t < d.clk → Completes (.trigDebExpiry line) s fun e => e.store.trig.rearm = [])
        ∧ (d.clk ≤ t → Completes (.trigDebExpiry line) s fun e => e = d))
    ∧ (∀ line t rest, d.supply.clocks = true → d.power.mode ≠ .close → d.store.trig.fifo = (line, t) :: rest →
      Completes .storTrigPopRead s fun e => e = { d with store := { d.store with trig := { d.store.trig with fifo := rest, popTime := t } } })
    ∧ (∀ die, d.store.st ≠ .off →
        (die < d.variant.dies → Completes (.dieNoResponse die) s fun e => e = { d with store := { d.store with st := .fault } })
        ∧ (d.variant.dies ≤ die → Completes (.dieNoResponse die) s fun e => e = d)))
  ∧ (∀ (s : State), let d := s.dev
    (∀ channels, d.staging.st = .train →
        Completes (.stagingTrainDone channels true) s (fun e => e.staging.st = .ready ∧ e.staging.chPresent = channels % 16
          ∧ (∃ k, e.staging.keys = some k ∧ k.length = 96) ∧ e.lanes = d.lanes)
        ∧ Completes (.stagingTrainDone channels false) s fun e => e.staging.st = .fault ∧ flag e.staging.err 1 = true
          ∧ e.staging.keys = d.staging.keys)
    ∧ (∀ channels ok, d.staging.st ≠ .train → Completes (.stagingTrainDone channels ok) s fun e => e = d)
    ∧ (d.staging.st = .drain →
        (d.stagedSegs = 0 → Completes .stagingDrainDone s fun e => e.staging.st = .off ∧ e.staging.keys = none ∧ e.staging.chPresent = 0
          ∧ e.staging.pages = [] ∧ e.staging.position = d.staging.position)
        ∧ (d.stagedSegs ≠ 0 → Completes .stagingDrainDone s fun e => e = d))
    ∧ (d.staging.st ≠ .drain →
        (d.staging.en = true → Completes .stagingDrainDone s fun e => e = d)
        ∧ (d.staging.en = false → d.stagedSegs = 0 → Completes .stagingDrainDone s fun e => e.staging.st = .off ∧ e.staging.keys = none)))

/-! The host ports -/

/-- R255, R256, R260: slots and the notice channel of P0, P1 and P4; and R251, R252, R276: a session ends by LOGOUT, by the
idle time, with its link and by an expired challenge, which counts as a failed proof; a lockout ends. -/
def Obligations.MailboxesAndSessions : Prop :=
  (∀ (s : State) (p i : Nat), let d := s.dev
    d.supply.clocks = true → d.power.mode ≠ .standby → (p = 0 ∨ p = 1) ∧ i < 4 ∨ p = 4 ∧ i = 0 →
    (∀ len tag, (d.slot p i).st = .idle →
        (len = 0 → Completes (.mbxDoorbell p i len tag) s fun e =>
          e.slot p i = { d.slot p i with st := .done, tag := tag, status := 0x102, respLen := 0, req := [] } ∧ e.portsCfg = d.portsCfg)
        ∧ (windowSize p < len → Completes (.mbxDoorbell p i len tag) s fun e =>
          e.slot p i = { d.slot p i with st := .done, tag := tag, status := 0x103, respLen := 0, req := [] } ∧ flag (e.port p).mbx.err 2 = true)
        ∧ (0 < len → len ≤ windowSize p → d.serves = false → Completes (.mbxDoorbell p i len tag) s fun e =>
          e.slot p i = { d.slot p i with st := .busy, tag := tag, status := 0, respLen := 0,
                                         req := spGetAll zeroByte (d.port p).mbx.win (reqWindow p i) len }
          ∧ (d.portsCfg.edge ≠ d.clk → e.portsCfg.arrivals = d.portsCfg.arrivals ++ [(p, i)])
          ∧ ∀ q j, d.portsCfg.edge = d.clk → d.portsCfg.arrivals = [(q, j)] → d.portsCfg.edgeReqs = [(q, j)] → p < q ∨ p = q ∧ i < j →
              e.portsCfg.arrivals = [(p, i), (q, j)])
        ∧ ∀ f, f = spGetAll zeroByte (d.port p).mbx.win (reqWindow p i) len → 0 < len → len ≤ windowSize p → d.serves = true →
            d.portsCfg.arrivals = [] →
          (frameShape f = none → Completes (.mbxDoorbell p i len tag) s fun e =>
            (e.slot p i).st = .busy ∧ (e.slot p i).req = f ∧ e.portsCfg.arrivals = [(p, i)])
          ∧ (frameShape f ≠ none → (d.port p).pcie.d3hot = false → Completes (.mbxDoorbell p i len tag) s fun e =>
            (e.slot p i).st = .done ∧ (e.slot p i).respLen = 24 ∧ e.portsCfg.arrivals = []))
    ∧ (∀ len tag, (d.slot p i).st ≠ .idle → Completes (.mbxDoorbell p i len tag) s fun e =>
        e.slot p i = d.slot p i ∧ flag (e.port p).mbx.err 0 = true)
    ∧ ((d.slot p i).st = .done → Completes (.mbxSlotAck p i) s fun e => e.slot p i = { d.slot p i with st := .idle })
    ∧ ((d.slot p i).st ≠ .done → Completes (.mbxSlotAck p i) s fun e => e = d)
    ∧ (∀ v n, n = (d.port p).mbx.notices →
        (2 ^ (if p = 4 then 0 else n.size) < idxDiff n.tail (v % 2 ^ 32) → Completes (.mbxNtcHeadWrite p v) s fun e =>
          (e.port p).mbx.notices = n ∧ flag (e.port p).mbx.err 3 = true)
        ∧ (idxDiff n.tail (v % 2 ^ 32) ≤ 2 ^ (if p = 4 then 0 else n.size) → Completes (.mbxNtcHeadWrite p v) s fun e =>
          (e.port p).mbx.notices = { n with head := v % 2 ^ 32 })))
  ∧ (∀ (s : State) (p i : Nat), let d := s.dev
    p < 5 → i < nSess p →
    (isUdp p = false → d.supply.clocks = true → (d.sess p 0).st ≠ .locked →
      Completes (.mbxCtrlLogout p) s fun e => e.sess p 0 = { id := (d.sess p 0).id })
    ∧ (∀ t, (d.sess p i).idleAt = some t → (d.sess p i).st = .active →
        (t < d.clk → Completes (.mbxIdleExpiry p i) s fun e => e.sess p i = { id := (d.sess p i).id })
        ∧ (d.clk ≤ t → Completes (.mbxIdleExpiry p i) s fun e => e = d))
    ∧ ((d.sess p i).st = .challenged → d.now < (d.sess p i).expires → Completes (.challengeExpiry p i) s fun e => e = d)
    ∧ ((d.sess p i).st = .challenged → (d.sess p i).expires ≤ d.now → (d.port p).fails < 4 → Completes (.challengeExpiry p i) s fun e =>
        e.sess p i = { id := (d.sess p i).id } ∧ (e.port p).fails = (d.port p).fails + 1 ∧ (e.port p).lockAt = (d.port p).lockAt)
    ∧ ((d.sess p i).st = .challenged → (d.sess p i).expires ≤ d.now → 4 ≤ (d.port p).fails → Completes (.challengeExpiry p i) s fun e =>
        (e.port p).fails = 5 ∧ (e.port p).lockAt = some (d.clk + d.portsCfg.lockout * 1000000000)
          ∧ (e.sess p i).st = (if isUdp p then .none else .locked))
    ∧ (∀ t, (d.port p).lockAt = some t →
        (t ≤ d.clk → Completes (.mbxLockoutExpiry p) s fun e => (e.port p).lockAt = none ∧ (e.sess p 0).st ≠ .locked
          ∧ ((d.sess p 0).st ≠ .locked → e.sess p 0 = d.sess p 0))
        ∧ (d.clk < t → Completes (.mbxLockoutExpiry p) s fun e => e = d))
    ∧ (p = 2 ∨ p = 3 → (d.sess p i).st ≠ .locked → Completes (.ethLinkDown p) s fun e =>
        (e.port p).eth.rate = 0 ∧ e.sess p i = { id := (d.sess p i).id }))

/-- R249, R250, R267 to R273: datagrams of the six types, and the transport's timers; and R224, R225, R262 to R264, R276,
R586: resets and power states of the PCIe ports, accesses in STANDBY, and the management port's wake. -/
def Obligations.DatagramsAndPortPower : Prop :=
  (∀ (s : State) (p : Nat) (b : List Byte), let d := s.dev
    (d.udpUp p → udpShape b = false →
        let drop := fun (e : Dev) => (e.port p).eth.drop = satInc 32 (d.port p).eth.drop ∧ (e.port p).sess = (d.port p).sess
        Completes (.udpHello p b) s drop ∧ Completes (.udpProve p b) s drop ∧ Completes (.udpRequest p b) s drop
          ∧ Completes (.udpNoticeAck p b) s drop ∧ Completes (.udpExportAck p b) s drop ∧ Completes (.udpLogout p b) s drop)
    ∧ (d.udpUp p → udpShape b = true → d.canDraw 0 = true → d.serves = true → d.portLocked p = false →
        (∀ i, numAt b 5 1 = 1 → numAt b 0x19 1 = 1 → b.length = 132 → numAt b 0x1C 4 = 100 → helloOk p (b.drop 32) = true →
            d.life.st ≠ .retired → (d.port p).eth.hello = [] → (∀ j, j < 8 → (d.sess p j).st ≠ .challenged) →
            ((List.range 8).find? fun j => (d.sess p j).st == .none) = some i →
          (d.roleOk p (numAt b 32 1) = true → Completes (.udpHello p b) s fun e => (e.sess p i).st = .challenged
            ∧ (e.sess p i).hello = b.drop 32 ∧ (e.sess p i).expires = d.now + d.portsCfg.chalTime * 2 ^ 32)
          ∧ (d.roleOk p (numAt b 32 1) = false → Completes (.udpHello p b) s fun e => (e.port p).sess = (d.port p).sess ∧ e.rng = d.rng))
        ∧ (∀ i, numAt b 5 1 = 3 → d.sessBy p (numAt b 8 8) .challenged = some i → (d.sess p i).reasm = [] → numAt b 0x19 1 = 1 →
            numAt b 0x1C 4 + 32 = b.length → numAt b 0x1C 4 ≤ 1288 → bytesAt b 34 6 = zeros 6 → (d.port p).fails < 4 →
          Completes (.udpProve p b) s fun e =>
            if d.proves p i (b.drop 32) then (e.sess p i).st = .active ∧ (e.sess p i).role = Role.ofCode (numAt (d.sess p i).hello 0 1)
              ∧ (e.port p).fails = 0
            else (e.sess p i).st = .none ∧ (e.port p).fails = (d.port p).fails + 1))
    ∧ (∀ i, d.udpUp p → udpShape b = true → d.sessBy p (numAt b 8 8) .active = some i → (d.sess p i).reasm = [] → numAt b 0x19 1 = 1 →
          numAt b 0x1C 4 + 48 = b.length →
        let sent := fun (got : List Byte → Dev → Prop) (e : Dev) =>
          match udpOpen (d.sess p i).kC2d b with
          | none => (e.port p).eth.drop = satInc 32 (d.port p).eth.drop ∧ (e.port p).sess = (d.port p).sess
          | some m => got m e
        (numAt b 5 1 = 0x10 → numAt b 0x1C 4 ≤ 16384 → numAt b 0x10 8 = (d.sess p i).rxSeq + 1 → (d.sess p i).running = false →
          Completes (.udpRequest p b) s (sent fun m e => (e.sess p i).rxSeq = (d.sess p i).rxSeq + 1 ∧ (e.sess p i).req = m))
        ∧ (numAt b 5 1 = 0x13 → numAt b 0x1C 4 ≤ 8 → Completes (.udpNoticeAck p b) s (sent fun m e =>
            (e.sess p i).unacked = (d.sess p i).unacked.filter fun u => !(u.typ == 0x12 && u.seq == numAt m 0 8)))
        ∧ (numAt b 5 1 = 0x21 → numAt b 0x1C 4 ≤ 8 → d.exportOf p i = none → Completes (.udpExportAck p b) s (sent fun m e =>
            (e.sess p i).unacked = (d.sess p i).unacked.filter fun u => !(u.typ == 0x20 && u.seq == numAt m 0 8)))
        ∧ (numAt b 5 1 = 0x1F → numAt b 0x1C 4 = 0 → Completes (.udpLogout p b) s (sent fun _ e =>
            e.sess p i = { id := (d.sess p i).id })))
    ∧ (∀ i, i < 8 → p = 2 ∨ p = 3 →
        (Completes (.ethReasmExpiry p i) s fun e => (e.sess p i).reasm = ((d.sess p i).reasm.filter fun r => decide (d.clk ≤ r.until_))
          ∧ (e.port p).eth.hello = (d.port p).eth.hello.filter fun r => decide (d.clk ≤ r.until_))
        ∧ ∀ u, (d.sess p i).unacked = [u] →
          (u.at_ + ms (d.port p).eth.retx < d.clk → u.tries < 4 → Completes (.ethRetxExpiry p i) s fun e =>
            (e.sess p i).unacked = [{ u with at_ := d.clk, tries := u.tries + 1 }])
          ∧ (u.at_ + ms (d.port p).eth.retx < d.clk → 4 ≤ u.tries → u.typ = 0x12 → (d.sess p i).classes = 0 → Completes (.ethRetxExpiry p i) s fun e =>
            (e.sess p i).unacked = [] ∧ (e.port p).mbx.notices.lost = satInc 32 (d.port p).mbx.notices.lost)
          ∧ (d.clk ≤ u.at_ + ms (d.port p).eth.retx → Completes (.ethRetxExpiry p i) s fun e => e = d)))
  ∧ (∀ (s : State) (p : Nat), let d := s.dev
    let wakes := fun (e : Dev) => e.supply.clocks = true ∧ e.power.target = some .idle ∧ e.power.mode = .standby ∧ e.store.st = .scan
    (p = 0 ∨ p = 1 → d.supply.pgood = true → ∀ down rate width, Completes (.pciePortReset p down rate width) s fun e =>
        (e.sess p 0).st ≠ .active ∧ (e.sess p 0).role = .none ∧ (e.sess p 0).buf = [] ∧ (e.port p).pcie.d3hot = false
        ∧ (e.port p).pcie.linkDown = (if down then satInc 32 (d.port p).pcie.linkDown else (d.port p).pcie.linkDown)
        ∧ (∀ i, i < 4 → (e.slot p i).st = .idle)
        ∧ (∀ n, n < 64 → (d.lane n).ring0.valid = true → (e.lane n).ring0.severed = (decide ((d.lane n).ring0.port = p) || (d.lane n).ring0.severed)))
    ∧ (p = 0 ∨ p = 1 → d.supply.clocks = true →
        (Completes (.pcieD3hot p) s fun e => (e.port p).pcie.d3hot = true
          ∧ ∀ n, n < 64 → (d.lane n).ring0.valid = true → (d.lane n).ring0.port = p → (e.lane n).ring0.paused = true)
        ∧ ((d.port p).pcie.d3hot = true → (Completes (.pcieD0Return p) s fun e => (e.port p).pcie.d3hot = false
          ∧ (∀ n, n < 64 → (d.lane n).ring0.valid = true → (d.lane n).ring0.port = p → (e.lane n).ring0.paused = false)
          ∧ ∀ i f, i < 4 → (d.slot p i).st = .busy → (d.slot p i).resp = some f → (e.slot p i).st = .done ∧ (e.slot p i).respLen = f.length)))
    ∧ (d.power.mode = .standby → d.power.target ≠ some .idle →
        (p = 0 ∨ p = 1 → flag d.power.wakeEn (1 + p) = true →
          Completes (.pcieL1Exit p) s wakes ∧ (∀ len, Completes (.pcieStandbyAccess p len true) s fun e => wakes e ∧ Output.reads p (zeros len) ∈ e.out)
          ∧ (∀ len, Completes (.pcieStandbyAccess p len false) s wakes) ∧ ∀ i len tag, Completes (.mbxDoorbell p i len tag) s wakes)
        ∧ (p = 0 ∨ p = 1 → flag d.power.wakeEn (1 + p) = false → Completes (.pcieL1Exit p) s (fun e => e = d)
          ∧ ∀ len, Completes (.pcieStandbyAccess p len true) s fun e => e = { d with out := .reads p (zeros len) :: d.out })
        ∧ (flag d.power.wakeEn 0 = true → ∀ len, Completes (.mgtStandbyWake len) s wakes)
        ∧ (flag d.power.wakeEn 0 = false → ∀ len, 0 < len → Completes (.mgtStandbyWake len) s fun e => e = { d with out := .reads 4 (zeros len) :: d.out }))
    ∧ (d.power.mode = .idle → d.power.target = some .standby →
        let stays := fun (e : Dev) => e.power.mode = .idle ∧ e.power.target = none ∧ e.power.wakeAt = some d.clk
        (p = 0 ∨ p = 1 → flag d.power.wakeEn (1 + p) = true → Completes (.pcieL1Exit p) s stays)
        ∧ (flag d.power.wakeEn 0 = true → ∀ len, Completes (.mgtStandbyWake len) s stays))
    ∧ (∀ t, d.portsCfg.sclAt = some t →
        (t < d.clk → Completes .i2cSclLowExpiry s fun e => e = { d with portsCfg := { d.portsCfg with sclAt := none } })
        ∧ (d.clk ≤ t → Completes .i2cSclLowExpiry s fun e => e = d)))

/-! Public-key tiles -/

/-- R342 to R344, R348, R356: the doorbell and the checks of a descriptor, abandonment by tag, and the tiles that are
enabled. -/
def Obligations.TileQueues : Prop :=
  ∀ (s : State) (sub tail : Nat), let d := s.dev; let q := d.pkq sub
    d.supply.clocks = true → d.power.mode ≠ .close →
    (sub ≤ d.nCombs → tail < 2 ^ 32 →
      (2 ^ q.size < idxDiff tail q.sqHead → Completes (.pkSqDoorbell sub tail) s fun e =>
        e.tiles.queues = d.tiles.queues ∧ e.tiles.waiting = d.tiles.waiting ∧ flag e.tiles.err 3 = true)
      ∧ (idxDiff tail q.sqHead ≤ 2 ^ q.size →
        (q.en = false ∨ 2 ^ q.size ≤ idxDiff q.cqTail q.cqHead + d.jobsOf sub → Completes (.pkSqDoorbell sub tail) s fun e =>
          e.pkq sub = { q with sqTail := tail } ∧ e.tiles.waiting = d.tiles.waiting ∧ e.cores = d.cores)
        ∧ ∀ w j, w = (spGetAll zeroWord (d.core sub).dmem (q.sqBase + q.sqHead % 2 ^ q.size * 8) 8).map BitVec.toNat → j = parseJob sub w →
            q.en = true → tail = idxAdd q.sqHead 1 → idxDiff q.cqTail q.cqHead + d.jobsOf sub < 2 ^ q.size →
          (q.aborted = [q.sqHead] → Completes (.pkSqDoorbell sub tail) s fun e =>
            e.pkq sub = { q with sqTail := tail, sqHead := tail, cqTail := idxAdd q.cqTail 1, irq := q.irq || j.irq, aborted := [] }
            ∧ e.tiles.waiting = d.tiles.waiting
            ∧ e.tileNoted q sub (j.tag + Status.internalFault.code % 4096 * 2 ^ 16 + phaseOf q.cqTail q.size * 2 ^ 28 + 2 * 2 ^ 32) 0)
          ∧ (q.aborted = [] → d.jobCheck w j = none → Completes (.pkSqDoorbell sub tail) s fun e =>
            e.pkq sub = { q with sqTail := tail, sqHead := tail } ∧ e.tiles.waiting = d.tiles.waiting ++ [j] ∧ e.cores = d.cores)
          ∧ ∀ st, q.aborted = [] → d.jobCheck w j = some st → Completes (.pkSqDoorbell sub tail) s fun e =>
            e.pkq sub = { q with sqTail := tail, sqHead := tail, cqTail := idxAdd q.cqTail 1, irq := q.irq || j.irq }
            ∧ e.tiles.waiting = d.tiles.waiting ∧ flag e.tiles.err 4 = true
            ∧ e.tileNoted q sub (j.tag + st.code % 4096 * 2 ^ 16 + phaseOf q.cqTail q.size * 2 ^ 28) 0))
    ∧ (∀ tag, tag < 2 ^ 16 → let own := fun (j : Job) => j.sub = sub ∧ j.tag = tag ∧ j.what = .software
        Completes (.pkAbort sub tag) s fun e => e.tiles.waiting = d.tiles.waiting.filter (fun j => ¬ own j)
          ∧ (sub ≤ 8 → (e.pkq sub).aborted = q.aborted ++ d.heldJobs sub tag)
          ∧ ∀ t, t < 8 → (e.tile t).st = (d.tile t).st ∧ (e.tile t).parked = (d.tile t).parked.filter (fun j => ¬ own j)
            ∧ (e.tile t).running = (d.tile t).running.map fun j => if own j then { j with abandon := some 2, abandonAt := some d.clk } else j)
    ∧ (∀ en, (en % 256 = 0 → Completes (.pkTileEnWrite en) s fun e =>
          e.tiles = { d.tiles with err := e.tiles.err } ∧ flag e.tiles.err 0 = true)
        ∧ (en % 256 ≠ 0 → Completes (.pkTileEnWrite en) s fun e => e.tiles.tileEn = en % 256 ∧ ∀ t, t < 8 →
          (e.tile t).parked = (d.tile t).parked ∧ (e.tile t).running = (d.tile t).running
          ∧ (e.tile t).st = (if en.testBit t = true ∧ (d.tile t).st = .off then .idle
              else if en.testBit t = false ∧ (d.tile t).st = .idle then .off else (d.tile t).st)))

/-- R338, R343, R345 to R348, R350, R353 to R355: an operation starts as the job that the dispatcher offers, yields, and ends
with the result of its operands, or with none. -/
def Obligations.TileJobs : Prop :=
  ∀ (s : State) (t : Nat), let d := s.dev; let tile := d.tile t
    d.supply.clocks = true → t < 8 →
    (∀ r ∈ tileRows,
        (∀ j, tile.running = none → d.firstFor t (d.tileTop t) (tile.parked.length - 1) = some j → j.op = r.2 →
          Completes (r.1 t) s fun e => (e.tile t).st = .run ∧ (e.tile t).parked = tile.parked ∧ e.tiles.waiting = d.tiles.waiting.erase j
            ∧ ∃ run, (e.tile t).running = some run ∧ run.op = r.2 ∧ run.sub = j.sub ∧ run.tag = j.tag ∧ run.start = d.clk
              ∧ run.secret = (d.keySlot j.key).key ∧ run.slot = d.keySlot j.key ∧ run.cmp = d.compares j
              ∧ (j.sub ≤ 8 → run.input = d.memGet j.sub j.inAddr j.inLen ∧ run.aux = d.memGet j.sub j.auxAddr j.auxLen))
        ∧ (tile.running ≠ none ∨ (∀ j, d.firstFor t (d.tileTop t) (tile.parked.length - 1) = some j → j.op ≠ r.2) →
          Completes (r.1 t) s fun e => e = d))
    ∧ (tile.running = none → Completes (.tileYieldPoint t) s (fun e => e = d) ∧ ∀ f, Completes (.tileJobComplete t f) s fun e => e = d)
    ∧ ∀ j q, tile.running = some j → q = d.pkq j.sub →
      (j.abandon = none →
        (tile.parked.length < 3 → (d.firstFor t (some j) tile.parked.length).isSome = true → Completes (.tileYieldPoint t) s fun e =>
          e.tile t = { tile with st := .park, running := none, parked := { j with ran := d.ranTime j } :: tile.parked } ∧ e.tiles.waiting = d.tiles.waiting)
        ∧ (d.firstFor t (some j) tile.parked.length = none → Completes (.tileYieldPoint t) s fun e => e = d))
      ∧ (j.abandon = some 16 → Completes (.tileYieldPoint t) s fun e => e.cores = d.cores ∧ e.tiles.queues = d.tiles.queues)
      ∧ (j.what = .software → j.sub ≤ 8 → let stands := j.abandon = none ∨ j.abandonAt = some d.clk
        let dur := Nat.min (ceilDiv (d.ranTime j) 1000) 0xFFFFFF * 2 ^ 24
        (∀ c f, j.abandon = some c → c ≤ 15 →
          (Completes (.tileYieldPoint t) s fun e => e.tileNoted q j.sub (d.ranWord q j t .internalFault c) dur)
          ∧ (f ≠ 5 → j.abandonAt ≠ some d.clk →
            Completes (.tileJobComplete t f) s fun e => e.tileNoted q j.sub (d.ranWord q j t .internalFault c) dur))
        ∧ (stands → j.cmp = true → d.belowAlarm 10 → Completes (.tileJobComplete t 1) s fun e =>
          e.tileNoted q j.sub (d.ranWord q j t .internalFault 1) dur ∧ e.tiles.mismatch = satInc 32 d.tiles.mismatch
          ∧ flag e.tiles.err 1 = true ∧ e.keys = d.keys
          ∧ ∀ a, a ≠ q.cqBase + q.cqTail % 2 ^ q.size * 2 → a ≠ q.cqBase + q.cqTail % 2 ^ q.size * 2 + 1 →
            spGet zeroWord (e.core j.sub).dmem a = spGet zeroWord (d.core j.sub).dmem a)
        ∧ (j.abandon.getD 0 ≤ 15 → tile.parked = [] → Completes (.tileJobComplete t 5) s fun e =>
          (e.tile t).st = .fault ∧ (e.tile t).running = none ∧ flag e.tiles.err 2 = true
          ∧ e.tileNoted q j.sub (d.ranWord q j t .internalFault 5) dur)
        ∧ (stands → Completes (.tileJobComplete t 16) s fun e => e.tileNoted q j.sub (d.ranWord q j t .dmaFault 0) dur)
        ∧ (stands → j.outAddr + 300 ≤ q.cqBase + q.cqTail % 2 ^ q.size * 2 ∨ q.cqBase + q.cqTail % 2 ^ q.size * 2 + 2 ≤ j.outAddr →
          let ends := fun (st : Status) (out secret : List Byte) (e : Dev) =>
            e.tileNoted q j.sub (d.ranWord q j t st 0) (out.length + dur) ∧ e.memGet j.sub j.outAddr out.length = out
            ∧ e.tile t = { tile with st := .clear, running := none, clearAt := d.clk + 4000 }
            ∧ ∀ a, secret ≠ [] → (d.keySlot j.dst).openFor = some a →
              (e.keySlot j.dst).key = fitBytes (algLen (attrAlg a)) secret ∧ (e.keySlot j.dst).attr = a
          let r := j.drawn
          let gives := fun (st : Status) (out secret : List Byte) => Completes (.tileJobComplete t 0) s (ends st out secret)
          let judged := fun (valid good : Bool) => gives (if valid = false then .badField else if good then .ok else .badSignature) [] []
          (j.op = 0x01 → gives .ok (falconSig j.secret j.input r) [])
          ∧ (j.op = 0x02 → judged (Config.falconPubValid (bytesAt j.aux 0 1793))
              (Config.falconVerify (bytesAt j.aux 0 1793) j.input (bytesAt j.aux 1793 1280)))
          ∧ (j.op = 0x03 → gives .ok (keyFrom 7 r).2 (keyFrom 7 r).1)
          ∧ (j.op = 0x10 → gives .ok (keyFrom 4 r).2 (keyFrom 4 r).1)
          ∧ (j.op = 0x11 → if Config.kemPubValid j.input = false then gives .badField [] []
              else gives .ok (fitBytes 1568 (Config.kemEncaps j.input r).1) (fitBytes 32 (Config.kemEncaps j.input r).2))
          ∧ (j.op = 0x12 → gives .ok [] (fitBytes 32 (Config.kemDecaps j.secret j.input)))
          ∧ (j.op = 0x20 → gives .ok (fitBytes 96 (Config.ecdsaSign j.secret j.input r)) [])
          ∧ (j.op = 0x21 → judged (Config.p384PubValid (bytesAt j.aux 0 97))
              (Config.ecdsaVerify (bytesAt j.aux 0 97) j.input (bytesAt j.aux 97 96)))
          ∧ (j.op = 0x22 → gives .ok (keyFrom 5 r).2 (keyFrom 5 r).1)
          ∧ (j.op = 0x23 → match Config.ecdhP384 j.secret j.input with
              | some x => gives .ok [] (fitBytes 48 x)
              | none => gives .badField [] [])
          ∧ (j.op = 0x30 → let x := fitBytes 32 (Config.x25519 j.secret j.input)
              if x = zeros 32 then gives .badField [] [] else gives .ok [] x)
          ∧ (j.op = 0x31 → gives .ok (keyFrom 6 r).2 (keyFrom 6 r).1)
          ∧ (j.op = 0x40 → let n := if j.param % 2 = 0 then 384 else 512
              judged (decide (numAt j.aux n 4 % 2 = 1 ∧ 3 ≤ numAt j.aux n 4))
                (Config.rsaVerify (bytesAt j.aux 0 (n + 4) ++ [u8 j.param]) j.input (bytesAt j.aux (n + 4) n)))))

/-! Keys -/

/-- R360, R369, R375, R381, R382, R385: the key store's own operations end with the key, or the bytes, that the rules give,
or with the status of the first check that fails. -/
def Obligations.KeyOperations : Prop :=
  ∀ (s : State) (who : Nat), let d := s.dev; let o := d.keyRegs who; let src := d.keySlot o.src; let dst := d.keySlot o.dst
    let ops : List (Bool → Instr) := [.keyOpGenerate who, .keyOpDerive who 0 false, .keyOpDerive who 0 true, .keyOpWrap who, .keyOpUnwrap who,
      .keyOpOpenDst who, .keyOpClear who, .keyOpLoadLane who, .keyOpInfo who]
    (d.supply.clocks = false ∨ d.power.mode = .close ∨ d.nCombs < who ∨ o.busy = true → ∀ i ∈ ops, ∀ resv, Completes (i resv) s fun e => e = d)
    ∧ (d.supply.clocks = true → d.power.mode ≠ .close → who ≤ d.nCombs → o.busy = false →
      let bad := fun (st : Status) (e : Dev) => e.keyEnds d who st o.dst fun k => k = dst
      let enters := fun (a : Nat) (k : KeySlot → Prop) (e : Dev) =>
        if attrPersist a then e.keyWaits d who 1 o.dst k else e.keyEnds d who .ok o.dst k
      (∀ i ∈ ops, Completes (i true) s (bad .badField))
      ∧ (∀ a, a = withOrigin o.attr 0 →
          (d.takesKey who o.dst a → attrAlg a ≤ 3 → d.logClosed o.dst a = false → d.canDraw who = true → d.noLogRoom o.dst a 1536 = false →
            Completes (.keyOpGenerate who false) s (enters a fun k =>
              k.attr = a ∧ k.key.length = algLen (attrAlg a) ∧ k.tag = d.tagOf a ∧ k.created = d.now ∧ k.meas = d.keys.meas.mS))
          ∧ (3 < attrAlg a → Completes (.keyOpGenerate who false) s (bad .badField))
          ∧ (attrDefined a = true → 1 ≤ attrAlg a → attrAlg a ≤ 3 → d.slotCheck o.dst (attrAlg a) true = none → dst.full = true →
            Completes (.keyOpGenerate who false) s (bad .slotOccupied)))
      ∧ (∀ a b f, a = withOrigin o.attr 2 → b = d.bindingOf who f (attrSec a) → d.takesKey who o.dst a → d.logClosed o.dst a = false →
            d.noLogRoom o.dst a 0 = false → f ≤ 2 → (f = 2 → attrSec a ≤ (d.signerOf who).2) →
          (o.src ≤ 1087 → d.slotAbsent o.src = false → o.len ≤ 64 → inSram who o.addr o.len = true → f = attrFlavour a →
            (src.full = true → d.mayUse who o.src 4 = true → Completes (.keyOpDerive who f false false) s (enters a fun k => k.attr = a
              ∧ k.key = fitBytes (algLen (attrAlg a)) (deriveKey src.key f b (d.memGet who o.addr o.len) (algLen (attrAlg a))) ∧ k.tag = bindingTag b))
            ∧ (src.full = false → Completes (.keyOpDerive who f false false) s (bad .slotEmpty)))
          ∧ (o.src = 0x7FE → o.len ≤ 64 → inSram who o.addr o.len = true → f = attrFlavour a → d.hukUsable = true →
            (f ≠ 0 → Completes (.keyOpDerive who f false false) s (enters a fun k => k.attr = a
              ∧ k.key = fitBytes (algLen (attrAlg a)) (deriveKey d.kRoot f b (d.memGet who o.addr o.len) (algLen (attrAlg a)))))
            ∧ (f = 0 → Completes (.keyOpDerive who f false false) s (bad .attrDenied)))
          ∧ ((d.keySlot 67).full = true → d.mayUse who 67 4 = true → o.dst ≠ 67 → attrPersist a = false →
            Completes (.keyOpDerive who f true false) s fun e => (e.keyRegs who).status = Status.ok.code ∧ e.keySlot 67 = {}
              ∧ (e.keySlot o.dst).key = fitBytes (algLen (attrAlg a)) (d.kekOf (d.keySlot 67).key d.keys.epoch)))
      ∧ (o.src ≤ 1087 → d.slotAbsent o.src = false →
          (inSram who o.addr (src.key.length + 8) = true →
            (src.full = true → (d.keySlot 65).full = true → attrWrapOut src.attr = true → owns who (attrOwner src.attr) = true →
                lcAdmits (attrLc src.attr) d.life.st = true → d.mayUse who 65 3 = true →
              Completes (.keyOpWrap who false) s fun e => (e.keyRegs who).status = Status.ok.code ∧ e.keys.slots = d.keys.slots
                ∧ e.memGet who o.addr (src.key.length + 8) = kw (d.keySlot 65).key src.key)
            ∧ (src.full = false ∨ (d.keySlot 65).full = false → Completes (.keyOpWrap who false) s (bad .slotEmpty))
            ∧ (src.full = true → (d.keySlot 65).full = true → attrWrapOut src.attr = false → Completes (.keyOpWrap who false) s (bad .attrDenied)))
          ∧ (∀ a, a = withOrigin o.attr 1 → d.takesKey who o.dst a → d.logClosed o.dst a = false → d.noLogRoom o.dst a 0 = false → o.len ≠ 0 →
              o.len ≤ 2320 → inSram who o.addr o.len = true → src.full = true → d.mayUse who o.src 3 = true →
            Completes (.keyOpUnwrap who false) s fun e => match kwInv src.key (d.memGet who o.addr o.len) with
              | some key => if key.length = algLen (attrAlg a) then enters a (fun k => k.attr = a ∧ k.key = key) e else bad .noKey e
              | none => bad .noKey e)
          ∧ (∀ lane reg, lane = o.laneReg % 64 → reg = o.laneReg / 64 % 4 →
            (d.nLanes ≤ lane → Completes (.keyOpLoadLane who false) s (bad .badLane))
            ∧ (lane < d.nLanes → src.full = false → Completes (.keyOpLoadLane who false) s (bad .slotEmpty))
            ∧ (lane < d.nLanes → src.full = true → attrAlg src.attr = 1 → d.mayUse who o.src (if reg ≤ 1 then 1 else 2) = true →
                who = 0 ∨ who = 1 + lane / 8 →
              Completes (.keyOpLoadLane who false) s fun e => (e.keyRegs who).status = Status.ok.code ∧ e.keys.slots = d.keys.slots
                ∧ (reg = 0 → (e.lane lane).key.map (fun k => k.key) = some src.key ∧ (e.lane lane).prev = (d.lane lane).prev)
                ∧ (reg = 1 → (e.lane lane).prev.map (fun k => k.key) = some src.key ∧ (e.lane lane).key = (d.lane lane).key)
                ∧ (reg = 2 → (e.lane lane).ctx0.key = some (0, src.key)) ∧ (reg = 3 → (e.lane lane).ctx1.key = some (0, src.key))
                ∧ ∀ n, n ≠ lane → e.lane n = d.lane n)))
      ∧ (∀ a, a = withOrigin o.attr 3 → d.takesKey who o.dst a → d.logClosed o.dst a = false → d.noLogRoom o.dst a 0 = false →
          Completes (.keyOpOpenDst who false) s fun e => e.keyEnds d who .ok o.dst fun k => k = { openFor := some a })
      ∧ (o.dst ≤ 1087 → d.slotAbsent o.dst = false →
          (dst.full = false ∨ owns who (attrOwner dst.attr) = true → Completes (.keyOpInfo who false) s fun e =>
            (e.keyRegs who).status = Status.ok.code ∧ (e.keyRegs who).attrLo = lo32 dst.attr ∧ (e.keyRegs who).attrHi = hi32 dst.attr
            ∧ e.keys.slots = d.keys.slots)
          ∧ (dst.full = true → owns who (attrOwner dst.attr) = false →
            Completes (.keyOpInfo who false) s (bad .attrDenied) ∧ Completes (.keyOpClear who false) s (bad .attrDenied))
          ∧ (dst.full = true → slotClass o.dst = 5 ∨ slotClass o.dst = 6 → Completes (.keyOpClear who false) s (bad .attrDenied))
          ∧ (dst.full = true → owns who (attrOwner dst.attr) = true → slotClass o.dst ≠ 5 → slotClass o.dst ≠ 6 → d.keys.genClosed 2 o.dst = false →
            (attrPersist dst.attr = false → Completes (.keyOpClear who false) s fun e => e.keyEnds d who .ok o.dst fun k => k = {})
            ∧ (attrPersist dst.attr = true → Completes (.keyOpClear who false) s fun e => e.keyWaits d who 2 o.dst fun _ => True))))

/-- R364, R375, R379: key log records complete what waits for them; KEKs and their epochs. -/
def Obligations.KeyRecordsAndEpochs : Prop :=
  ∀ (s : State), let d := s.dev; let now := d.keyEpochOf d.now
    d.supply.clocks = true →
    (∀ p ps, d.keys.pending = p :: ps →
        (∀ who, p.done = .op who → who < 9 → p.ram = none → Completes (.keyLogRecordWritten true) s fun e =>
          e.keys.pending = ps
          ∧ e.keys.log = (if d.keys.genClosed p.rec_.kind p.rec_.index then d.keys.log
              else if halfBytes < d.keys.used + p.rec_.size
              then { p.rec_ with seq := d.keys.nextRec + d.keys.liveRecs.length } :: d.keys.liveRecs.reverse
              else { p.rec_ with seq := d.keys.nextRec } :: d.keys.log)
          ∧ (e.keyRegs who).done = true ∧ (e.keyRegs who).status = Status.ok.code
          ∧ (p.rec_.kind = 1 → e.keySlot p.rec_.index = p.rec_.slot) ∧ (p.rec_.kind = 2 → e.keySlot p.rec_.index = {}))
        ∧ (p.fails < 2 → Completes (.keyLogRecordWritten false) s fun e => e = { d with keys := { d.keys with pending := { p with fails := p.fails + 1 } :: ps } })
        ∧ (∀ who, 2 ≤ p.fails → p.done = .op who → who < 9 → Completes (.keyLogRecordWritten false) s fun e =>
          e.keys.pending = ps ∧ e.keys.slots = d.keys.slots ∧ e.keys.log = d.keys.log ∧ flag e.keys.err 2 = true
          ∧ (e.keyRegs who).status = Status.internalFault.code))
    ∧ (d.keys.pending = [] → ∀ ok, Completes (.keyLogRecordWritten ok) s fun e => e = d)
    ∧ (Completes (.kekPrepare false) s fun e => e = d)
    ∧ (d.power.mode = .close → Completes (.kekPrepare true) s (fun e => e = d) ∧ Completes .keyEpochBoundary s fun e => e = d)
    ∧ (∀ t, d.power.mode ≠ .close → d.power.bootDone = true → d.canDraw 0 = true → d.time.servo.run = true → d.barred 67 = false → d.keys.trustOf 3 = some t →
        (d.kekCurrent = false → Completes (.kekPrepare true) s fun e => e.keys.epoch = now ∧ e.keys.kekEpoch = now ∧ (e.keySlot 65).attr = kekAttr
          ∧ e.keySlot 67 = {}
          ∧ ∃ r, e.keys.encap = fitBytes 1568 (Config.kemEncaps t.key r).1 ∧ e.keys.kekId = shake e.keys.encap 16
            ∧ (e.keySlot 65).key = d.kekOf (fitBytes 32 (Config.kemEncaps t.key r).2) now)
        ∧ (d.kekCurrent = true → Completes (.kekPrepare true) s fun e => (∀ n, n ≠ 67 → e.keySlot n = d.keySlot n)
          ∧ (∃ r, (e.keySlot 67).key = fitBytes 32 (Config.kemEncaps t.key r).2) ∧ e.keys.kekEpoch = d.keys.kekEpoch
          ∧ ∃ k, e.keys.nextKek = some k ∧ k.epoch = now + d.keys.epochS * 2 ^ 32))
    ∧ (d.power.mode ≠ .close → d.time.servo.run = true → d.keys.epoch < now → let period := numAt (d.settings.get 0x22) 0 4
        (∀ k, d.keys.nextKek = some k → k.epoch = now → (d.keySlot 65).full = true → (d.keySlot 67).full = true → Completes .keyEpochBoundary s fun e =>
          e.keySlot 66 = d.keySlot 65 ∧ (e.keySlot 65).key = d.kekOf (d.keySlot 67).key now ∧ e.keySlot 67 = {} ∧ e.keys.kekEpoch = now ∧ e.keys.prevEpoch = d.keys.kekEpoch
          ∧ e.keys.epoch = now ∧ e.keys.epochS = period ∧ e.keys.nextKek = none)
        ∧ (d.keys.nextKek = none → Completes .keyEpochBoundary s fun e =>
          e = { d with keys := { d.keys with epoch := now, epochS := period } }))
    ∧ (d.time.servo.run = false ∨ now ≤ d.keys.epoch → Completes .keyEpochBoundary s fun e => e = d)
    ∧ (∀ t, d.keys.clear66 = some t → let due := Nat.max (boundaryOf (lastBoundary t d.hive.epoch + 1) d.hive.epoch) (t + 2 ^ 32)
        (due ≤ d.now → Completes .previousKekClear s fun e => e.keySlot 66 = {} ∧ e.keys.prevEncap = [] ∧ e.keys.clear66 = none
          ∧ ∀ n, n ≠ 66 → e.keySlot n = d.keySlot n)
        ∧ (d.now < due → Completes .previousKekClear s fun e => e = d))

/-! Random numbers -/

/-- R387 to R390, R393, R397: failures and start-up tests of the sources, conditioned blocks, retests and known-answer
tests; and R391, R392, R395, R399, R400: reseeds and instantiations of the instances, and the end of a host request's fill
window. -/
def Obligations.NoiseSourcesAndRandom : Prop :=
  (∀ (s : State), let d := s.dev; let r := d.rng
    d.supply.clocks = true →
    (∀ b test, let failed := fun (n : Nat) (e : Dev) => e.rng.src b = .failed ∧ flag e.rng.err (1 + n + if b then 3 else 0) = true
          ∧ (if b then e.rng.failsB = satInc 16 r.failsB else e.rng.failsA = satInc 16 r.failsA)
        (r.src b = .ok ∨ r.src b = .start → test = 1 ∨ test = 2 →
          (r.src (!b) = .ok → Completes (.noiseHealthFail b test) s fun e =>
            failed test e ∧ e.rng.activeB = (if r.activeB = b then !b else r.activeB) ∧ e.rng.stopped = r.stopped)
          ∧ (r.activeB = b → r.src (!b) ≠ .ok → r.ready = true → r.stopped = false → d.belowAlarm 9 → Completes (.noiseHealthFail b test) s fun e =>
            failed test e ∧ e.rng.stopped = true ∧ vget e.tamper.total 9 0 = satInc 16 (vget d.tamper.total 9 0)))
        ∧ ((r.src b = .failed ∨ r.src b = .off) ∨ test = 0 ∨ 2 < test → Completes (.noiseHealthFail b test) s fun e => e = d)
        ∧ (r.src b = .start →
          (r.src (!b) = .ok → Completes (.sourceStartupTestDone b true) s fun e =>
            e.rng.src b = .ok ∧ e.rng.activeB = r.activeB ∧ e.rng.stopped = r.stopped)
          ∧ (r.src (!b) ≠ .ok → Completes (.sourceStartupTestDone b true) s fun e =>
            e.rng.src b = .ok ∧ e.rng.activeB = b ∧ e.rng.stopped = r.condFail)
          ∧ (r.src (!b) = .ok → Completes (.sourceStartupTestDone b false) s (failed 0)))
        ∧ (r.src b ≠ .start → ∀ ok, Completes (.sourceStartupTestDone b ok) s fun e => e = d))
    ∧ (let i : Bool → Instr := fun b => if b then .rngRetestB else .rngRetestA
        ∀ b, d.power.mode ≠ .close → let n := if b then r.failsB else r.failsA
          (d.life.st = .fleet → 3 ≤ n → Completes (i b) s fun e => e = { d with rng := { r with err := setBit r.err 9 } })
          ∧ (d.life.st ≠ .fleet ∨ n < 3 →
            (r.src b = .failed → Completes (i b) s fun e => e.rng.src b = .start ∧ e.rng.src (!b) = r.src (!b))
            ∧ (r.src b ≠ .failed → Completes (i b) s fun e => e = d)))
    ∧ (r.stopped = true ∨ r.condFail = true ∨ r.src r.activeB ≠ .ok → Completes .conditionerBlock s fun e => e = d)
    ∧ (r.stopped = false → r.condFail = false → r.src r.activeB = .ok → r.fills = [] → 10240 ≤ r.cpool →
        ((∀ i, (d.inst i).need = none) → Completes .conditionerBlock s fun e =>
          e = { d with rng := { r with pool := Nat.min 512 (r.pool + 64), blocks := satInc 32 r.blocks, gathered := r.gathered + 64,
                                       activeB := if r.src r.preferB = .ok then r.preferB else r.activeB } })
        ∧ ∀ i, i < d.nInst → (∀ j, j ≠ i → (d.inst j).need = none) →
          ((d.inst i).need = some .reseed → Completes .conditionerBlock s fun e => e.rng.pool = Nat.min 512 (r.pool + 64) - 32
            ∧ (e.inst i).st = .ready ∧ (e.inst i).need = none ∧ (e.inst i).reseeds = satInc 32 (d.inst i).reseeds)
          ∧ ((d.inst i).need = some .instantiate → Completes .conditionerBlock s fun e => e.rng.pool = Nat.min 512 (r.pool + 64) - 48
            ∧ (e.inst i).st = .ready ∧ (e.inst i).need = none ∧ (e.inst i).seeded = true))
    ∧ (d.power.mode ≠ .close → (∀ i, (d.inst i).st ≠ .failed) →
        (r.condFail = false → Completes (.rngKat 0) s fun e => e = d)
        ∧ (r.condFail = true → r.stA = .ok ∨ r.stB = .ok → Completes (.rngKat 0) s fun e => e.rng.condFail = false ∧ e.rng.stopped = false)
        ∧ (d.belowAlarm 9 → ∀ bad,
          (bad.testBit 0 = true → Completes (.rngKat bad) s fun e => e.rng.condFail = true ∧ e.rng.stopped = true ∧ flag e.rng.err 7 = true)
          ∧ ∀ i, i < d.nInst → bad.testBit (1 + i) = true → Completes (.rngKat bad) s fun e =>
            (e.inst i).st = .failed ∧ (e.inst i).need = none ∧ flag e.rng.err 8 = true)))
  ∧ (∀ (s : State) (i : Nat), let d := s.dev; let r := d.rng; let x := d.inst i
    d.supply.clocks = true → i < d.nInst →
    let reseeded := fun (e : Dev) => e.inst i = { x with st := .ready, reqs := 0, reseeds := satInc 32 x.reseeds, stale := false, need := none }
    (d.power.mode = .close → Completes (.rngIctrlReseed i) s (fun e => e = d) ∧ Completes (.rngIctrlReinst i) s fun e => e = d)
    ∧ (d.power.mode ≠ .close →
      (x.st = .ready → r.stopped = false → 32 ≤ r.pool → Completes (.rngIctrlReseed i) s fun e => reseeded e ∧ e.rng.pool = r.pool - 32)
      ∧ (x.st = .ready → r.stopped = true ∨ r.pool < 32 → Completes (.rngIctrlReseed i) s fun e =>
          e.inst i = { x with st := .wait, need := some .reseed } ∧ e.rng.pool = r.pool)
      ∧ (x.st ≠ .ready → Completes (.rngIctrlReseed i) s fun e => e = d)
      ∧ (r.stopped = false → 48 ≤ r.pool → Completes (.rngIctrlReinst i) s fun e =>
          e.inst i = { x with st := .ready, seeded := true, reqs := 0, stale := false, need := none } ∧ e.rng.pool = r.pool - 48)
      ∧ (r.stopped = true ∨ r.pool < 48 → Completes (.rngIctrlReinst i) s fun e =>
          e.inst i = { x with st := .wait, seeded := false, reqs := 0, need := some .instantiate } ∧ e.rng.pool = r.pool))
    ∧ (∀ j, d.nInst ≤ j → Completes (.rngIctrlReinst j) s fun e => e = d)
    ∧ (d.canDraw i = true → r.reseedInt ≤ x.reqs → Completes (.reseedIntervalReached i) s reseeded)
    ∧ (d.canDraw i = false ∨ x.reqs < r.reseedInt → Completes (.reseedIntervalReached i) s fun e => e = d)
    ∧ (∀ f, r.fills = [f] →
        (d.clk ≤ f.until_ → Completes .hostFillWindowExpiry s fun e => e = d)
        ∧ (f.until_ < d.clk → d.waitsAt f.port f.slot → Completes .hostFillWindowExpiry s fun e =>
          e.rng.fills = [] ∧ e.answered d f.port f.slot 0 (le 4 f.data.length ++ zeros 4 ++ f.data)
          ∧ e.rng.partialCount = if f.data.length < f.count then satInc 16 r.partialCount else r.partialCount)))

/-! Tamper monitors -/

/-- R401 to R403, R406, R416, R418 to R422, R444: firings, the events that they are and the alarms that they raise, and the
evidence counter, the configuration record and injection; and R41 to R43, R411 to R414: what an alarm does, by the response
of its class. -/
def Obligations.TamperEventsAndAlarms : Prop :=
  (∀ (s : State), let d := s.dev; let t := d.tamper
    (∀ c det site, c ≤ 6 → det = 1 ∧ c ≠ 5 ∨ det = 2 → d.watches c = true → t.takesPart c site = true →
        let partner := t.corrob.find? fun k => k.cls == c && k.det != det && decide (d.clk ≤ k.until_)
        (∀ k, partner = some k → Completes (.sensorDetectorFire c det site none) s fun e =>
          e.tamper.corrob = t.corrob.erase k ∧ e.tamper.total = t.total ∧ e.tamper.events = t.events)
        ∧ (partner = none → d.belowAlarm c → Completes (.sensorDetectorFire c det site none) s fun e =>
          e.tamper.corrob = t.corrob ++ [{ cls := c, det := det, site := site, until_ := d.clk + corrobWindow c (d.power.mode = .vault) }]
          ∧ vget e.tamper.total c 0 = satInc 16 (vget t.total c 0) ∧ (vget e.tamper.events c []).head? = some d.clk ∧ e.aon.latch = d.aon.latch)
        ∧ (c ≠ 5 → d.belowAlarm c → Completes (.sensorDetectorFire c 3 site none) s fun e => e.tamper.corrob = t.corrob
          ∧ vget e.tamper.total c 0 = satInc 16 (vget t.total c 0) ∧ (vget e.tamper.events c []).head? = some d.clk))
    ∧ (∀ c det site, 10 < c ∨ c < 7 ∧ (det = 0 ∨ 3 < det ∨ d.watches c = false ∨ t.takesPart c site = false) →
        Completes (.sensorDetectorFire c det site none) s fun e => e = d)
    ∧ (∀ c det site, 8 ≤ c → c ≤ 10 →
        (d.supply.clocks = false → Completes (.sensorDetectorFire c det site none) s fun e => e = d)
        ∧ (d.supply.clocks = true → d.belowAlarm c → Completes (.sensorDetectorFire c det site none) s fun e =>
          vget e.tamper.total c 0 = satInc 16 (vget t.total c 0) ∧ (vget e.tamper.events c []).head? = some d.clk
          ∧ (c = 8 → site < d.nLanes → (d.lane site).st = .active ∨ (d.lane site).st = .idle ∨ (d.lane site).st = .drain →
              (e.lane site).st = .fault)
          ∧ (c = 8 → site = 64 → d.store.st = .ready → e.store.st = .fault)))
    ∧ (∀ site, d.watches 7 = true → d.belowAlarm 7 → Completes (.sensorDetectorFire 7 1 site none) s fun e =>
        e.supply.vbat = false ∧ vget e.tamper.total 7 0 = satInc 16 (vget t.total 7 0)
        ∧ (d.life.st = .fleet → e.aon.pending = Nat.min (d.aon.pending + 1) 255) ∧ (d.life.st ≠ .fleet → e.aon.pending = d.aon.pending))
    ∧ (∀ n v, n < 8 → d.watches 5 = true → (∀ x ∈ t.encDebounce, x.1 ≠ n) →
        (t.encLevel.testBit n ≠ v → Completes (.sensorDetectorFire 5 1 n (some v)) s fun e =>
          e.tamper.encDebounce = t.encDebounce ++ [(n, v, d.clk + t.cfg.encDeb * 100000)])
        ∧ (t.encLevel.testBit n = v → Completes (.sensorDetectorFire 5 1 n (some v)) s fun e => e = d))
    ∧ (∀ n v u, t.encDebounce = [(n, v, u)] → n < 8 →
        (d.clk ≤ u → Completes (.encDebExpiry n) s fun e => e = d)
        ∧ (u < d.clk → t.cfg.inEn.testBit n = false → Completes (.encDebExpiry n) s fun e =>
          e.tamper.encDebounce = [] ∧ e.tamper.encLevel.testBit n = v ∧ e.tamper.total = t.total)
        ∧ (u < d.clk → d.watches 5 = true → t.cfg.inEn.testBit n = true → t.cfg.inPol.testBit n = v → t.corrob = [] → d.belowAlarm 5 →
          Completes (.encDebExpiry n) s fun e => e.tamper.encDebounce = [] ∧ e.tamper.encLevel.testBit n = v
            ∧ vget e.tamper.total 5 0 = satInc 16 (vget t.total 5 0)))
    ∧ (∀ k, t.corrob = [k] →
        (d.clk ≤ k.until_ → Completes .corroborationWindowExpiry s fun e => e = d)
        ∧ (k.until_ < d.clk → k.cls < 32 → Completes .corroborationWindowExpiry s fun e =>
          e.tamper.corrob = [] ∧ flag e.aon.detFault k.cls = true ∧ e.tamper.total = t.total))
    ∧ (∀ c, c ≤ 10 → Completes (.filterWindowExpiry c) s fun e => ∀ a, a ∈ vget e.tamper.events c [] ↔
        a ∈ vget t.events c [] ∧ d.clk ≤ a + (vget t.cfg.cls c {}).window)
    ∧ (let n := Nat.max d.aon.pending d.aon.mirror; let k := Nat.min n (4096 - t.count)
        (d.supply.pgood = true → d.supply.clocks = true → d.power.mode ≠ .close → n ≠ 0 → Completes .tecIncrement s fun e =>
          e.tamper.tec1 = t.count + k ∧ e.tamper.tec2 = t.count + k ∧ e.aon.pending = 0 ∧ e.aon.mirror = 0)
        ∧ (d.supply.pgood = false ∨ d.supply.clocks = false ∨ d.power.mode = .close ∨ n = 0 → Completes .tecIncrement s fun e => e = d))
    ∧ (d.supply.clocks = true → d.power.mode ≠ .close →
        (d.tmpOpen = true → t.slots.length < 4 → Completes .tmpCfgCommit s fun e =>
          e = { d with tamper := { t with slots := t.slots ++ [t.cfg], committed := true } })
        ∧ (d.tmpOpen = true → 4 ≤ t.slots.length → Completes .tmpCfgCommit s fun e => e.tamper.slots = t.slots ∧ flag e.tamper.err 1 = true)
        ∧ (d.tmpOpen = false → Completes .tmpCfgCommit s fun e => e = d)
        ∧ ∀ c det, (d.life.st ≠ .provision → d.life.st ≠ .service → Completes (.tmpInject c det) s fun e =>
            e.tamper.total = t.total ∧ flag e.tamper.err 3 = true)
          ∧ (d.life.st = .provision ∨ d.life.st = .service → c ≤ 6 → det = 1 ∨ det = 2 → t.corrob = [] → d.belowAlarm c →
            Completes (.tmpInject c det) s fun e => vget e.tamper.total c 0 = satInc 16 (vget t.total c 0)
              ∧ ∃ k, e.tamper.corrob = [k] ∧ k.cls = c ∧ k.det = det ∧ k.inj = true))
    ∧ (d.life.pendingTampered = true →
        (d.power.mode = .idle ∨ d.power.mode = .standby ∨ d.power.mode = .test →
          (Completes (.tamperedEntryProgram true) s fun e => e.life.entries = d.life.entries ++ [0x4B] ∧ e.life.pendingTampered = false
            ∧ e.field.mem.pendingTampered = false)
          ∧ Completes (.tamperedEntryProgram false) s fun e => e.life.pendingTampered = true ∧ flag e.life.err 2 = true
            ∧ ∃ v, v ≠ 0x4B ∧ e.life.entries = d.life.entries ++ [v])
        ∧ (d.power.mode = .record ∨ d.power.mode = .ingest → ∀ ok, Completes (.tamperedEntryProgram ok) s fun e => e = d)))
  ∧ (∀ (s : State) (c site : Nat), let d := s.dev; let k := vget d.tamper.cfg.cls c {}
    c < 5 ∨ c = 6 → d.watches c = true → d.tamper.takesPart c site = true → ¬ d.belowAlarm c → d.power.mode ≠ .close →
    Completes (.sensorDetectorFire c 3 site none) s fun e =>
      (k.resp ≠ 2 ∨ d.power.mode = .record ∨ d.power.mode = .ingest →
          flag e.aon.latch c = true ∧ e.tamper.anyAlarm = true ∧ e.tamper.lastResp = k.resp ∧ vget e.tamper.events c [] = [])
      ∧ (k.resp < 2 → e.power.mode = d.power.mode ∧ e.keys.slots = d.keys.slots)
      ∧ (2 ≤ k.resp → d.power.mode = .record ∨ d.power.mode = .ingest → e.power.mode = .close ∧ ∀ n, n < d.nLanes → (d.lane n).st = .active →
          (e.lane n).st ≠ .active)
      ∧ (4 ≤ k.resp → e.aon.pending = Nat.min (d.aon.pending + 1) 255 ∧ ∀ n, slotClass n = 1 ∨ slotClass n = 2 → e.keySlot n = {})
      ∧ (k.resp = 4 → ∀ n, slotClass n ≠ 1 → slotClass n ≠ 2 → e.keySlot n = d.keySlot n)
      ∧ (k.resp = 5 → e.keys.slots = [] ∧ (d.life.st = .provision ∨ d.life.st = .fleet ∨ d.life.st = .service →
          e.life.st = .tampered ∧ e.life.pendingTampered = true))
      ∧ (d.power.mode = .vault → e.power.mode = .vault ∧ e.aon.vaultAlarm = true))

/-! The event recorder, the life cycle and the debug port -/

/-- R426, R428, R429, R431, R433 to R435: what reaches the log's pages, and what an erase and firmware's own types leave; and, in
the log's store blocks, R202 to R205. -/
def Obligations.EventLogPages : Prop :=
  ∀ (s : State), let d := s.dev; let l := d.log; let b0 := l.physOf 0; let bn := l.physOf (l.blocks.length - 1)
    let runs := l.frozen = false ∧ (d.blk bn).readPins = 0 ∧ d.eraseSuspended = false
    (∀ t, l.flushAt = some t →
        (t < d.clk → l.appending = true →
          (l.held = false → l.buffer ≠ [] → Completes .logFlushExpiry s fun e =>
            e.log.pages = l.pages ++ [l.buffer] ∧ e.log.buffer = [] ∧ e.log.flushAt = none)
          ∧ (∀ r, l.held = true → l.buffer.getLast? = some r → l.buffer.dropLast ≠ [] → Completes .logFlushExpiry s fun e =>
            e.log.pages = l.pages ++ [l.buffer.dropLast] ∧ e.log.buffer = [r] ∧ e.log.held = true ∧ e.log.flushAt = none))
        ∧ (d.clk ≤ t ∨ l.appending = false → Completes .logFlushExpiry s fun e => e = d))
    ∧ (d.dieTaken l.openPages = true ∨ l.frozen = true ∧ l.clearIdx = none → ∀ ok, Completes (.logPageProgrammed ok) s fun e => e = d)
    ∧ (∀ p ps, l.pages = p :: ps → l.carry = [] → d.dieTaken l.openPages = false → l.frozen = false ∨ l.clearIdx ≠ none →
        (l.clearIdx = none → l.openPages + 1 < 256 → ∀ b bs, l.blocks = b :: bs → Completes (.logPageProgrammed true) s fun e =>
          e.log.pages = ps ∧ e.log.blocks = (p.reverse ++ b) :: bs ∧ e.log.openPages = l.openPages + 1
          ∧ (e.blk b0).next = (d.blk b0).next + 1
          ∧ ∀ c, c ∈ e.aon.buffer ↔ c ∈ d.aon.buffer ∧ (c.only = true ∨ ∀ r ∈ p, r.index ≠ c.index))
        ∧ (Completes (.logPageProgrammed false) s fun e => e.log.pages.head? = some p ∧ e.log.blocks = l.blocks ∧ e.log.openPages = 0
          ∧ flag e.log.err 1 = true ∧ flag e.store.err 2 = true ∧ ∀ n, d.replacement .eventLog = some n → e.log.phys = n :: l.phys.drop 1)
        ∧ (∀ i r, l.clearIdx = some i → p = [r] → r.index = i → l.openPages + 1 < 256 → l.blocks ≠ [] → ps = [] → l.buffer = [] →
          Completes (.logPageProgrammed true) s fun e => e.log.clearIdx = none ∧ e.log.oldest = i
            ∧ e.log.clearErase = l.blocks.length - 1 ∧ e.log.erasing = false ∧ ∀ b ∈ e.log.blocks, ∀ x ∈ b, i ≤ x.index))
    ∧ (l.pages = [] → l.carry = [] → ∀ ok, Completes (.logPageProgrammed ok) s fun e => e = d)
    ∧ (0 < l.clearErase → runs → Completes .logBlockEraseDone s fun e =>
        e.log.clearErase = l.clearErase - 1 ∧ e.log.blocks = l.blocks.dropLast ∧ e.log.erased = l.erased + 1
        ∧ e.blk bn = { region := .eventLog, fast := true, ecnt := ((d.blk bn).ecnt + 1) % 2 ^ 24, erased := true })
    ∧ (0 < l.clearErase → runs → Completes (.storeEraseDone bn false) s fun e => flag e.store.err 3 = true
        ∧ e.log.clearErase = l.clearErase - 1 ∧ e.log.blocks = l.blocks.dropLast
        ∧ ∀ n, d.replacement .eventLog = some n → n ≠ bn → (e.blk bn).region = .retired ∧ e.log.phys = l.phys.map fun x => if x = bn then n else x)
    ∧ (l.clearErase = 0 → l.erasing = true → runs → l.buffer = [] → (d.blk bn).ecnt + 1 ≤ 30000 → Completes .logBlockEraseDone s fun e =>
        (e.blk bn).ecnt = (d.blk bn).ecnt + 1 ∧ (e.blk bn).erased = true ∧ e.log.erasing = false ∧ e.log.openPages = 0 ∧ e.log.blocks = [] :: l.blocks.dropLast
        ∧ ∃ c, e.log.carry = c ∧ e.log.next = l.next + c.length ∧ ∀ r ∈ c, r.carried = true)
    ∧ (l.clearErase = 0 ∧ l.erasing = false ∨ ¬runs → Completes .logBlockEraseDone s fun e => e = d)
    ∧ (∀ typ, typ < 1024 →
        (d.supply.clocks = false ∨ d.power.mode = .close → Completes (.logSwGo typ) s fun e => e = d)
        ∧ (typ ∉ swTypes → d.supply.clocks = true → d.power.mode ≠ .close →
            Completes (.logSwGo typ) s fun e => e = { d with log := { l with err := setBit l.err 2 } })
        ∧ (typ ∈ swTypes → d.supply.clocks = true → d.power.mode ≠ .close → l.held = false → l.buffer.length + 1 < 512 → (∀ r ∈ l.buffer, r.sev ≠ 3) →
            (∀ p, (d.port p).mbx.notices.classes = 0) → (∀ p i, (d.sess p i).classes = 0) →
          Completes (.logSwGo typ) s fun e => ∃ r, e.log.buffer = l.buffer ++ [r] ∧ e.log.held = true ∧ e.log.next = l.next + 1
            ∧ r.typ = typ ∧ r.sev = swSeverity typ ∧ r.index = l.next ∧ r.custodyTime = d.now ∧ r.powerCycle = d.time.aon.pcyc
            ∧ r.data = le 4 l.swData0.toNat ++ le 4 l.swData1.toNat ++ le 4 l.swData2.toNat))

/-- R361, R374, R383, R438 to R442, R455: an entry that is programmed moves the state and destroys what the transition
destroys, one that fails leaves the state; transitions from the debug port; and the erase of a retired device. -/
def Obligations.LifeCycleEntries : Prop :=
  ∀ (s : State), let d := s.dev
    d.supply.clocks = true →
    (∀ g, d.life.going = some g → g.marked = true →
        (spWf (fun _ => {}) d.keys.slots = true → Completes (.lcEntryProgrammed true) s fun e =>
          e.life.st = g.target ∧ e.life.going = none ∧ e.life.entries = d.life.entries ++ [g.target.code * 16 + (15 - g.target.code)]
          ∧ e.life.lastFrom = d.life.st.code ∧ e.life.lastTo = g.target.code ∧ e.dbg.level = restLevel g.target ∧ e.dbg.until_ = none
          ∧ (∀ p i, i < nSess p → (e.sess p i).st ≠ .active)
          ∧ (g.target = .retired → e.keys.slots = [] ∧ e.keys.hukDead = true ∧ e.keys.log = [] ∧ e.life.eraseLeft = d.variant.blocks)
          ∧ (g.target ≠ .retired → ∀ n, n ≠ 1025 → n ≠ 1024 → n ≠ 64 →
            e.keySlot n = if destroyed d.life.st g.target (d.keySlot n).attr then {} else d.keySlot n)
          ∧ (g.target = .fleet ∨ g.target = .service → attrAlg (e.keySlot 1025).attr = 7)
          ∧ (g.target = .fleet → e.receipts.lastPeriodic = [] ∧ e.receipts.lastAny = []
              ∧ e.life.fleetFrom = d.time.aon.pcyc * 2 ^ 32 + d.hive.snapSeq))
        ∧ Completes (.lcEntryProgrammed false) s fun e => e.life.st = d.life.st ∧ e.life.going = none ∧ flag e.life.err 2 = true
          ∧ e.keys.slots = d.keys.slots ∧ ∃ v, v ≠ g.target.code * 16 + (15 - g.target.code) ∧ e.life.entries = d.life.entries ++ [v])
    ∧ (d.life.going = none → ∀ ok, Completes (.lcEntryProgrammed ok) s fun e => e = d)
    ∧ (∀ b, b = d.variant.blocks - d.life.eraseLeft →
        (d.life.st = .retired → d.power.mode = .idle → 0 < d.life.eraseLeft → Completes .retireStoreErase s fun e =>
          e.life.eraseLeft = d.life.eraseLeft - 1
          ∧ e.blk b = { region := (d.blk b).region, fast := (d.blk b).fast, bad := (d.blk b).bad, ecnt := ((d.blk b).ecnt + 1) % 2 ^ 24, erased := true }
          ∧ ∀ k, k ≠ b → e.blk k = d.blk k)
        ∧ (d.life.st ≠ .retired ∨ d.power.mode ≠ .idle ∨ d.life.eraseLeft = 0 → Completes .retireStoreErase s fun e => e = d))
    ∧ (∀ r ∈ [(Instr.dbgCtrlLcProvision, LcSt.provision), (.dbgCtrlLcRetire, .retired)], d.power.mode ≠ .standby →
        (d.dbg.level = .full → d.life.st = .blank → d.lcCommon r.2 = true → Completes r.1 s fun e =>
          (∃ g, e.life.going = some g ∧ g.target = r.2 ∧ g.source = 5 ∧ g.marked = false) ∧ e.life.st = .blank
          ∧ ∃ p, e.keys.pending = d.keys.pending ++ [p] ∧ p.done = .transition ∧ p.rec_.kind = 7 ∧ p.rec_.mark = some r.2.code)
        ∧ (d.dbg.level ≠ .full ∨ d.life.st ≠ .blank ∨ d.lcCommon r.2 = false → Completes r.1 s fun e =>
          e = { d with life := { d.life with err := setBit d.life.err 1 } }))

/-- R445 to R447, R451, R453, R456, R457, R591: the debug port and the TAP at each level. -/
def Obligations.DebugPort : Prop :=
  ∀ (s : State), let d := s.dev
    let locked := fun (space addr : Nat) (e : Dev) => e.dbg.lockedHit = true ∧ e.dbg.hitValid = true
      ∧ (d.dbg.hitValid = false → e.dbg.hitSpace = space % 16 ∧ e.dbg.hitAddr = addr % 2 ^ 32)
      ∧ (d.dbg.hitValid = true → e.dbg.hitSpace = d.dbg.hitSpace ∧ e.dbg.hitAddr = d.dbg.hitAddr)
    (d.debugOn = true → d.power.mode ≠ .standby → Completes .dbgCtrlLock s fun e =>
        e.dbg.level = .closed ∧ e.dbg.until_ = none ∧ e.dbg.halted = 0 ∧ e.dbg.step = 0)
    ∧ (d.debugOn = false ∨ d.power.mode = .standby → Completes .dbgCtrlLock s (fun e => e = d) ∧ Completes .dbgCoreResume s (fun e => e = d)
        ∧ Completes .dbgCoreStep s (fun e => e = d) ∧ ∀ mask, Completes (.dbgCoreHalt mask) s fun e => e = d)
    ∧ (∀ c, c < 9 → d.debugOn = true → d.power.mode ≠ .standby →
        (d.coreInReach c = true → (Completes (.dbgCoreHalt (2 ^ c)) s fun e => e.dbg.halted = d.dbg.halted ||| 2 ^ c ∧ e.cores = d.cores)
          ∧ (d.dbg.halted = 2 ^ c → (Completes .dbgCoreResume s fun e => e.dbg.halted = 0)
            ∧ Completes .dbgCoreStep s fun e => e.dbg.step = d.dbg.step ||| 2 ^ c ∧ e.dbg.halted = d.dbg.halted))
        ∧ (d.coreInReach c = false → Completes (.dbgCoreHalt (2 ^ c)) s fun e => e.dbg.halted = d.dbg.halted ∧ locked 2 0x54418 e))
    ∧ (∀ t, d.dbg.until_ = some t →
        (t ≤ d.now → Completes .unlockWindowExpiry s fun e => e.dbg.level = .closed ∧ e.dbg.until_ = none)
        ∧ (d.now < t → Completes .unlockWindowExpiry s fun e => e = d))
    ∧ (∀ c, d.dbg.chal = some c →
        (c.2.2 ≤ d.now → Completes .debugChallengeExpiry s fun e => e = { d with dbg := { d.dbg with chal := none } })
        ∧ (d.now < c.2.2 → Completes .debugChallengeExpiry s fun e => e = d))
    ∧ (d.debugOn = true →
        (∀ r ∈ [(Instr.tapExtest, 0x00), (.tapClamp, 0x03), (.tapHighz, 0x04)],
          (d.levelNow = .full → Completes r.1 s fun e => e = { d with dbg := { d.dbg with tapIr := r.2 } })
          ∧ (d.levelNow ≠ .full → Completes r.1 s fun e => e = { d with dbg := { d.dbg with tapIr := 0x3F } }))
        ∧ (∀ cells, Completes (.tapSamplePreload cells) s fun e => e.dbg.tapIr = 0x01 ∧ e.dbg.boundary = cells)
        ∧ (Completes .tapIdcode s fun e => e.dbg.tapIr = 0x02 ∧ e.out.head? = some (.tap d.variant.idcode))
        ∧ (Completes .tapBypass s fun e => e = { d with dbg := { d.dbg with tapIr := 0x3F } })
        ∧ (d.power.mode ≠ .standby → ∀ core a v,
          (∀ space wr, 2 < space → Completes (.tapDbgAccess wr space core a v) s fun e =>
            locked space a e ∧ e.out.head? = some (.tapErr 0xA5A5A5A5A5A5) ∧ e.cores = d.cores)
          ∧ (d.levelNow = .closed → core ≤ d.nCombs → ∀ space wr, space < 2 → a < spaceWords space →
            Completes (.tapDbgAccess wr space core a v) s fun e => locked space a e ∧ e.out.head? = some (.tapErr 0xA5A5A5A5A5A5)
              ∧ e.cores = d.cores)
          ∧ (d.levelNow = .full → core ≤ d.nCombs → inDspace core a = true → a < spaceWords 1 →
            (Completes (.tapDbgAccess false 1 core a v) s fun e => e.out = .tap (spGet zeroWord (d.core core).dmem a).toNat :: d.out
              ∧ e.cores = d.cores)
            ∧ Completes (.tapDbgAccess true 1 core a v) s fun e => spGet zeroWord (e.core core).dmem a = v
              ∧ (∀ b, b ≠ a → spGet zeroWord (e.core core).dmem b = spGet zeroWord (d.core core).dmem b)
              ∧ ∀ n, n ≠ core → e.core n = d.core n)
          ∧ (d.levelNow = .limited → core ≤ d.nCombs → a < spaceWords 1 → (d.core core).mpu.inForce = true →
            (d.core core).mpu.allows .user 1 0 a = false → Completes (.tapDbgAccess false 1 core a v) s fun e =>
              locked 1 a e ∧ e.out.head? = some (.tapErr 0xA5A5A5A5A5A5))))

/-! Code flash -/

/-- R516, R520 to R531: the doorbell, descriptors with their checks and effects, and the banks at work. -/
def Obligations.CodeFlashDescriptors : Prop :=
  ∀ (s : State), let d := s.dev; let c := d.flash; let w := d.cflWords
    let op := wordOf w 0 % 256; let tag := wordOf w 0 / 2 ^ 16 % 65536; let irq := (wordOf w 0).testBit 8; let addr := wordOf w 2
    let off := wordOf w 1 % 2097152; let b := wordOf w 1 / 2 ^ 21 % 2; let n := wordOf w 1 / 2 ^ 24 % 256; let level := wordOf w 3 % 4
    let cq := c.cqBase + c.cqTail % 2 ^ c.sizeLog2 * 2
    let noted := fun (tag : Nat) (irq : Bool) (st : Status) (done : Nat) (e : Dev) =>
      e.flash.cqTail = idxAdd c.cqTail 1 ∧ e.flash.irq = (c.irq || irq)
      ∧ spGet zeroWord (e.core 0).dmem cq
        = BitVec.ofNat 48 (tag % 65536 + st.code % 4096 * 2 ^ 16 + phaseOf c.cqTail c.sizeLog2 * 2 ^ 28)
      ∧ spGet zeroWord (e.core 0).dmem (cq + 1) = BitVec.ofNat 48 done
    let taken := fun (e : Dev) => e.flash.sqHead = idxAdd c.sqHead 1
    let five : List (Instr × Nat) := [(.cflRead, 1), (.cflProgram, 2), (.cflErase, 3), (.cflActivate, 4), (.cflRdp, 5)]
    d.supply.clocks = true →
    (∀ t, t < 2 ^ 32 → d.power.mode ≠ .close →
        (2 ^ c.sizeLog2 < idxDiff t c.sqHead ∨ idxDiff t c.sqHead < idxDiff c.sqTail c.sqHead → Completes (.cflSqDoorbell t) s fun e =>
          e = { d with flash := { c with err := setBit c.err 1 } })
        ∧ (idxDiff t c.sqHead ≤ 2 ^ c.sizeLog2 → idxDiff c.sqTail c.sqHead ≤ idxDiff t c.sqHead → Completes (.cflSqDoorbell t) s fun e =>
          e = { d with flash := { c with sqTail := t } }))
    ∧ (∀ r ∈ five, d.cflReady = false ∨ d.power.mode = .close ∨ op ≠ r.2 ∧ 1 ≤ op ∧ op ≤ 5 → Completes r.1 s fun e => e = d)
    ∧ (d.cflReady = true → d.power.mode ≠ .close →
        let rejected := fun (st : Status) (e : Dev) => noted tag irq st 0 e ∧ taken e ∧ e.flash.bank0 = c.bank0 ∧ e.flash.bank1 = c.bank1
          ∧ e.flash.mem = c.mem ∧ e.keys = d.keys
        (op = 0 ∨ 5 < op → Completes .cflRead s (rejected .badDescType))
        ∧ (∀ r ∈ five, ∀ st, op = r.2 → d.cflCheck w = some st → Completes r.1 s (rejected st))
        ∧ (op = 1 → d.cflCheck w = none →
          ((c.bank b).st = .idle → (c.bank b).job = none → cq + 2 ≤ addr ∨ addr + 8 * n ≤ cq →
              (∀ i, i < n → (c.bank b).spoilt (off + 8 * i) = false ∧ (c.bank b).made (off + 8 * i) = false) →
            Completes .cflRead s fun e => noted tag irq .ok n e ∧ taken e ∧ spGetAll zeroWord (e.core 0).dmem addr (8 * n) = c.words b off (8 * n))
          ∧ ((c.bank b).st = .program → (c.bank b).erasing = none → Completes .cflRead s fun e => e = d))
        ∧ (∀ r ∈ [((Instr.cflProgram, 2), BankSt.program), ((.cflErase, 3), .erase), ((.cflActivate, 4), .program)],
            op = r.1.2 → d.cflCheck w = none → (c.bank b).job = none → (c.bank b).queue = [] →
          Completes r.1.1 s fun e => taken e ∧ e.flash.cqTail = c.cqTail ∧ e.flash.mem = c.mem
            ∧ e.flash.bank b = { c.bank b with
                st := r.2, susp := 0,
                job := some { op := r.1.2, tag := tag, irq := irq, bank := b, offset := off, count := n,
                              data := if r.1.2 = 3 then [] else spGetAll zeroWord (d.core 0).dmem addr (8 * n) } }
            ∧ e.flash.bank (1 - b) = c.bank (1 - b))
        ∧ (op = 5 → d.cflCheck w = none →
          (∀ st, d.rdpCheck level = some st → Completes .cflRdp s (rejected st))
          ∧ (d.rdpCheck level = none → c.level < level → Completes .cflRdp s fun e => noted tag irq .ok 1 e ∧ taken e ∧ e.flash.level = level)
          ∧ (d.rdpCheck level = none → level < c.level → Completes .cflRdp s fun e => e.flash.level = level ∧ e.flash.seals = c.seals + 1
            ∧ e.keys.slots = [] ∧ e.keys.g = Nat.min 256 (d.keys.g + 1) ∧ e.power.startStep = .reset)))
    ∧ (∀ b j, b < 2 → (c.bank b).job = some j → j.bank = b →
        let row := j.offset + 8 * j.done
        let ends := fun (e : Dev) => (c.bank b).queue = [] → (e.flash.bank b).st = .idle ∧ (e.flash.bank b).job = none
        ((c.bank b).st = .program → j.tag < 65536 →
          (j.done + 1 < j.count → row ≠ actRow → Completes (.cflRowProgrammed b true) s fun e =>
            e.flash.bank b = { c.bank b with job := some { j with done := j.done + 1 } } ∧ e.flash.cqTail = c.cqTail
            ∧ e.flash.mem = spSetAll erasedWord c.mem (flashAt b row) ((j.data.drop (8 * j.done)).take 8))
          ∧ (j.count ≤ j.done + 1 → Completes (.cflRowProgrammed b true) s fun e => noted j.tag j.irq .ok (j.done + 1) e ∧ ends e
            ∧ e.flash.mem = spSetAll erasedWord c.mem (flashAt b row) ((j.data.drop (8 * j.done)).take 8))
          ∧ (Completes (.cflRowProgrammed b false) s fun e => noted j.tag j.irq .programFail j.done e ∧ ends e ∧ flag e.flash.err 2 = true
            ∧ row ∈ (e.flash.bank b).bad ∧ e.flash.mem = c.mem)
          ∧ ∀ ok, Completes (.cflEraseDone b ok) s fun e => e = d)
        ∧ ((c.bank b).st = .erase → j.tag < 65536 → let sec := sectorOf j.offset
          (Completes (.cflEraseDone b true) s fun e => noted j.tag j.irq .ok 1 e ∧ ends e
            ∧ ∀ a, spGet erasedWord e.flash.mem a
              = if flashAt b sec.1 ≤ a ∧ a < flashAt b (sec.1 + sec.2) then BitVec.allOnes 48 else spGet erasedWord c.mem a)
          ∧ (Completes (.cflEraseDone b false) s fun e => noted j.tag j.irq .eraseFail 0 e ∧ ends e ∧ flag e.flash.err 3 = true
            ∧ sec.1 ∈ (e.flash.bank b).torn)
          ∧ ∀ ok, Completes (.cflRowProgrammed b ok) s fun e => e = d))
    ∧ (∀ b t, b < 2 → (c.bank b).st = .suspended → (c.bank b).quietAt = some t →
        (t < d.clk → Completes (.cflEraseResumeExpiry b) s fun e =>
          e.flash.bank b = { c.bank b with st := if (c.bank b).susp = 8 then .eraseFinal else .erase, quietAt := none })
        ∧ (d.clk ≤ t → Completes (.cflEraseResumeExpiry b) s fun e => e = d))
    ∧ ∀ pf bc, d.power.mode ≠ .close → Completes (.cflFctrlWrite pf bc) s fun e =>
        e = { d with flash := { c with pfEn := pf, bcEn := bc, prefetch := [], branches := [] } }

/-- R344, R348, R356, R516, R520 to R524, R526, R530, R531, R536: the tile queues' and the code flash's commands complete: a
doorbell within its window, an abort, an enabling of tiles, each descriptor that passes its checks and finds its bank free, a
row, an erase, the end of a suspension, and a write of the fetch control. -/
def Obligations.QueueAndFlashCommandsComplete : Prop :=
  ∀ (s : State), let d := s.dev; let c := d.flash; let w := d.cflWords
    let op := wordOf w 0 % 256; let tag := wordOf w 0 / 2 ^ 16 % 65536; let off := wordOf w 1 % 2097152; let b := wordOf w 1 / 2 ^ 21 % 2
    d.supply.clocks = true →
    (d.power.mode ≠ .close →
      (∀ sub tail, let q := d.pkq sub
          sub ≤ d.nCombs → tail < 2 ^ 32 → idxDiff tail q.sqHead ≤ 2 ^ q.size →
        ∃ t, exec (.pkSqDoorbell sub tail) s = .next t ∧ (t.dev.pkq sub).sqTail = tail)
      ∧ (∀ sub tag, tag < 2 ^ 16 → ∃ t, exec (.pkAbort sub tag) s = .next t
          ∧ ∀ j ∈ t.dev.tiles.waiting, ¬ (j.sub = sub ∧ j.tag = tag ∧ j.what = .software))
      ∧ (∀ en, 0 < en → en < 256 → ∃ t, exec (.pkTileEnWrite en) s = .next t ∧ t.dev.tiles.tileEn = en)
      ∧ (∀ tail, tail < 2 ^ 32 → idxDiff tail c.sqHead ≤ 2 ^ c.sizeLog2 → idxDiff c.sqTail c.sqHead ≤ idxDiff tail c.sqHead →
        ∃ t, exec (.cflSqDoorbell tail) s = .next t ∧ t.dev.flash.sqTail = tail)
      ∧ (∀ pf bc, ∃ t, exec (.cflFctrlWrite pf bc) s = .next t ∧ t.dev.flash.pfEn = pf ∧ t.dev.flash.bcEn = bc)
      ∧ (d.cflReady = true → d.cflCheck w = none →
        (op = 1 → (c.bank b).st = .idle → (c.bank b).job = none → ∃ t, exec .cflRead s = .next t
          ∧ t.dev.flash.sqHead = idxAdd c.sqHead 1 ∧ t.dev.flash.cqTail = idxAdd c.cqTail 1)
        ∧ ((c.bank b).job = none → (c.bank b).queue = [] →
          let begins := fun (i : Instr) => ∃ t j, exec i s = .next t ∧ (t.dev.flash.bank b).job = some j ∧ j.op = op ∧ j.tag = tag
            ∧ j.offset = off ∧ t.dev.flash.sqHead = idxAdd c.sqHead 1
          (op = 2 → begins .cflProgram) ∧ (op = 3 → begins .cflErase) ∧ (op = 4 → begins .cflActivate))
        ∧ (op = 5 → d.rdpCheck (wordOf w 3 % 4) = none → ∃ t, exec .cflRdp s = .next t ∧ t.dev.flash.level = wordOf w 3 % 4)))
    ∧ ∀ b, b < 2 →
      (∀ j, (c.bank b).job = some j → j.tag < 65536 →
        ((c.bank b).st = .program → ∃ t, exec (.cflRowProgrammed b true) s = .next t
          ∧ t.dev.flash.mem = spSetAll erasedWord c.mem (flashAt b (j.offset + 8 * j.done)) ((j.data.drop (8 * j.done)).take 8))
        ∧ ((c.bank b).st = .erase ∨ (c.bank b).st = .eraseFinal → let sec := sectorOf j.offset
          ∃ t, exec (.cflEraseDone b true) s = .next t
            ∧ ∀ a, flashAt b sec.1 ≤ a → a < flashAt b (sec.1 + sec.2) → spGet erasedWord t.dev.flash.mem a = BitVec.allOnes 48))
      ∧ ∀ x, (c.bank b).st = .suspended → (c.bank b).quietAt = some x → x < d.clk →
        ∃ t, exec (.cflEraseResumeExpiry b) s = .next t ∧ (t.dev.flash.bank b).st = (if (c.bank b).susp = 8 then .eraseFinal else .erase)

/-! The Beykan field link -/

/-- R542, R544, R547 to R554, R559: the reader's commands, in the states of the tag that answer them. -/
def Obligations.TagCommands : Prop :=
  ∀ (s : State), let d := s.dev; let l := d.field
    let all : List (Bool → Instr) := [.fldBegin, .fldWalk 0 0, .fldSelect l.id, .fldReshuffle l.id, .fldSilence l.id, .fldAuth 0 [],
      .fldRead 0, .fldEnd, .fldPair]
    let replies := fun (bs : List Byte) (e : Dev) => Output.fieldReply (withCrc (bitsOf bs)) ∈ e.out
    (∀ i ∈ all, (Completes (i false) s fun e => e = d)
        ∧ (d.tagRuns = false ∨ d.supply.field = false ∨ l.tag = .off → Completes (i true) s fun e => e = d))
    ∧ (d.tagRuns = true → d.supply.field = true →
      (l.tag ≠ .off → Completes (.fldBegin true) s fun e => e.field.tag = .arbitrate ∧ e.field.sess = none ∧ e.field.mem = l.mem)
      ∧ (l.tag = .arbitrate → l.sess = none →
        (∀ n p, n ≤ 64 → l.startsWith n p = true → Completes (.fldWalk n p true) s fun e => ∃ x, x.length = 1
          ∧ e.out = .fieldReply ((bitsOf (fitBytes 8 l.ident)).drop n ++ bitsOf x ++ crc16 (bitsOf (fitBytes 8 l.ident) ++ bitsOf x)) :: d.out
          ∧ e.field = l)
        ∧ (∀ n p, 64 < n ∨ l.startsWith n p = false → Completes (.fldWalk n p true) s fun e => e = d)
        ∧ (Completes (.fldSelect l.id true) s fun e => e.field.tag = .selected ∧ replies (e.selectReply) e
          ∧ ∃ x, e.field.sess = some x ∧ x.selectAt = d.now ∧ x.bank = l.mem.active ∧ x.commitSeq = l.mem.commitSeq ∧ x.idleAt = d.clk + ms 50)
        ∧ (∀ id, id ≠ l.id → (Completes (.fldSelect id true) s fun e => e = { d with field := { l with tag := .quiet } })
          ∧ (Completes (.fldReshuffle id true) s fun e => e = d) ∧ Completes (.fldSilence id true) s fun e => e = d)
        ∧ (Completes (.fldReshuffle l.id true) s fun e => e.field.tag = .arbitrate ∧ e.field.reshuffles = satInc 16 l.reshuffles)
        ∧ Completes (.fldSilence l.id true) s fun e => e = { d with field := { l with tag := .quiet } })
      ∧ (∀ x k rr, l.tag = .selected → l.sess = some x →
        (d.fieldLocked = true → Completes (.fldAuth k rr true) s fun e => replies [2#8] e ∧ e.field.tag = .selected ∧ e.field.mem = l.mem)
        ∧ (d.fieldLocked = false → l.mem.keyFor k = none → Completes (.fldAuth k rr true) s fun e =>
          replies [3#8] e ∧ e.field.tag = .selected ∧ e.field.mem = l.mem)
        ∧ ∀ key, d.fieldLocked = false → l.mem.keyFor k = some key → Completes (.fldAuth k rr true) s fun e =>
            let ctr := (l.mem.authCtr + 1) % 2 ^ 32; let id := fitBytes 8 l.ident; let rr := fitBytes 16 rr
            let rt := cmac key.key (ascii "QFN" ++ id ++ le 4 ctr)
            e.field.tag = .auth ∧ e.field.mem.authCtr = ctr ∧ replies (rt ++ cmac key.key (ascii "QFT" ++ id ++ [u8 k] ++ rr ++ rt)) e
            ∧ ∃ y, e.field.sess = some y ∧ y.mr = cmac key.key (ascii "QFR" ++ id ++ [u8 k] ++ rt ++ rr) ∧ y.authAt = some (d.clk + ms 20))
      ∧ (∀ x t mr, l.tag = .auth → l.sess = some x → x.authAt = some t → d.power.mode ≠ .close →
        (d.clk < t → mr = x.mr → Completes (.fldProve mr true) s fun e => e.field.tag = .open_ ∧ e.field.fails = 0 ∧ replies [0#8] e)
        ∧ (t ≤ d.clk ∨ mr ≠ x.mr → Completes (.fldProve mr true) s fun e => e.field.tag = .quiet ∧ e.field.sess = none
          ∧ e.field.fails = l.fails + 1 ∧ replies [1#8] e))
      ∧ (∀ x, l.tag = .open_ → l.sess = some x →
        (∀ b, b < 64 → Completes (.fldRead b true) s fun e =>
          let ct := fitBytes 64 (Config.aesCtr x.kEnc ([u8 b] ++ zeros 15) (bytesAt (l.mem.bank x.bank).page (64 * b) 64))
          replies ([u8 b] ++ ct ++ (cmac x.kMac ([u8 b] ++ le 4 x.commitSeq ++ ct)).take 8) e
          ∧ e.field.sess = some { x with blocks := x.blocks + 1, idleAt := d.clk + ms 50 })
        ∧ (∀ b, 64 ≤ b → Completes (.fldRead b true) s fun e => e = d)
        ∧ (Completes (.fldEnd true) s fun e => e.field.tag = .quiet ∧ e.field.sess = none)
        ∧ Completes (.fldPair true) s fun e => replies [4#8] e ∧ e.field.tag = .open_)
      ∧ (l.tag ≠ .open_ → ∀ b, (Completes (.fldRead b true) s fun e => e = d) ∧ Completes (.fldPair true) s fun e => e = d))

/-- R538, R541, R544 to R546, R548, R550 to R553, R557, R558, R561, R564, R565: the carrier, the tag's timers, page and pool
writes, the link's keys and reader mode. -/
def Obligations.FieldLinkUpkeep : Prop :=
  ∀ (s : State), let d := s.dev; let l := d.field; let m := l.mem
    (d.supply.field = true → Completes .fieldCarrierRise s fun e => e = d)
    ∧ (d.supply.field = false → d.mainPower = true → d.tagRuns = true →
        let up := fun (e : Dev) => e.supply.field = true ∧ e.field.tag = .ready ∧ e.field.fails = 0 ∧ e.field.sess = none
        (d.freshIdent = true → Completes .fieldCarrierRise s fun e => up e ∧ e.field.mem = m ∧ e.field.fallback = false ∧ e.field.fromPool = false)
        ∧ (d.freshIdent = false → m.used < 64 → Completes .fieldCarrierRise s fun e => up e ∧ e.field.mem = { m with used := m.used + 1 }
          ∧ e.field.ident = fitBytes 8 ((m.pool[m.used]?).getD []) ∧ e.field.fromPool = true)
        ∧ (d.freshIdent = false → 64 ≤ m.used → Completes .fieldCarrierRise s fun e => up e ∧ e.field.fallback = true
          ∧ e.field.mem.fallbacks = satInc 16 m.fallbacks))
    ∧ (d.supply.field = false → d.mainPower = false → d.supply.vbat = false → Completes .fieldCarrierRise s fun e =>
        e.supply.field = true ∧ e.power.mode = .field)
    ∧ (Completes .carrierAbsenceExpiry s fun e => e.supply.field = false ∧ e.field.tag = .off ∧ e.field.sess = none
        ∧ e.power.mode = if d.power.mode = .field then .vault else d.power.mode)
    ∧ (∀ x, l.sess = some x →
        (x.idleAt < d.clk → Completes .sessionInactivityExpiry s fun e => e.field.tag = .quiet ∧ e.field.sess = none)
        ∧ (d.clk ≤ x.idleAt → Completes .sessionInactivityExpiry s fun e => e = d)
        ∧ ∀ t, x.authAt = some t → l.tag = .auth →
          (t ≤ d.clk → Completes .authWindowExpiry s fun e => e.field.tag = .quiet ∧ e.field.sess = none ∧ e.field.fails = l.fails + 1)
          ∧ (d.clk < t → Completes .authWindowExpiry s fun e => e = d))
    ∧ (∀ t, l.lockAt = some t →
        (t ≤ d.clk → Completes .fieldLockoutExpiry s fun e => e = { d with field := { l with lockAt := none } })
        ∧ (d.clk < t → Completes .fieldLockoutExpiry s fun e => e = d))
    ∧ (d.supply.clocks = true →
        (d.power.mode = .close → Completes .fldWrPage s (fun e => e = d) ∧ (Completes .fldWrPool s fun e => e = d)
          ∧ ∀ slot id entry on, Completes (.fldKeyLoad slot id entry) s (fun e => e = d)
            ∧ Completes (.fldKeyClear slot id entry) s (fun e => e = d) ∧ Completes (.fldReaderEnable on) s fun e => e = d)
        ∧ (l.wrBusy = true → Completes .fldWrPage s (fun e => e = d) ∧ Completes .fldWrPool s fun e => e = d)
        ∧ (d.power.mode ≠ .close → l.wrBusy = false → inSram 0 l.wrAddr 4096 = false → Completes .fldWrPage s fun e =>
          e = { d with field := { l with wrDone := false, wrStatus := Status.badAddr.code } })
        ∧ (d.power.mode ≠ .close → l.wrBusy = false → inSram 0 l.wrAddr 4096 = true → d.pageAllowed = false → Completes .fldWrPage s fun e =>
          e = { d with field := { l with wrDone := false, wrStatus := Status.lcDenied.code } })
        ∧ (d.power.mode ≠ .close → l.waits = [] → l.sess = none →
          (inSram 0 l.wrAddr 4096 = true → d.pageAllowed = true → Completes .fldWrPage s fun e => e.field.mem = m.commit (d.memGet 0 l.wrAddr 4096)
            ∧ e.field.wrDone = true ∧ e.field.lastCommit = d.now
            ∧ (m.commitSeq + 1 < 2 ^ 32 → (e.field.mem.bank e.field.mem.active).page = d.memGet 0 l.wrAddr 4096))
          ∧ (inSram 0 l.wrAddr 512 = true → Completes .fldWrPool s fun e => e.field.mem.pool = (pieces 8 (d.memGet 0 l.wrAddr 512)).take 64
            ∧ e.field.mem.used = 0 ∧ e.field.mem.poolGen = (m.poolGen + 1) % 2 ^ 32 ∧ e.field.wrDone = true))
        ∧ (∀ x, d.power.mode ≠ .close → l.waits = [] → l.sess = some x → inSram 0 l.wrAddr 4096 = true → d.pageAllowed = true → Completes .fldWrPage s fun e =>
          e.field.mem = m ∧ e.field.waits = [{ work := .regPage, page := d.memGet 0 l.wrAddr 4096 }])
        ∧ (∀ w, l.waits = [w] → w.work = .regPage → w.pool = [] → w.page ≠ [] →
          (l.sess = none → Completes (.fieldPageCommit true) s fun e => e.field.mem = m.commit w.page ∧ e.field.waits = [] ∧ e.field.wrDone = true)
          ∧ (l.sess = none → Completes (.fieldPageCommit false) s fun e => e.field.mem = m ∧ e.field.waits = [] ∧ flag e.field.err 1 = true
            ∧ e.field.wrStatus = Status.internalFault.code)
          ∧ (∀ x, l.sess = some x → w.until_ = none → ∀ ok, Completes (.fieldPageCommit ok) s fun e => e = d))
        ∧ (∀ slot id entry k, d.power.mode ≠ .close → k = d.keySlot (slot % 2048) →
          (254 < id → Completes (.fldKeyLoad slot id entry) s (fun e => e = { d with field := { l with err := setBit l.err 0 } })
            ∧ Completes (.fldKeyClear slot id entry) s fun e => e = { d with field := { l with err := setBit l.err 0 } })
          ∧ (id ≤ 254 → Completes (.fldKeyClear slot id entry) s fun e => e.field.mem.keyEntry (entry % 2) = {}
            ∧ e.field.mem.keyEntry (1 - entry % 2) = m.keyEntry (1 - entry % 2))
          ∧ (id ≤ 254 → slot % 2048 < 1024 → attrAlg k.attr = 1 → attrUse k.attr = 4 → attrClass k.attr = 7 → owns 0 (attrOwner k.attr) = true →
              lcAdmits (attrLc k.attr) d.life.st = true → Completes (.fldKeyLoad slot id entry) s fun e =>
            e.field.mem.keyEntry (entry % 2) = { key := shake (ascii "QFLK" ++ k.key ++ [u8 id]) 32, keyId := id, valid := true })
          ∧ (id ≤ 254 → attrUse k.attr ≠ 4 → Completes (.fldKeyLoad slot id entry) s fun e => e.field.mem = m ∧ flag e.field.err 2 = true))
        ∧ (d.power.mode ≠ .close → d.readerMay = true → Completes (.fldReaderEnable true) s fun e => e.field.readerEn = true ∧ e.field.tag = .off)
        ∧ (d.power.mode ≠ .close → d.readerMay = false → Completes (.fldReaderEnable true) s fun e => e.field.readerEn = l.readerEn ∧ flag e.field.err 0 = true)
        ∧ (d.power.mode ≠ .close →
          (l.reader = none → Completes (.fldReaderEnable false) s fun e => e = { d with field := { l with readerEn := false } })
          ∧ ∀ r, l.reader = some r → d.waitsAt r.port r.slot → Completes (.fldReaderEnable false) s fun e =>
            e.field = { l with readerEn := false, reader := none }
            ∧ (r.found = [] → e.answered d r.port r.slot Status.noTag.code [])
            ∧ (r.found ≠ [] → e.answered d r.port r.slot 0 (le 4 r.found.length ++ zeros 4 ++ r.found.flatMap (le 8))))
        ∧ (∀ r t p rest, l.reader = some r → r.replyAt = some t → r.stack = p :: rest →
          let walk := fun (q : List Bool) => Output.readerSend (withCrc (numBits 8 2 ++ (numBits 7 q.length ++ q)))
          (t < d.clk → r.found.length < r.maxTags → d.clk ≤ r.until_ →
            (∀ q qs, rest = q :: qs → Completes (.readerReplyWindowExpiry []) s fun e =>
              e.field.reader = some { r with stack := rest, replyAt := some (d.clk + 64000) } ∧ e.out = walk q :: d.out)
            ∧ (rest = [] → Completes (.readerReplyWindowExpiry []) s fun e =>
              e.field.reader = some { r with stack := [[]], replyAt := some (d.clk + 64000) }
              ∧ e.out = walk [] :: .readerSend (withCrc (numBits 8 1)) :: d.out))
          ∧ (t < d.clk → r.until_ < d.clk → ∀ xs, Completes (.readerReplyWindowExpiry xs) s fun e =>
            e.field.reader = some { r with stack := rest, replyAt := none } ∧ e.out = d.out)
          ∧ (d.clk ≤ t → ∀ xs, Completes (.readerReplyWindowExpiry xs) s fun e => e = d)))

/-! Registers and windows -/

/-- R3, R4, R95, R96, R231, R255, R261, R265, R274 to R276, R435: who reaches which registers, windows and buffers, and what
a write or a read of them does. -/
def Obligations.RegisterAccess : Prop :=
  ∀ (s : State), let d := s.dev
    (d.supply.clocks = false → (∀ w b a n m v, Completes (.registerWrite w b a n m v) s fun e => e = d)
        ∧ (∀ a bs h, Completes (.mgtWrite a bs h) s fun e => e = d) ∧ (∀ a n h, Completes (.mgtRead a n h) s fun e => e = d)
        ∧ ∀ p k bs, Completes (.arpNdpIcmpEcho p k bs) s fun e => e = d)
    ∧ (d.supply.clocks = true →
      (∀ w b a n m v, w < 9 → d.nCombs < w ∨ d.power.mode = .close ∨ d.ioPlace w (if m then .machine else .supervisor) a = none →
          Completes (.registerWrite w b a n m v) s fun e => e = d)
      ∧ (∀ w b a n m v, 1 ≤ w → w < 9 → 0x45400 ≤ a → a < 0x45440 ∨ 0x4C000 ≤ a → Completes (.registerWrite w b a n m v) s fun e => e = d)
      ∧ (∀ b n m v, d.power.mode ≠ .close → Completes (.registerWrite 0 b 0x5300A n m v) s fun e => e = { d with log := { d.log with swData0 := v } })
      ∧ (∀ p, p < 2 →
        (∀ a n m v, 0x440000 ≤ a → Completes (.registerWrite (16 + p) 0 a n m v) s fun e => e = d)
        ∧ (∀ a n m v, a < 0x100000 → n ≠ 4 ∨ a % 4 ≠ 0 → Completes (.registerWrite (16 + p) 0 a n m v) s fun e => e = d)
        ∧ (∀ i k m v, i < 4 → k < 0x4000 →
          ((d.slot p i).st = .idle → Completes (.registerWrite (16 + p) 0 (0x100000 + i * 0x8000 + k) 1 m v) s fun e =>
            spGet zeroByte (e.port p).mbx.win (reqWindow p i + k) = BitVec.ofNat 8 v.toNat
            ∧ ∀ j, j ≠ reqWindow p i + k → spGet zeroByte (e.port p).mbx.win j = spGet zeroByte (d.port p).mbx.win j)
          ∧ ((d.slot p i).st ≠ .idle → Completes (.registerWrite (16 + p) 0 (0x100000 + i * 0x8000 + k) 1 m v) s fun e =>
            (e.port p).mbx.win = (d.port p).mbx.win ∧ flag (e.port p).mbx.err 1 = true)
          ∧ Completes (.registerWrite (16 + p) 0 (0x104000 + i * 0x8000 + k) 1 m v) s fun e => e = d)
        ∧ (∀ w k m v, w < 16384 →
          (6 ≤ k → k < 8 → Completes (.registerWrite (16 + p) 4 (8 * w + k) 1 m v) s fun e => e = d)
          ∧ (k < 6 → Completes (.registerWrite (16 + p) 4 (8 * w + k) 1 m v) s fun e =>
            (∀ j, j < 6 → (spGet zeroWord (e.sess p 0).buf w).toNat / 2 ^ (8 * j) % 256
              = if j = k then v.toNat % 256 else (spGet zeroWord (d.sess p 0).buf w).toNat / 2 ^ (8 * j) % 256)
            ∧ ∀ x, x ≠ w → spGet zeroWord (e.sess p 0).buf x = spGet zeroWord (d.sess p 0).buf x))
        ∧ (∀ a m v, a < 32768 → a % 4 = 0 → Completes (.registerWrite (16 + p) 2 a 4 m v) s fun e =>
          spGet (fun _ => 0#32) (e.port p).pcie.msix (a / 4) = v
          ∧ ∀ x, x ≠ a / 4 → spGet (fun _ => 0#32) (e.port p).pcie.msix x = spGet (fun _ => 0#32) (d.port p).pcie.msix x))
      ∧ (d.power.mode = .idle → d.power.target = some .standby → flag d.power.wakeEn 0 = true → ∀ a n h,
          Completes (.mgtRead a n h) s fun e => e.power.mode = .idle ∧ e.power.target = none)
      ∧ (d.power.mode ≠ .standby → d.power.target ≠ some .standby →
        (∀ a v, 0x1000 ≤ a → a < 0x2000 →
          ((d.slot 4 0).st = .idle → Completes (.mgtWrite a [v] false) s fun e => spGet zeroByte (e.port 4).mbx.win a = v
            ∧ ∀ j, j ≠ a → spGet zeroByte (e.port 4).mbx.win j = spGet zeroByte (d.port 4).mbx.win j)
          ∧ ((d.slot 4 0).st ≠ .idle → Completes (.mgtWrite a [v] false) s fun e =>
            (e.port 4).mbx.win = (d.port 4).mbx.win ∧ flag (e.port 4).mbx.err 1 = true))
        ∧ (∀ a n, 0x1000 ≤ a → a + n ≤ 0x4000 → Completes (.mgtRead a n false) s fun e =>
          e.out = .reads 4 ((List.range n).map fun k => spGet zeroByte (d.port 4).mbx.win (a + k)) :: d.out)
        ∧ (d.supply.i2c = false → (∀ a n, exec (.mgtRead a n true) s = exec (.mgtRead a n false) s)
          ∧ ∀ a bs, exec (.mgtWrite a bs true) s = exec (.mgtWrite a bs false) s)
        ∧ (d.supply.i2c = true → d.portsCfg.sclAt = none →
          (∀ a bs, Completes (.mgtWrite a bs true) s fun e => e = { d with portsCfg := { d.portsCfg with sclAt := some (d.clk + ms 25) } })
          ∧ ∀ a n, Completes (.mgtRead a n true) s fun e => e = { d with portsCfg := { d.portsCfg with sclAt := some (d.clk + ms 25) } })
        ∧ (∀ p k bs, p = 2 ∨ p = 3 → d.power.mode ≠ .close →
          (k < 3 → Completes (.arpNdpIcmpEcho p k bs) s fun e => e.out = .frame p k bs :: d.out)
          ∧ (3 ≤ k → Completes (.arpNdpIcmpEcho p k bs) s fun e => e.out = d.out))))

/-! Commands -/

/-- R257, R280 to R282, R288: what every command has in common. A row whose command is not the one that Sharnolos takes next
does nothing (the model's choice, log entry 2); a frame that fails one of the checks 4 to 8 is answered with the status of
the first. -/
def Obligations.CommandFrames : Prop :=
  ∀ (s : State) (rb : Nat) (rs : List (List Bool × Bool)) (sel : Option (List Byte)) (auth : List Byte) (pr pa lv p i : Nat),
    let d := s.dev; let f := d.request p i
    ∀ r ∈ commandRows rb rs sel auth pr pa lv,
      let out := fun (st : Status) => Completes (r.1 p i) s fun e => e.replied (d.started p i) p i st.code []
      (d.serves = false ∨ d.nextRequest ≠ some (p, i) ∨ numAt f 6 2 ≠ r.2 → Completes (r.1 p i) s fun e => e = d)
      ∧ (cmdInfo r.2).isSome = true
      ∧ (∀ c, cmdInfo r.2 = some c → d.serves = true → d.nextRequest = some (p, i) → numAt f 6 2 = r.2 → d.waitsAt p i →
          let roleOk := d.roleOf p i ∈ c.roles ∧ (r.2 = 0x0502 → d.roleOf p i = .none → d.life.st = .provision)
          let lcOk := stateAdmits c.states d.life.st = true
          (p ∉ c.ports → out .portDenied)
          ∧ (p ∈ c.ports → ¬roleOk → out .roleInsufficient)
          ∧ (p ∈ c.ports → roleOk → ¬lcOk → out .lcDenied)
          ∧ (p ∈ c.ports → roleOk → lcOk → f.length < 16 + c.min → 16 ≤ f.length → out .badLength)
          ∧ (p ∈ c.ports → roleOk → lcOk → 16 + c.min ≤ f.length → 16 + Nat.min c.max (if p = 4 then 4080 else 16368) < f.length →
            out .lenTooLarge))

/-- R248 to R252, R290 to R295: session and device commands. -/
def Obligations.SessionCommands : Prop :=
  ∀ (s : State) (p i : Nat) (b : List Byte), let d := s.dev; let d' := d.started p i; let q := d.sess p (sessOf p i)
    let other := ∃ j, j < 4 ∧ j ≠ i ∧ (d.slot p j).st = .busy
    (d.takes 0x0001 p i b → Completes (.getInfo p i) s fun e => e.replied d' p i 0
        (le 2 d.variant.part ++ [0xA2#8, 0#8, 4#8, 2#8] ++ le 2 Config.buildNumber
          ++ [u8 d.life.st.code, u8 d.levelNow.code, u8 d.power.mode.code, u8 p, u8 (d.roleOf p i).code] ++ zeros 3
          ++ le 8 (if q.st = .active then q.id else 0) ++ le 4 d.time.aon.pcyc ++ le 4 d.settings.generation
          ++ fitBytes 64 d.keys.idDigest ++ zeros 16))
    ∧ (d.takes 0x0002 p i b → Checked (.authHello p i) s p i
        [(helloOk p b = false, .badField), (other, .sessionBusy), (d.portLocked p = true, .authLocked),
         (d.roleOk p (numAt b 0 1) = false, .roleDenied), (d.canDraw 0 = false, .notReady)]
        (Completes (.authHello p i) s fun e => ∃ r, r.length = 32 ∧
          let expires := d.now + d.portsCfg.chalTime * 2 ^ 32
          let body := zeros 32 ++ r ++ fitBytes 64 d.keys.idDigest ++ le 8 expires
          e.answered d p i 0 body ∧ (e.sess p 0).st = .challenged ∧ (e.sess p 0).hello = fitBytes 100 b ∧ (e.sess p 0).chal = body
          ∧ (e.sess p 0).expires = expires ∧ (e.sess p 0).buf = (d.sess p 0).buf ∧ e.settings = d.settings ∧ e.keys = d.keys ∧ e.power = d.power ∧ e.life = d.life))
    ∧ (d.takes 0x0003 p i b → Checked (.authProve p i) s p i
        [(numAt b 2 6 ≠ 0, .badField), (other, .sessionBusy), (d.portLocked p = true, .authLocked)]
        ((d.proves p 0 b = true → Completes (.authProve p i) s fun e =>
            let role := numAt (d.sess p 0).hello 0 1
            (∃ sig, e.answered d p i 0 (u8 role :: (zeros 7 ++ sig))) ∧ (e.sess p 0).st = .active ∧ (e.sess p 0).role = Role.ofCode role
            ∧ (e.port p).fails = 0 ∧ e.settings = d.settings ∧ e.keys = d.keys ∧ e.power = d.power ∧ e.life = d.life)
          ∧ (d.proves p 0 b = false → Completes (.authProve p i) s fun e =>
            let n := Nat.min 5 ((d.port p).fails + 1)
            e.answered d p i Status.authFail.code [] ∧ (e.port p).fails = n ∧ (e.sess p 0).st ≠ .active
            ∧ (n = 5 → (e.sess p 0).st = .locked ∧ (e.port p).lockAt = some (d.clk + secs d.portsCfg.lockout)))))
    ∧ (d.takes 0x0004 p i b → Completes (.logout p i) s fun e => e.answered d p i 0 [] ∧ (e.sess p 0).st = .none ∧ (e.sess p 0).buf = []
        ∧ ∀ h, e.settings.shadow = some h → h.port ≠ p ∨ h.slot ≠ 0)
    ∧ (d.takes 0x0005 p i b → let data := b.drop 8; let off := numAt b 0 4
        Checked (.bufWrite p i) s p i [(numAt b 4 4 ≠ 0, .badField), (bufWords p < off + ceilDiv data.length 6, .lenTooLarge)]
        (Completes (.bufWrite p i) s fun e => e.answered d p i 0 [] ∧ e.buffered d p i off data
          ∧ e = { d' with ports := e.ports, out := e.out }))
    ∧ (d.takes 0x0006 p i b → let off := numAt b 0 4; let len := numAt b 4 4
        Checked (.bufRead p i) s p i (badRef p off len ++ [((if p = 4 then 4072 else 16360) < len, .lenTooLarge)])
        (Completes (.bufRead p i) s fun e => e.replied d' p i 0 (d.bufGet p i off len)))
    ∧ (d.takes 0x0007 p i b → let cls := numAt b 0 1; let sev := numAt b 1 1
        Checked (.noticeSubscribe p i) s p i [(32 ≤ cls ∨ 4 ≤ sev ∨ numAt b 2 2 ≠ 0, .badField)]
        (Completes (.noticeSubscribe p i) s fun e => e.answered d p i 0 [] ∧ e = { d' with ports := e.ports, out := e.out }
          ∧ (p = 2 ∨ p = 3 → (e.sess p i).classes = cls ∧ (e.sess p i).minSev = sev)
          ∧ (p = 0 ∨ p = 1 ∨ p = 4 → (e.port p).mbx.notices = { (d.port p).mbx.notices with classes := cls, minSev := sev })))
    ∧ (d.takes 0x0008 p i b → let m := numAt b 0 1
        Checked (.setMode p i) s p i [(numAt b 1 3 ≠ 0, .badField), (8 ≤ m, .modeInvalid)]
        (let c := Instr.setMode p i
          let no := fun (st : Status) => Completes c s fun e =>
            e.answered d p i st.code [] ∧ e.power.mode = d.power.mode ∧ e.power.target = d.power.target ∧ e.waits = d.waits
          (Mode.ofReq m = none → no .modeInvalid)
          ∧ ∀ t, Mode.ofReq m = some t →
            (d.power.target.isSome = true → no .modeBusy)
            ∧ (d.power.target = none →
              (d.power.mode = .test → d.power.startStep ≠ .recovery → no .closePending)
              ∧ (d.power.mode = t → no .ok)
              ∧ (d.power.mode ≠ t → ¬(d.power.mode = .test ∧ d.power.startStep ≠ .recovery) →
                (d.mayGo t = false → no .modePrecond)
                ∧ (d.mayGo t = true → Completes c s fun e => e.power.target = some t ∧ e.power.mode = d.power.mode ∧ e.ports = d.ports
                  ∧ e.waits = d.waits ++ [{ port := p, slot := i, for_ := .mode, body := [] }])))))
    ∧ (d.takes 0x0009 p i b → let c := Instr.shutdown p i
        (d.power.mode = .record ∨ d.power.mode = .ingest → Completes c s fun e => e.power.mode = .close
          ∧ (p = 0 ∨ p = 1 ∨ p = 4 → e.answered d p i 0 []))
        ∧ (d.power.mode = .idle → Completes c s fun e => e.answered d p i 0 []
          ∧ (d.power.target = none → d.mayGo .standby = true → e.power.target = some .standby ∧ e.power.shutdown = true)
          ∧ (d.power.target.isSome = true ∨ d.mayGo .standby = false → e.power = d.power))
        ∧ (d.power.mode = .test → Completes c s fun e => e.answered d p i 0 [] ∧ e.power = d.power))
    ∧ (d.takes 0x000A p i b → let c := Instr.recovery p i
        let may := (d.power.mode = .idle ∨ d.power.mode = .record ∨ d.power.mode = .ingest) ∧ d.anyOpen = false ∧ d.staging.st = .off
          ∧ d.power.target = none
        let drains := d.power.mode = .ingest ∧ d.power.target = none ∧ d.staging.st = .ready ∧ d.anyOpen = false
        (¬may → Completes c s fun e => e.answered d p i Status.modePrecond.code []
          ∧ (¬drains → e = { d' with ports := e.ports, out := e.out })
          ∧ (drains → e = { d' with ports := e.ports, out := e.out, staging := { d.staging with st := .drain } }))
        ∧ (may → Completes c s fun e => e.answered d p i 0 []
          ∧ e = { d' with ports := e.ports, out := e.out, power := { d.power with target := some .test } }))
    ∧ (d.takes 0x000B p i b → let n := numAt b 0 4
        Checked (.rngRead p i) s p i [(n = 0, .badLength), ((if p = 4 then 4064 else 16352) < n, .lenTooLarge), (d.rng.ready = false, .notReady)]
        (d.rng.fills = [] → Completes (.rngRead p i) s fun e =>
          (∃ out, out.length = n ∧ e.answered d p i 0 (le 4 n ++ zeros 4 ++ out) ∧ e.rng.fills = [])
          ∨ ∃ x, e.rng.fills = [x] ∧ x.port = p ∧ x.slot = i ∧ x.count = n ∧ x.data.length < n ∧ x.until_ = d.clk + 990000 ∧ e.ports = d.ports))

/-- R79, R108, R296 to R304: streams and verify contexts. -/
def Obligations.StreamCommands : Prop :=
  ∀ (s : State) (p i : Nat) (b : List Byte), let d := s.dev; let d' := d.started p i; let n := numAt b 0 1; let l := d.lane n
    let gone := d.power.mode = .test ∨ (d.power.startStep ≠ .done ∧ d.power.startStep ≠ .recovery)
    let notYet := d.power.mode ≠ .record ∧ d.power.mode ≠ .ingest
    let stands := l.st = .frozen ∨ l.st = .schuss ∨ l.st = .fault
    let noClock := (d.comb (n / 8)).clkEn = false ∧ d.combsMax ≤ d.combsOn
    let badRing := fun (o : Nat) => 3 < numAt b 3 1 ∨ numAt b 4 1 < 4 ∨ 16 < numAt b 4 1 ∨ numAt b 5 1 < 7 ∨ 16 < numAt b 5 1
      ∨ 2047 < numAt b 6 2 ∨ 1023 < numAt b (o + 0x10) 2
    let badBase := fun (o : Nat) => numAt b o 8 % 4096 ≠ 0 ∨ numAt b (o + 8) 8 % 4096 ≠ 0 ∨ 2 ^ 64 < numAt b o 8 + 2 ^ numAt b 4 1 * 64
      ∨ 2 ^ 64 < numAt b (o + 8) 8 + 2 ^ numAt b 5 1 * 64
    let opens := fun (r : RingPair) (o : Nat) => r.cls = (if numAt b 3 1 = 0 then 2 else numAt b 3 1) ∧ r.inSize = numAt b 4 1
      ∧ r.cmpSize = numAt b 5 1 ∧ r.msix = numAt b 6 2 ∧ r.inBase = numAt b o 8 ∧ r.cmpBase = numAt b (o + 8) 8
      ∧ r.coalTime = numAt b (o + 0x10) 2 ∧ r.port = p ∧ r.inHead = 0 ∧ r.inTail = 0 ∧ r.cmpHead = 0 ∧ r.cmpTail = 0 ∧ r.valid = true
    (d.takes 0x0101 p i b → let sid := d.time.aon.pcyc * 2 ^ 32 + (d.power.opens + 1); let opts := numAt b 2 1
        let noKey := d.keys.trustOf 3 = none ∨ d.kekCurrent = false ∨ (opts.testBit 0 = true ∧ (d.keySlot 1025).full = false)
        Checked (.streamOpen p i false) s p i
        [(63 < n ∨ 2 < numAt b 1 1 ∨ 1 < opts ∨ badRing 8 ∨ numAt b 0x1A 6 ≠ 0, .badField), (badBase 8, .badAddr), (d.nLanes ≤ n, .badLane),
         (gone, .closePending), (notYet, .modePrecond), (d.time.aon.pcyc = 0xFFFFFFFF ∨ 0xFFFFFFFF ≤ d.power.opens, .counterExhausted),
         (l.ctx0.dir ≠ .closed ∨ stands, .laneBusy), (noClock, .combLimit), (noKey, .noKey), (d.canDraw (1 + n / 8) = false, .notReady)]
        ((∀ c, Completes (.streamOpen p i c) s fun e => let m := e.lane n
            e.power.opens = d.power.opens + 1 ∧ (e.comb (n / 8)).clkEn = true ∧ m.regs.en = true ∧ m.st = .active ∧ opens m.ring0 8
            ∧ m.ctx0.dir = .seal ∧ m.ctx0.stream = sid ∧ m.ctx0.nextSeq = 1 ∧ m.ctx0.elements = 2
            ∧ m.ctx0.policy.code = numAt b 1 1 ∧ m.stream.options = opts
            ∧ (∃ f x y, x = element 1 f sid d.now (d.openBody n m.ctx0.policy opts (bytesAt b 0x20 32))
              ∧ m.ctx0.head = chainNext (chainNext (headZero sid d.keys.idDigest) x) y
              ∧ ∃ j k, m.ring0.posts = [j, k] ∧ j.conts = (pieces 64 x).map (fitBytes 64) ∧ k.conts = (pieces 64 y).map (fitBytes 64)
                ∧ k.ends = some (.opened n))
            ∧ ∃ k, m.key = some k ∧ k.epoch = d.boundaryNow d.hive.epoch ∧ (e.keySlot (128 + 2 * n)).key = k.key ∧
              let body := le 8 sid ++ le 8 d.now ++ le 8 k.epoch ++ le 8 2 ++ fitBytes 64 m.ctx0.head ++ le 4 k.salt
              e.waits = d.waits ++ [{ port := p, slot := i, for_ := .opened n, body := body }])))
    ∧ (d.takes 0x0102 p i b → let c := Instr.streamClose p i; let no := fun (st : Status) => Completes c s fun e => e.replied d' p i st.code []
        (gone → no .closePending)
        ∧ (¬gone → d.laneOf (numAt b 0 8) = none → no .badStream)
        ∧ ∀ n, ¬gone → d.laneOf (numAt b 0 8) = some n →
          ((d.lane n).ring0.port ≠ p → no .portDenied)
          ∧ ((d.lane n).ring0.port = p → Completes c s fun e =>
            ∃ body, e = { d' with lanes := e.lanes, waits := d.waits ++ [{ port := p, slot := i, for_ := .closed n, body := body }] }
              ∧ ((d.lane n).stream.ended = false → body = []) ∧ (e.lane n).stream.closing = true
              ∧ ((d.lane n).st = .active → (d.lane n).stream.ended = false → (e.lane n).st = .drain ∧ (e.lane n).regs.drain = true) ∧ ∀ m, m ≠ n → e.lane m = d.lane m))
    ∧ (d.takes 0x0103 p i b → let x := numAt b 1 1; let dir := numAt b 2 1; let k := d.keySlot (numAt b 0x24 2)
        let anchor := if numAt b 0x22 1 = 1 then bytesAt b 0x80 56 ++ d.bufGet p i 0 8 else headZero (numAt b 0x28 8) (bytesAt b 0x40 64)
        Checked (.verifyOpen p i) s p i
        [(63 < n ∨ 1 < x ∨ (dir ≠ 2 ∧ dir ≠ 3) ∨ badRing 0x10 ∨ numAt b 8 8 ≠ 0 ∨ 1 < numAt b 0x22 1 ∨ numAt b 0x23 1 ≠ 0 ∨ numAt b 0x26 2 ≠ 0
            ∨ (dir = 2 ∧ numAt b 0x24 2 ≠ 0) ∨ (numAt b 0x22 1 = 0 ∧ (numAt b 0x30 8 ≠ 1 ∨ numAt b 0x38 8 ≠ 0)), .badField),
         (badBase 0x10, .badAddr), (d.nLanes ≤ n, .badLane), (gone, .closePending), (notYet, .modePrecond),
         ((l.ctx x).dir ≠ .closed ∨ stands, .laneBusy), (noClock, .combLimit), (dir = 3 ∧ d.roleOf p i ≠ .evidence, .roleInsufficient),
         (dir = 3 ∧ k.full = false, .slotEmpty),
         (dir = 3 ∧ d.mayUse (1 + n / 8) (numAt b 0x24 2) 2 = false, .attrDenied)]
        (Completes (.verifyOpen p i) s fun e => let m := e.lane n
          e.answered d p i 0 (fitBytes 64 anchor) ∧ opens (m.ring x) 0x10 ∧ (m.ctx x).dir = (if dir = 3 then .verifyOpen else .verifyChain)
          ∧ (m.ctx x).stream = numAt b 0x28 8 ∧ (m.ctx x).head = anchor ∧ (m.ctx x).nextSeq = numAt b 0x30 8
          ∧ (m.ctx x).elements = numAt b 0x38 8 ∧ (m.ctx x).authSlot = numAt b 0x24 2 ∧ (m.ctx x).verified = 0
          ∧ m.ctx (1 - x) = l.ctx (1 - x) ∧ m.ring (1 - x) = l.ring (1 - x) ∧ m.regs.en = true ∧ (e.comb (n / 8)).clkEn = true))
    ∧ (d.takes 0x0104 p i b → let x := numAt b 1 1; let c := l.ctx x; let r := l.ring x
        Checked (.verifyClose p i) s p i
        [(1 < x, .badField), (d.nLanes ≤ n, .badLane), (gone, .closePending), (c.dir = .closed ∨ c.dir = .seal, .badStream)]
        ((∀ w ∈ d.waits, w.for_ ≠ .verifyEnd n x) →
          (c.job = none → r.posts = [] → Completes (.verifyClose p i) s fun e => (e.lane n).ctx x = {} ∧ ((e.lane n).ring x).valid = false
            ∧ e.waits = d.waits ∧ e.answered d p i 0 (le 8 c.verified ++ fitBytes 64 c.head ++ le 4 r.inHead ++ zeros 4))
          ∧ (c.job.isSome = true ∨ r.posts ≠ [] → r.faulted = false → r.severed = false → Completes (.verifyClose p i) s fun e =>
            (e.lane n).ctx x = { c with closing := true } ∧ (∀ m, m ≠ n → e.lane m = d.lane m)
            ∧ e = { d' with lanes := e.lanes, waits := d.waits ++ [{ port := p, slot := i, for_ := .verifyEnd n x, body := [] }] })))
    ∧ (d.takes 0x0105 p i b → let x := numAt b 1 1; let c := l.ctx x
        Checked (.verifyReanchor p i) s p i
        [(1 < x ∨ numAt b 2 6 ≠ 0, .badField), (d.nLanes ≤ n, .badLane), (gone, .closePending),
         (c.dir = .closed ∨ c.dir = .seal ∨ c.broken = false, .laneBusy)]
        (Completes (.verifyReanchor p i) s fun e => e.answered d p i 0 [] ∧ (∀ m, m ≠ n → e.lane m = d.lane m)
          ∧ e = { d' with lanes := e.lanes, ports := e.ports, out := e.out }
          ∧ (c.job = none → (e.lane n).ctx x = { c with nextSeq := numAt b 8 8, lastSeq := numAt b 8 8 - 1, elements := numAt b 0x10 8,
                                                        head := bytesAt b 0x18 64, broken := false })
          ∧ ((e.lane n).ctx x).nextSeq = numAt b 8 8 ∧ ((e.lane n).ctx x).lastSeq = numAt b 8 8 - 1
          ∧ ((e.lane n).ctx x).elements = numAt b 0x10 8 ∧ ((e.lane n).ctx x).head = bytesAt b 0x18 64 ∧ ((e.lane n).ctx x).broken = false))
    ∧ (d.takes 0x0106 p i b → ∀ rb, let x := numAt b 1 1; let r := l.ring x; let addr := numAt b 0x20 8; let len := numAt b 0x28 8
        let c := Instr.ringRetarget p i rb; let step := fun (u : MediaUnit) => ceilDiv (u.payload.length + 144) 16 * 16
        let need := (l.units.map step).sum; let back := l.units.any fun u => u.staged
        let moved := fun (r : RingPair) => r.inSize = numAt b 8 1 ∧ r.cmpSize = numAt b 9 1 ∧ r.inBase = numAt b 0x10 8
          ∧ r.cmpBase = numAt b 0x18 8 ∧ r.msix = numAt b 4 2 ∧ r.coalTime = numAt b 6 2 ∧ r.port = p ∧ r.inHead = 0 ∧ r.inTail = 0
          ∧ r.cmpHead = 0 ∧ r.cmpTail = 0 ∧ r.faulted = false ∧ r.dead = false ∧ r.severed = false
        Checked c s p i
        [(63 < n ∨ 1 < x ∨ numAt b 8 1 < 4 ∨ 16 < numAt b 8 1 ∨ numAt b 9 1 < 7 ∨ 16 < numAt b 9 1 ∨ 2047 < numAt b 4 2 ∨ 1023 < numAt b 6 2
            ∨ numAt b 2 2 ≠ 0 ∨ numAt b 0x0A 6 ≠ 0, .badField),
         (numAt b 0x10 8 % 4096 ≠ 0 ∨ numAt b 0x18 8 % 4096 ≠ 0 ∨ 2 ^ 64 < numAt b 0x10 8 + 2 ^ numAt b 8 1 * 64
            ∨ 2 ^ 64 < numAt b 0x18 8 + 2 ^ numAt b 9 1 * 64 ∨ addr % 16 ≠ 0 ∨ 2 ^ 64 < addr + len, .badAddr),
         (d.nLanes ≤ n, .badLane), (gone, .closePending), ((l.ctx x).dir = .closed, .badStream),
         (r.faulted = false ∧ r.dead = false ∧ r.severed = false, .laneBusy)]
        (((x ≠ 0 ∨ l.ctx0.dir ≠ .seal) → Completes c s fun e => moved ((e.lane n).ring x) ∧ ((e.lane n).ctx x).job = none
            ∧ e.answered d p i 0 (zeros 16 ++ le 4 (match (l.ctx x).job with | some j => j.index | none => r.inHead) ++ zeros 4))
          ∧ (x = 0 → l.ctx0.dir = .seal →
            (len < need → Completes c s fun e => e.replied d' p i Status.outTooSmall.code (le 8 need))
            ∧ (need ≤ len → back = true → rb = 1 ∨ rb = 2 → d.belowAlarm 8 → Completes c s fun e =>
              e.answered d p i Status.internalFault.code [] ∧ e.staging.st = .fault ∧ e.lanes = d.lanes)
            ∧ (need ≤ len → ¬(back = true ∧ (rb = 1 ∨ rb = 2)) → Completes c s fun e => let m := e.lane n
              let body := le 8 need ++ le 4 l.units.length ++ le 4 (l.units.countP fun u => !u.tokenPosted)
                ++ le 4 (match l.ctx0.cur with | some u => u.desc.index | none => r.inHead) ++ zeros 4
              moved m.ring0 ∧ m.ctx0.stopped = false ∧ m.ctx0.cur = none ∧ m.units.map (fun u => u.seq) = l.units.map (fun u => u.seq)
              ∧ m.units.map (fun u => u.desc.outputAddr) = (List.range l.units.length).map (fun k => addr + ((l.units.take k).map step).sum)
              ∧ (l.units = [] → e.answered d p i 0 body)
              ∧ (l.units ≠ [] → e.waits = d.waits ++ [{ port := p, slot := i, for_ := .redeliver n 0, body := body }]
                ∧ m.redeliverTo = l.units.getLast?.map fun u => u.seq)))))
    ∧ (d.takes 0x0107 p i b → Checked (.streamStatus p i) s p i [(d.nLanes ≤ n, .badLane)]
        (Completes (.streamStatus p i) s fun e =>
          e.replied d' p i 0 (l.shadowNow.leaf n ++ le 4 (d.laneStatus n) ++ le 4 l.owedReg ++ le 4 l.ring0.inHead)))

/-- R24, R32 to R34, R102, R116, R117, R120, R155, R162, R171, R305 to R317: commands for the hive, the store, holds and
time. -/
def Obligations.RecordCommands : Prop :=
  ∀ (s : State) (p i : Nat) (b : List Byte), let d := s.dev; let d' := d.started p i
    let gone := d.power.mode = .test ∨ (d.power.startStep ≠ .done ∧ d.power.startStep ≠ .recovery)
    let asleep := d.hive.st = .idle ∨ d.hive.st = .stopped
    let all := d.containers
    (d.takes 0x0201 p i b → Checked (.hiveDemand p i) s p i [(asleep, .modePrecond)]
        (Completes (.hiveDemand p i) s fun e =>
          e = { d' with wag := e.wag, receipts := { d.receipts with
              demand := true, demandFor := d.receipts.demandFor ++ [(p, i)],
              demandAt := if d.receipts.demand then d.receipts.demandAt else d.clk } }
          ∧ e.wag.pending = (if WagOp.snapshot ∈ d.wag.pending then d.wag.pending else d.wag.pending ++ [.snapshot])
          ∧ (WagOp.snapshot ∈ d.wag.pending → e.wag = { d.wag with busyRefused := true })))
    ∧ (d.takes 0x0202 p i b → let t := numAt b 0 8
        Checked (.hiveAt p i) s p i [(t ≠ 0 ∧ (t < d.now + 4295 ∨ timeMax < t), .timeRange), (t ≠ 0 ∧ asleep, .modePrecond)]
        (Completes (.hiveAt p i) s fun e => e.replied { d' with hive := if t = 0 then { d.hive with atArmed := false }
            else { d.hive with atTime := t, atArmed := true } } p i 0 (le 8 t)))
    ∧ (d.takes 0x0203 p i b → let h := numAt b 0 4; let k := numAt b 4 4; let c := Instr.hivePeriods p i
        let hv := if d.hiveDue = true then d.hive else d.periodsNow
        let change := fun (cur new : Nat) => let m := Nat.lcm cur new; ceilDiv ((d.now * 1000 / (m * 2 ^ 32) + 1) * m * 2 ^ 32) 1000
        let bad := fun (cur new hi : Nat) => new < 10 ∨ hi < new ∨ (new ≠ cur ∧ d.now + 3600 * 2 ^ 32 < change cur new)
        (h ≠ 0 ∧ bad hv.period h 10000 ∨ k ≠ 0 ∧ bad hv.epoch k 60000 → Completes c s fun e =>
            e.replied { d' with hive := { d.hive with err := setBit d.hive.err 0 } } p i Status.badField.code [])
        ∧ (¬(h ≠ 0 ∧ bad hv.period h 10000) → ¬(k ≠ 0 ∧ bad hv.epoch k 60000) → Completes c s fun e => ∃ v : Hive,
          v = { hv with
                periodNext := if h = 0 then hv.periodNext else h
                periodAt := if h = 0 then hv.periodAt else if h = hv.period then none else some (change hv.period h)
                epochNext := if k = 0 then hv.epochNext else k
                epochAt := if k = 0 then hv.epochAt else if k = hv.epoch then none else some (change hv.epoch k) }
          ∧ e.replied { d' with hive := v } p i 0 (le 8 (v.periodAt.getD 0) ++ le 8 (v.epochAt.getD 0))))
    ∧ (d.takes 0x0204 p i b → let kind := numAt b 0 1; let lane := numAt b 1 1; let q := d.receipts
        let r := if kind = 0 then q.lastPeriodic else q.lastAny
        let proof := if lane = 0xFF then [] else (if kind = 0 then q.lastPeriodicProofs else q.lastAnyProofs).getD lane []
        Checked (.hiveGet p i) s p i [(1 < kind, .badField), (lane ≠ 0xFF ∧ d.nLanes ≤ lane, .badLane), (r = [], .notFound)]
        (Completes (.hiveGet p i) s fun e => e.replied d' p i 0 (r ++ le 4 proof.length ++ zeros 4 ++ proof)))
    ∧ (d.takes 0x0301 p i b → let from_ := numAt b 0 8; let till := numAt b 8 8
        let bs := (all.filter fun c => decide (c.2.first ≤ till) && decide (from_ ≤ c.2.last)).map fun c => c.1
        let fresh := (bs.filter fun k => (d.blk k).holds == 0).length
        Checked (.holdPlace p i) s p i
        [(timeMax < from_ ∨ timeMax < till, .timeRange), (till < from_, .badField), (gone, .closePending), (bs = [], .notFound),
         ((∃ k ∈ bs, 255 ≤ (d.blk k).holds) ∨ d.holdLimit < d.heldBlocks + fresh, .holdLimit)]
        (bs.Nodup → Completes (.holdPlace p i) s fun e => ∃ h : Hold, h.id = d.time.aon.pcyc * 2 ^ 32 + (d.store.holdCount + 1) ∧ h.start = from_
          ∧ h.stop = till ∧ h.origin = 2 ∧ h.source = p ∧ h.revision = 1 ∧ h.blocks = bs ∧ h.postOpen = false ∧ h.truncated = false
          ∧ e.store.holds = (d.store.holds.filter fun x => x.id != h.id) ++ [h] ∧ (∀ k ∈ bs, (e.blk k).holds = (d.blk k).holds + 1)
          ∧ (∀ k, k ∉ bs → e.blk k = d.blk k) ∧ (∃ pg ∈ e.store.journal.inFlight, JRec.mk 0x50 h.body ∈ pg)
          ∧ e.waits = d.waits ++ [{ port := p, slot := i, for_ := .hold h.id 1, body := h.body }]))
    ∧ (d.takes 0x0302 p i b → let f := d.store.holds.find? fun h => h.id == numAt b 0 8
        Checked (.holdRelease p i) s p i [(f = none, .holdNotFound)]
        (∀ h, f = some h → h.blocks.Nodup → Completes (.holdRelease p i) s fun e =>
          e.store.holds = (d.store.holds.filter fun x => x.id != h.id) ∧ (∀ k ∈ h.blocks, (e.blk k).holds = (d.blk k).holds - 1)
          ∧ (∀ k, k ∉ h.blocks → e.blk k = d.blk k)
          ∧ (∃ pg ∈ e.store.journal.inFlight, JRec.mk 0x51 (le 8 h.id ++ le 8 d.now ++ [u8 p, u8 (d.roleOf p i).code] ++ zeros 6) ∈ pg)
          ∧ e.waits = d.waits ++ [{ port := p, slot := i, for_ := .release h.id, body := [] }]))
    ∧ (d.takes 0x0303 p i b → let n := numAt b 4 2
        Checked (.holdList p i) s p i [(numAt b 6 2 ≠ 0, .badField), (n = 0, .badLength), ((if p = 4 then 63 else 255) < n, .lenTooLarge)]
        (Completes (.holdList p i) s fun e => ∃ hs : List Hold, hs.Perm d.store.holds ∧ hs.Pairwise (fun x y => x.id ≤ y.id)
          ∧ e.replied d' p i 0 (le 4 ((hs.drop (numAt b 0 4)).take n).length ++ le 4 hs.length ++ ((hs.drop (numAt b 0 4)).take n).flatMap Hold.body)))
    ∧ (d.takes 0x0304 p i b → let sel := numAt b 0 1; let first := numAt b 8 8; let last := numAt b 0x10 8; let addr := numAt b 0x18 8
        let len := numAt b 0x20 8; let c := Instr.storeExport p i
        let cs := all.filter fun c => if sel = 0 then decide (first ≤ c.2.seq) && decide (c.2.seq ≤ last)
          else if sel = 1 then decide (c.2.first ≤ last) && decide (first ≤ c.2.last) else d.reconContainer == some c.2.seq
        let need := (cs.map fun c => ceilDiv c.2.exported.length 16 * 16).sum; let held := ∃ c ∈ cs, 0 < c.2.holds
        Checked c s p i
        [(2 < sel ∨ numAt b 1 7 ≠ 0 ∨ ((p = 2 ∨ p = 3) ∧ (addr ≠ 0 ∨ len ≠ 0)), .badField), (addr % 16 ≠ 0 ∨ 2 ^ 64 < addr + len, .badAddr),
         (last < first, .badField), (∃ x ∈ d.exports, x.port = p, .resourceHeld), (cs = [], .notFound),
         (held ∧ d.roleOf p i ≠ .evidence, .roleInsufficient)]
        ((p = 0 ∨ p = 1 → len < need → Completes c s fun e => e.replied d' p i Status.outTooSmall.code (le 8 need))
          ∧ (p = 0 ∨ p = 1 → need ≤ len → Completes c s fun e =>
            e = { d' with exports := d.exports ++ [{ port := p, slot := i, left := cs.map fun c => c.2.seq, addr := some addr }] })
          ∧ (p = 2 ∨ p = 3 → (∃ x, cs.head? = some x ∧ x.2.exported ≠ []) → Completes c s fun e => ∃ x ∈ e.exports, x.port = p ∧ x.slot = i)))
    ∧ (∀ x a, s.pending = [] → d.supply.clocks = true → p < 2 → d.exports = [x] → x.port = p → x.addr = some a →
        (d.port p).pcie.d3hot = false → d.power.mode ≠ .close → d.hive.st = .stopped → d.wag.flights = [] → d.wag.pending = [] →
        d.receipts.lapsed = none → d.receipts.lapsedSigs = [] → (∀ n, n < d.nLanes → (d.lane n).stream.sig = none) → let j := x.slot
        let steps := fun (f : Dev → Prop) => ∃ e, step s = .next { s with dev := e } ∧ f e
        (x.cur = [] → x.left = [] → x.block = none → (d.sess p j).chunks = 0 → d.waitsAt p j → steps fun e => e.exports = []
          ∧ e.answered d p j 0 (le 4 x.sent ++ le 4 x.skipped ++ le 8 x.bytes ++ le 8 x.firstSkipped))
        ∧ (∀ seq rest, x.cur = [] → x.left = seq :: rest →
          (d.blockOf seq = none → let first := if x.skipped = 0 then seq else x.firstSkipped
            steps fun e => e.exports = [{ x with left := rest, skipped := x.skipped + 1, firstSkipped := first }] ∧ e.out = d.out)
          ∧ ∀ k c, d.blockOf seq = some (k, c) → steps fun e => e.exports = [{ x with left := rest, cur := c.exported, block := some k }]
            ∧ (e.blk k).readPins = (d.blk k).readPins + 1)
        ∧ (∀ k, x.cur ≠ [] → x.block = some k → steps fun e => Output.hostWrite p a x.cur ∈ e.out
          ∧ (e.blk k).readPins = (d.blk k).readPins - 1
          ∧ e.exports = [{ x with cur := [], bytes := x.bytes + x.cur.length, addr := some (a + ceilDiv x.cur.length 16 * 16), block := none,
                                  sent := x.sent + 1 }]))
    ∧ (d.takes 0x0305 p i b → Completes (.storeInfo p i) s fun e => e.replied d' p i 0
        (le 4 d.storStatus ++ le 4 d.storFree ++ le 4 d.heldBlocks ++ le 4 d.storGeom ++ le 8 d.store.nextSeq
          ++ le 8 ((all.head?.map fun c => c.2.seq).getD 0)))
    ∧ (d.takes 0x0401 p i b → Completes (.timeGet p i) s fun e => e.replied d' p i 0
        (le 8 (if d.time.servo.run then d.now else 0) ++ le 4 d.boundNow ++ le 4 d.timeStatus ++ le 4 (signed 32 d.time.servo.offset)
          ++ le 4 d.time.aon.pcyc ++ le 4 d.time.aon.oph ++ zeros 4))
    ∧ (d.takes 0x0402 p i b → let t := numAt b 0 8; let o : Int := (t : Int) - (d.now : Int); let v := d.time.servo; let g := d.time.cfg
        let tells := fun (e : Dev) (a : Nat) => e.answered d p i 0 (le 8 (signed 64 o) ++ [u8 a] ++ zeros 7)
        Checked (.timeSet p i) s p i [(timeMax < t, .timeRange)]
        ((v.dstate = .stopped ∨ (v.dstate ≠ .startWait ∧ g.discEn = false) → Completes (.timeSet p i) s fun e => tells e 0 ∧ e.time = d.time)
          ∧ (v.dstate ≠ .stopped → v.dstate ≠ .startWait → g.discEn = true → g.forceHold = true → Completes (.timeSet p i) s fun e =>
            tells e 0 ∧ e.time.servo.acc = v.acc ∧ e.time.servo.slew = v.slew)
          ∧ (v.dstate ≠ .stopped → v.dstate ≠ .startWait → g.discEn = true → g.forceHold = false → Completes (.timeSet p i) s fun e =>
            Corrects d o e ∧ e.time.servo.srcActive = 4 ∧ ∃ a, tells e a
              ∧ ((g.stepThr : Int) * 4294967296 / 1000000 < o → g.stepEn = true → a = 2)
              ∧ (o ≤ (g.stepThr : Int) * 4294967296 / 1000000 ∨ g.stepEn = false →
                (o = 0 → a = 0) ∧ (o ≠ 0 → o * 4294967296 ≠ v.slew → a = 1)))))
    ∧ (d.takes 0x0403 p i b → let v := numAt b 0 4
        Checked (.timeLabel p i) s p i [(0xFFFF0000 < v, .timeRange), (d.time.cfg.srcA ≠ 1 ∧ d.time.cfg.srcB ≠ 1, .noSource)]
        (Completes (.timeLabel p i) s fun e =>
          e.replied { d' with time := { d.time with cfg := { d.time.cfg with label := v, labelArm := true } } } p i 0 []))
    ∧ (d.takes 0x0404 p i b → let n := numAt b 0 1; let f := numAt b 1 1; let v := numAt b 8 8
        Checked (.timeAlarm p i) s p i [(3 < n ∨ 3 < f ∨ numAt b 2 2 ≠ 0, .badField), (timeMax < v, .timeRange)]
        (Completes (.timeAlarm p i) s fun e => e.answered d p i 0 [] ∧ e = { d' with time := e.time, ports := e.ports, out := e.out }
          ∧ vget e.time.aon.alarms n {} = { en := f.testBit 0, wake := f.testBit 1, fired := false, value := v, per := numAt b 4 4 }
          ∧ (∀ m, m ≠ n → vget e.time.aon.alarms m {} = vget d.time.aon.alarms m {}) ∧ e.time.servo = d.time.servo ∧ e.time.cfg = d.time.cfg))

/-- R318 to R323, R376 to R380, R425, R433, R434: commands for keys and for the event log. -/
def Obligations.KeyAndLogCommands : Prop :=
  ∀ (s : State) (p i : Nat) (b : List Byte), let d := s.dev; let d' := d.started p i; let q := d.keys; let g := d.log
    let quiet := fun (e : Dev) => e = { d' with ports := e.ports, out := e.out }
    (d.takes 0x0501 p i b → let off := numAt b 0 4; let data := q.identityPub ++ q.cert
        Checked (.identityGet p i) s p i [(bufWords p < off + ceilDiv data.length 6, .lenTooLarge)]
        (Completes (.identityGet p i) s fun e => e.buffered d p i off data ∧ quiet e
          ∧ e.answered d p i 0 (le 4 data.length ++ zeros 4 ++ fitBytes 64 q.idDigest)))
    ∧ (d.takes 0x0502 p i b → let off := numAt b 0 4; let len := numAt b 4 4; let outOff := numAt b 8 4; let m := d.bufGet p i off len
        let v := Delivery.of m; let n := v.index; let c := Instr.keyDeliver p i; let old := d.keySlot n
        Checked c s p i
        (badRef p off len ++ (d.deliveryShape m v).map (fun x => (x.1 = true, x.2))
          ++ ([(bytesAt m 0x20 64 ≠ fitBytes 64 q.idDigest, .wrongDevice), (d.deliverySigned m v = false, .badSignature),
              (v.counter ≤ q.counter ∨ q.counter = 0xFFFFFFFFFFFF, .counterStale),
              (d.now + 60 * 2 ^ 32 < v.issued ∨ v.issued + q.fresh * 2 ^ 32 ≤ d.now, .deliveryExpired),
              (d.deliveryOccupied v = true, .slotOccupied), (v.kind = 4 ∧ old.full = false, .slotEmpty),
              (d.deliveryDenied (d.roleOf p i) v = true, .attrDenied), (v.kind = 1 ∧ d.deliveredKey v = none, .noKey),
              (v.kind = 2 ∧ d.canDraw 0 = false, .notReady), (d.deliveryRoom v = false, .lenTooLarge),
              (v.kind = 2 ∧ bufWords p < outOff + ceilDiv (statementLen (attrAlg v.attr)) 6, .lenTooLarge)] :
                List (Prop × Status)))
        (Completes c s fun e => e.keys.slots = q.slots ∧ e.keys.trust = q.trust ∧ e.keys.counter = q.counter ∧ e.ports = d.ports
          ∧ ∃ (x : KeyPending) (n' : Nat) (stm dig : List Byte), e.keys.pending = q.pending ++ [x] ∧ x.done = .deliver p i ∧ x.rec_.counter = v.counter
            ∧ x.resp = le 2 n ++ zeros 2 ++ le 4 n' ++ le 8 v.counter ++ fitBytes 64 dig
            ∧ (v.kind ≠ 2 → n' = 0) ∧ (v.kind = 2 → x.outOff = outOff ∧ x.outData = stm ∧ n' = stm.length)
            ∧ (∀ k, v.kind = 1 → d.deliveredKey v = some k → let w := if attrPersist v.attr then x.rec_.slot else (x.ram.map fun r => r.2).getD ({} : KeySlot)
              w.key = k ∧ w.attr = v.attr ∧ w.created = d.now ∧ (attrPersist v.attr = true → x.rec_.kind = 1 ∧ x.rec_.index = n))
            ∧ (v.kind = 3 → x.rec_.kind = 3 ∧ x.rec_.index = n ∧ dig = shake (v.payload.drop 8) 64
              ∧ x.rec_.trust = { purpose := numAt v.payload 0 1, role := numAt v.payload 1 1, alg := numAt v.payload 2 1, key := v.payload.drop 8 })
            ∧ (v.kind = 4 → x.ram = some (n, ({} : KeySlot)) ∧ x.rec_.kind = (if attrPersist old.attr then 2 else 7))
            ∧ (v.kind = 5 → x.rec_.kind = 5 ∧ x.rec_.body = v.payload)
            ∧ (v.kind = 6 → x.rec_.kind = 3 ∧ x.rec_.index = 0 ∧ x.rec_.trust = { purpose := 1, role := 0, alg := 1, key := v.payload })))
    ∧ (d.takes 0x0503 p i b → let n := numAt b 0 2; let off := numAt b 4 4; let k := d.keySlot n; let none_ := k.statement = []
        Checked (.keyStatement p i) s p i
        [(numAt b 2 2 ≠ 0 ∨ 1087 < n, .badField), (d.slotAbsent n = true, .badLane), (k.full = false, .slotEmpty),
         (attrOrigin k.attr ≠ 0 ∨ (none_ ∧ d.dbg.level = .full), .attrDenied),
         (bufWords p < off + ceilDiv (statementLen (attrAlg k.attr)) 6, .lenTooLarge), (none_ ∧ d.canDraw 0 = false, .notReady)]
        (Completes (.keyStatement p i) s fun e => ∃ stm : List Byte, e.answered d p i 0 (le 4 stm.length) ∧ e.buffered d p i off stm
          ∧ e.keySlot n = { k with statement := stm } ∧ (∀ m, m ≠ n → e.keySlot m = d.keySlot m) ∧ e.keys.pending = q.pending
          ∧ (¬none_ → stm = k.statement)
          ∧ (none_ → ∃ sig : List Byte, sig.length = 1280 ∧ stm = d.statementBody n k ++ le 2 1280 ++ zeros 6 ++ sig)))
    ∧ (d.takes 0x0504 p i b → let n := numAt b 0 2; let k := d.keySlot n
        Checked (.keyInfo p i) s p i [(1087 < n, .badField), (d.slotAbsent n = true, .badLane), (k.full = false, .slotEmpty)]
        (Completes (.keyInfo p i) s fun e => e.replied d' p i 0 (le 8 k.attr ++ (if k.pub = [] then shake (ascii "QKID" ++ k.key) 64 else shake k.pub 64))))
    ∧ (d.takes 0x0601 p i b → let start := numAt b 0 8; let n := numAt b 8 2
        let got := (((g.newestFirst.reverse.filter fun r => decide (g.oldest ≤ r.index)).filter fun r => decide (start ≤ r.index)).take n)
        Checked (.logRead p i) s p i [(numAt b 10 6 ≠ 0, .badField), (n = 0, .badLength), ((if p = 4 then 126 else 510) < n, .lenTooLarge)]
        (Completes (.logRead p i) s fun e => e.replied d' p i 0
          (le 8 ((got.head?.map fun r => r.index).getD start) ++ le 2 got.length
            ++ le 2 ((if g.frozen then 1 else 0) + (if start < g.oldest then 2 else 0)) ++ zeros 4 ++ got.flatMap LogRec.bytes)))
    ∧ (d.takes 0x0602 p i b → Checked (.logFreeze p i) s p i [(g.frozen = true ∧ g.holder ≠ some (p, sessOf p i), .resourceHeld)]
        (Completes (.logFreeze p i) s fun e =>
          e.replied { d' with log := { g with frozen := true, holder := some (p, sessOf p i) } } p i 0 []))
    ∧ (d.takes 0x0603 p i b → Checked (.logUnfreeze p i) s p i [(g.frozen = true ∧ g.holder ≠ some (p, sessOf p i), .resourceHeld)]
        (Completes (.logUnfreeze p i) s fun e => e.answered d p i 0 [] ∧ e = { d' with log := e.log, ports := e.ports, out := e.out }
          ∧ (g.frozen = false → e.log = g) ∧ e.log.frozen = false ∧ (g.frozen = true → e.log.holder = none) ∧ e.log.next = g.next
          ∧ e.log.blocks = g.blocks))
    ∧ (d.takes 0x0604 p i b → Checked (.logClear p i) s p i
        [(numAt b 0 8 ≠ g.next - 1, .stale), (g.frozen = true ∧ g.holder ≠ some (p, sessOf p i), .resourceHeld)]
        (Completes (.logClear p i) s fun e => e.log.clearIdx = some g.next ∧ e.log.blocks = g.blocks
          ∧ (∃ r : LogRec, e.log.pages = g.pages ++ [[r]] ∧ r.index = g.next ∧ r.typ = 0x1C0 ∧ r.sev = 3
            ∧ r.data = le 8 (g.next - 1) ++ [u8 p, u8 (d.roleOf p i).code])
          ∧ e.waits = d.waits ++ [{ port := p, slot := i, for_ := .logRec g.next, body := le 8 g.next }]))

/-- R324 to R326, R330, R331, R366 to R368, R440 to R442, R448 to R451, R517 to R519: commands for the life cycle, debug,
extensions and firmware. -/
def Obligations.LifeAndCodeCommands : Prop :=
  ∀ (s : State) (p i : Nat) (b : List Byte), let d := s.dev; let d' := d.started p i; let q := d.keys
    let ext := fun (e : Dev) (c : Nat) => vget e.keys.meas.extState c 0
    let cs := (List.range 8).filter fun c => (numAt b 0 1).testBit c
    let absent := ∃ c ∈ cs, d.nCombs ≤ c
    let jobs := fun (e : Dev) (k : Nat) => (e.flash.bank k).job.toList ++ (e.flash.bank k).queue
    let bank := d.flash.staging
    (d.takes 0x0701 p i b → Completes (.lcGet p i) s fun e => e.replied d' p i 0
        ([u8 d.life.st.code, u8 d.levelNow.code, u8 d.power.mode.code, 0#8] ++ le 4 (Nat.max d.tamper.tec1 d.tamper.tec2) ++ le 8 q.counter
          ++ fitBytes 64 q.idDigest ++ zeros 8))
    ∧ (d.takes 0x0702 p i b → let c := Instr.lcTransition p i; let old := d.life.st; let fleet := d.roleOf p i = .fleet
        let t := q.trust.toList; let encaps := ∃ x ∈ t, x.purpose = 3
        let row := fun (new : LcSt) =>
          (fleet ∧ (old, new) ∈ [(LcSt.provision, LcSt.fleet), (.fleet, .service), (.tampered, .service)])
          ∨ (old, new) ∈ [(LcSt.service, LcSt.fleet), (.provision, .tampered), (.fleet, .tampered), (.service, .tampered),
                          (.provision, .retired), (.fleet, .retired), (.service, .retired), (.tampered, .retired)]
        let pre := fun (new : LcSt) =>
          (d.power.mode = .idle ∧ d.power.target = none ∧ d.canDraw 0 = true ∧ d.life.going = none
            ∧ (new = .tampered ∨ new = .retired ∨ 3 ≤ d.life.free))
          ∧ (old = .provision → new = .fleet → (vget q.trust 0 {}).purpose = 1 ∧ q.cert ≠ [] ∧ encaps ∧ (∃ x ∈ t, x.purpose = 2 ∧ x.role = 2)
              ∧ d.tamper.cfgDefault = false ∧ d.dbg.level = .closed ∧ 0 < d.flash.level)
          ∧ (old = .service → new = .fleet → d.dbg.level = .closed ∧ d.tamper.cfgDefault = false ∧ encaps)
          ∧ (old = .tampered → new = .service → d.aon.pending = 0 ∧ ∀ es ∈ d.tamper.events.toList, es = [])
          ∧ (new = .retired → d.store.holds = [])
        Checked c s p i [(numAt b 1 7 ≠ 0 ∨ LcSt.ofCode (numAt b 0 1) = none, .badField), (bytesAt b 8 64 ≠ fitBytes 64 q.idDigest, .wrongDevice)]
        ((∀ new, LcSt.ofCode (numAt b 0 1) = some new → row new → pre new → Completes c s fun e =>
            e.life.st = old ∧ e.life.going = some { target := new, source := p, slot := i } ∧ e.ports = d.ports
            ∧ e.waits = d.waits ++ [{ port := p, slot := i, for_ := .transition, body := [] }]
            ∧ ∃ x : KeyPending, e.keys.pending = q.pending ++ [x] ∧ x.rec_.kind = 7 ∧ x.rec_.mark = some new.code ∧ x.done = .transition)
          ∧ ((∀ new, LcSt.ofCode (numAt b 0 1) = some new → ¬(row new ∧ pre new)) → Completes c s fun e =>
            e.replied { d' with life := { d.life with err := setBit d.life.err 1 } } p i Status.lcPrecond.code [])))
    ∧ (d.takes 0x0703 p i b → let level := numAt b 0 1
        let admitted := (level = 1 ∧ d.life.st = .fleet) ∨ d.life.st = .provision ∨ d.life.st = .service ∨ d.life.st = .tampered
        Checked (.debugChallenge p i) s p i [(level ≠ 1 ∧ level ≠ 2, .badField), (¬admitted, .debugDenied), (d.canDraw 0 = false, .notReady)]
        (Completes (.debugChallenge p i) s fun e => ∃ c : List Byte, c.length = 32 ∧ let t := d.now + d.dbg.chalTime * 2 ^ 32
          e.dbg = { d.dbg with chal := some (level, c, t) } ∧ e.answered d p i 0 (c ++ le 8 t)))
    ∧ (d.takes 0x0704 p i b → let off := numAt b 0 4; let len := numAt b 4 4; let m := d.bufGet p i off len; let c := Instr.debugUnlock p i
        let no := fun (st : Status) => Completes c s fun e => e.dbg = { d.dbg with chal := none } ∧ e.answered d p i st.code []
        Checked c s p i (badRef p off len ++ [(len < numAt m 8 4, .lenTooLarge)])
        ((d.dbg.chal = none → no .challengeExpired)
          ∧ ∀ level x t, d.dbg.chal = some (level, x, t) →
            (t ≤ d.now → no .challengeExpired)
            ∧ (d.now < t → (∀ st, d.unlockCheck level t x m = some st → no st)
              ∧ (d.unlockCheck level t x m = none → Completes c s fun e => e.answered d p i 0 [] ∧ e.dbg = { d.dbg with
                  chal := none, level := if level = 2 then .full else .limited, until_ := some (d.now + numAt m 0xB8 4 * 2 ^ 32) }))))
    ∧ (d.takes 0x0705 p i b → Completes (.debugLock p i) s fun e => e.answered d p i 0 []
        ∧ e.dbg = { d.dbg with level := .closed, until_ := none, halted := 0, step := 0 })
    ∧ (d.takes 0x0901 p i b → let off := numAt b 4 4; let len := numAt b 8 4; let bs := d.bufGet p i off len; let m := fitBytes 3248 bs
        let n := numAt m 0x10 4 * 6; let image := (bs.drop 3248).take n; let ver := numAt m 0xC 1; let min := fun c => vget q.meas.extMin c 0
        Checked (.extLoad p i) s p i
        ((numAt b 1 3 ≠ 0 ∨ cs = [], .badField) :: badRef p off len
          ++ ([(absent, .badLane), (∃ c ∈ cs, d.combOpen c = true, .laneBusy), (∃ c ∈ cs, ext d c = 2, .extRunning),
              (len < numAt m 8 4 ∨ len < 3248 + n, .lenTooLarge), (d.bundleOk m image = false, .badBundle), (∃ c ∈ cs, ver < min c, .rollback),
              (∃ c ∈ cs, q.room 6 c 1 = false, .lenTooLarge)] : List (Prop × Status)))
        (Completes (.extLoad p i) s fun e => (∀ c ∈ cs, ext e c = 1 ∧ vget e.keys.meas.ext c [] = m ∧ (e.core (1 + c)).extHalt = (d.core (1 + c)).extHalt
            ∧ (∀ j, j < (packWords image).length → spGet zeroWord (e.core (1 + c)).imem (numAt m 0x14 4 + j) = ((packWords image)[j]?).getD 0)
            ∧ vget e.keys.meas.extMin c 0 = Nat.max (min c) ver)
          ∧ (∀ c, c ∉ cs → ext e c = ext d c ∧ e.core (1 + c) = d.core (1 + c))
          ∧ ∃ c0, cs.head? = some c0 ∧ e.answered d p i 0 (shake (e.keys.meas.mS ++ shake m 64) 64)))
    ∧ (d.takes 0x0902 p i b → Checked (.extStart p i) s p i [(absent, .badLane), (∃ c ∈ cs, ext d c = 0, .extNotLoaded)]
        (Completes (.extStart p i) s fun e => e.answered d p i 0 []
          ∧ (∀ c ∈ cs, ext e c = 2 ∧ e.core (1 + c) = { d.core (1 + c) with extHalt := false })
          ∧ ∀ c, c ∉ cs → ext e c = ext d c ∧ e.core (1 + c) = d.core (1 + c)))
    ∧ (d.takes 0x0903 p i b → Checked (.extStop p i) s p i [(absent, .badLane)]
        (Completes (.extStop p i) s fun e => e.answered d p i 0 []
          ∧ (∀ c ∈ cs, ext e c = (if ext d c = 0 then 0 else 1) ∧ e.core (1 + c) = { d.core (1 + c) with extHalt := true })
          ∧ ∀ c, c ∉ cs → ext e c = ext d c ∧ e.core (1 + c) = d.core (1 + c)))
    ∧ (d.takes 0x0904 p i b → Completes (.extStatus p i) s fun e => e.replied d' p i 0 ((List.range 8).flatMap fun c =>
        [u8 (if ext d c = 2 ∧ (d.core (1 + c)).lockup = true then 3 else ext d c)] ++ zeros 3 ++ le 4 (numAt (vget q.meas.ext c []) 0xC 1)))
    ∧ (d.takes 0x0905 p i b → let off := numAt b 0 4; let ref := numAt b 4 4; let len := numAt b 8 4; let bs := d.bufGet p i ref len
        let ws := packWords bs ++ List.replicate ((8 - (packWords bs).length % 8) % 8) (BitVec.allOnes 48)
        let rows := (List.range (ws.length / 8)).map fun k => off + 8 * k
        let starts := fun (r : Nat) => r ∈ rows ∧ (sectorOf r).1 = r
        let erased := fun (r : Nat) => d.flash.sectorErased bank r
        Checked (.fwStage p i) s p i
        (badRef p ref len ++ ([(off % 8 ≠ 0, .badAddr), (2097152 < off + ws.length, .lenTooLarge),
          (∃ r ∈ rows, d.flash.permits 2 bank r = false, .regionDenied),
          (∃ r ∈ rows, ¬(starts (sectorOf r).1 ∧ erased (sectorOf r).1 = false) ∧ d.flash.rowErased bank r = false, .pageOrder)] :
            List (Prop × Status)))
        (Completes (.fwStage p i) s fun e => e = { d' with flash := e.flash, waits := e.waits }
          ∧ e.waits = d.waits ++ [{ port := p, slot := i, for_ := .flash stageTag, body := [] }] ∧ e.flash.mem = d.flash.mem
          ∧ jobs e bank = jobs d bank
            ++ ((rows.filter fun r => decide ((sectorOf r).1 = r)).filter fun r => !erased r).map
              (fun r => { op := 3, tag := stageTag, bank := bank, offset := r, count := 1 })
            ++ [{ op := 2, tag := stageTag, bank := bank, offset := off, count := ws.length / 8, data := ws }]))
    ∧ (d.takes 0x0906 p i b → let m := d.flash.manifest bank; let seq := (d.flash.bank d.flash.runBank).act.getD 0 + 1
        Checked (.fwActivate p i) s p i
        [(d.imageGood bank = false, .badBundle), (d.imageNew bank = false, .rollback), (2 ^ 48 - 2 < seq, .counterExhausted),
         (d.flash.rowErased bank 16376 = false, .pageOrder)]
        (Completes (.fwActivate p i) s fun e => e = { d' with flash := e.flash, waits := e.waits } ∧ e.flash.mem = d.flash.mem
          ∧ e.waits = d.waits ++ [{ port := p, slot := i, for_ := .flash activateTag, body := le 4 (numAt m 0xC 1) ++ d.flash.measure bank }]
          ∧ jobs e bank = jobs d bank
            ++ [{ op := 4, tag := activateTag, bank := bank, offset := 16376, count := 1, data := actRowOf seq (numAt m 0xC 1) }]))

/-- R327 to R329, R332 to R336, R532, R534, R550, R557, R558, R561, R562: commands for the field link and the settings. -/
def Obligations.FieldAndSettingCommands : Prop :=
  ∀ (s : State) (p i : Nat) (b : List Byte), let d := s.dev; let d' := d.started p i; let l := d.field; let q := d.settings
    let mine := fun (h : SetShadow) => h.port = p ∧ h.slot = sessOf p i
    let other := ∃ h, q.shadow = some h ∧ ¬mine h
    let jobs := fun (e : Dev) => e.flash.bank0.job.toList ++ e.flash.bank0.queue
    let amp := (d.setting 0x70).testBit 0 = true
    let may := (d.power.mode = .idle ∨ d.power.mode = .record ∨ d.power.mode = .ingest) ∧ l.sess = none
    (d.takes 0x0801 p i b → Completes (.fieldStatus p i) s fun e => e.replied d' p i 0
        (le 2 (64 - l.mem.used) ++ le 2 ((if l.fallback then 1 else 0) + (if l.readerEn then 2 else 0) + (if d.supply.field then 4 else 0))
          ++ [u8 l.mem.active] ++ zeros 3 ++ le 4 l.sessions ++ le 8 l.lastEnd ++ le 8 l.lastCommit ++ zeros 4))
    ∧ (d.takes 0x0802 p i b → l.waits = [] →
        (l.sess = none → Completes (.fieldPageUpdate p i) s fun e =>
          (l.mem.commitSeq + 1 < 2 ^ 32 → e.field.mem.active = 1 - l.mem.active) ∧ e.field.lastCommit = d.now
          ∧ (e.field.mem.bank (1 - l.mem.active)).page = d.composePage false b ∧ e.field.waits = []
          ∧ (e.field.mem.bank l.mem.active).page = (l.mem.bank l.mem.active).page ∧ e.answered d p i 0 ([u8 (1 - l.mem.active)] ++ zeros 7 ++ le 8 d.now))
        ∧ (l.sess.isSome = true → Completes (.fieldPageUpdate p i) s fun e => e = { d' with field := { l with waits :=
            [{ work := .command p i, page := d.composePage false b, until_ := some (d.clk + ms 200) }] } }))
    ∧ (∀ w t, l.waits = [w] → w.work = .command p i → w.page ≠ [] → w.pool = [] → w.until_ = some t → d.waitsAt p i → d.supply.clocks = true →
        let c := Instr.fieldPageCommitExpiry
        (l.sess = none ∨ (t ≤ d.clk ∧ ∃ x, l.sess = some x ∧ x.bank = l.mem.active) → Completes c s fun e => e.field.waits = []
          ∧ (e.field.mem.bank (1 - l.mem.active)).page = w.page ∧ e.answered d p i 0 ([u8 (1 - l.mem.active)] ++ zeros 7 ++ le 8 d.now))
        ∧ (∀ x, l.sess = some x → d.clk < t ∨ x.bank ≠ l.mem.active → Completes c s fun e => e = d))
    ∧ (d.takes 0x0803 p i b → ∀ rs, let time := numAt b 0 2; let n := numAt b 2 2; let c := Instr.fieldInventory p i rs
        Checked c s p i
        [(time < 10 ∨ 5000 < time, .badField), (n = 0, .badLength), ((if p = 4 then 508 else 2044) < n, .lenTooLarge), (¬amp, .readerAbsent),
         (¬may, .notReady)]
        (Completes c s fun e => e.field.readerEn = true ∧ ∃ r, e.field.reader = some r
          ∧ (rs = [] → r = { port := p, slot := i, maxTags := n, until_ := d.clk + ms time, stack := [[]], own := !l.readerEn,
                             replyAt := some (d.clk + 64000) })))
    ∧ (∀ r, l.reader = some r → d.supply.clocks = true → let c := Instr.fieldInventoryDurationExpiry
        (d.clk ≤ r.until_ → Completes c s fun e => e = d)
        ∧ (r.until_ < d.clk → d.waitsAt r.port r.slot → Completes c s fun e =>
          e.field.reader = none ∧ e.field.readerEn = (l.readerEn && !r.own)
          ∧ (r.found = [] → e.answered d r.port r.slot Status.noTag.code [])
          ∧ (r.found ≠ [] → e.answered d r.port r.slot 0 (le 4 r.found.length ++ zeros 4 ++ r.found.flatMap (le 8)))))
    ∧ (d.takes 0x0804 p i b → ∀ sel auth prove pair lv, let c := Instr.fieldPair p i sel auth prove pair lv; let off := numAt b 8 4
        let id := bytesAt b 0 8; let k := l.mem.key0
        Checked c s p i [(¬amp, .readerAbsent), (¬may, .notReady), (bufWords p < off + 11, .lenTooLarge), (d.canDraw 0 = false, .notReady)]
        ((sel = none → Completes c s fun e => e.answered d p i Status.noTag.code [] ∧ e.field.readerEn = l.readerEn)
          ∧ ∀ r, sel = some r → Completes c s fun e =>
            let sel := fitBytes 7 r
            let rec_ := fun (st time : Nat) (token : List Byte) (lv : Nat) => ascii "QFPR" ++ [1#8, u8 st, 0#8, 0#8] ++ fitBytes 8 id ++ le 8 time
              ++ fitBytes 16 token ++ bytesAt sel 1 4 ++ [u8 k.keyId] ++ sel.take 1 ++ le 2 lv ++ zeros 16
            e.answered d p i 0 (le 4 64) ∧ e.field.readerEn = l.readerEn ∧ ∃ x, e.buffered d p i off x
              ∧ (k.valid = false → x = rec_ 3 0 [] 0)
              ∧ (k.valid = true → auth.length = 1 → x = rec_ (numAt auth 0 1) 0 [] 0)
              ∧ (k.valid = true → auth.length ≠ 1 → ∃ rr, rr.length = 16 ∧ let rt := bytesAt auth 0 16
                let good := bytesAt auth 16 16 = cmac k.key (ascii "QFT" ++ id ++ [u8 k.keyId] ++ rr ++ rt)
                (¬good → x = rec_ 1 0 [] 0) ∧ (good → prove ≠ 0 → x = rec_ prove 0 [] 0)
                ∧ (good → prove = 0 → ∃ token, token.length = 16 ∧ x = rec_ pair d.now token (lv % 65536) ∧ e.field.rssi = lv % 65536))))
    ∧ (d.takes 0x0A01 p i b → let id := numAt b 0 2; let src := numAt b 2 1
        Checked (.setRead p i) s p i [(2 < src ∨ numAt b 3 1 ≠ 0, .badField), (settingInfo id = none, .badSetting), (src = 1 ∧ other, .resourceHeld),
          (src = 1 ∧ q.shadow = none, .notFound)]
        (Completes (.setRead p i) s fun e => ∃ v, e.replied d' p i 0 (le 2 v.length ++ zeros 2 ++ v) ∧ (src = 0 → v = spGet settingDefault q.vals id)
          ∧ (∀ h, src = 1 → q.shadow = some h → v = spGet settingDefault h.vals id) ∧ (src = 2 → v = d.runningValue id)))
    ∧ (d.takes 0x0A02 p i b → let id := numAt b 0 2; let size := numAt b 2 2; let v := b.drop 4; let info := (settingInfo id).getD (0, 0, [])
        let r := d.roleOf p i
        let writes := (r = .operator ∧ info.1 = 0) ∨ (r = .evidence ∧ info.1 = 1) ∨ (r = .service ∧ (info.1 = 0 ∨ info.1 = 2)) ∨ r = .fleet
        Checked (.setWrite p i) s p i [(settingInfo id = none, .badSetting), (size ≠ info.2.1 ∨ v.length ≠ size, .badLength),
          (¬writes, .roleInsufficient), (settingOk id v = false, .settingRange), (other, .resourceHeld)]
        (Completes (.setWrite p i) s fun e => ∃ h, mine h ∧ e.replied { d' with settings := { q with shadow := some h } } p i 0 []
          ∧ spGet settingDefault h.vals id = v
          ∧ ∀ j, j ≠ id → spGet settingDefault h.vals j = spGet settingDefault (match q.shadow with | some h => h.vals | none => q.vals) j))
    ∧ (d.takes 0x0A03 p i b → let c := Instr.setCommit p i
        (q.shadow = none → Completes c s fun e => e.replied d' p i Status.resourceHeld.code [])
        ∧ ∀ h, q.shadow = some h → let changed := settingIds.filter fun id => spGet settingDefault h.vals id != spGet settingDefault q.vals id
          let gen := q.generation + 1; let body := settingsBody h.vals; let sec := 0x4000 + gen % 12 * 0x400; let ws := stageWords body
          Checked c s p i [(¬mine h, .resourceHeld), (numAt b 0 4 ≠ q.generation, .stale), (changed = [], .nothingPending),
            (0xFFFFFFFF ≤ q.generation, .counterExhausted)]
          ((∀ id, d.setConflict h.vals = some id → Completes c s fun e => e.replied d' p i Status.settingsConflict.code (le 2 id))
            ∧ (d.setConflict h.vals = none → Completes c s fun e =>
              e = { d' with settings := { q with committing := some h.vals }, flash := e.flash, waits := e.waits } ∧ e.flash.mem = d.flash.mem
              ∧ e.waits = d.waits ++ [{ port := p, slot := i, for_ := .flash commitTag, body := le 4 gen ++ le 4 changed.length }]
              ∧ jobs e = jobs d
                ++ (if d.flash.sectorErased 0 sec then [] else [{ op := 3, tag := commitTag, bank := 0, offset := sec, count := 1 }])
                ++ [{ op := 2, tag := commitTag, bank := 0, offset := sec + 8, count := ws.length / 8, data := ws },
                    { op := 2, tag := commitTag, bank := 0, offset := sec, count := 1, data := packWords (commitRow gen body) }])))
    ∧ (d.takes 0x0A04 p i b → Checked (.setDiscard p i) s p i [(other, .resourceHeld), (q.shadow = none, .nothingPending)]
        (Completes (.setDiscard p i) s fun e => e.replied { d' with settings := { q with shadow := none } } p i 0 []))

/-! The machine -/

/-- The command at the front of the queue runs, on the state with the queue's rest. -/
def Obligations.StepTakesTheFront : Prop :=
  ∀ (s : State) (c : Instr) (rest : List Instr), step { s with pending := c :: rest } = exec c { s with pending := rest }

/-- While no command waits time passes, to the next edge of the fast clocks or, while they are stopped, of the crystal; the
model's choice (log entry 3). -/
def Obligations.EmptyQueueTicks : Prop :=
  ∀ (s : State), s.pending = [] → let d := s.dev
    ∃ e, step s = .next { s with dev := e }
      ∧ e.variant = d.variant ∧ e.supply = d.supply ∧ e.keys = d.keys ∧ e.rng = d.rng ∧ e.life = d.life ∧ e.dbg = d.dbg
      ∧ e.tamper = d.tamper ∧ e.flash = d.flash ∧ e.settings = d.settings ∧ e.field = d.field
      ∧ (d.supply.clocks = true → e.clk = d.clk + 1 ∧ (d.wag.flights = [] → ∀ n c, n < 9 → c = d.core n →
          e.core n = { c with cycles := (c.cycles + d.coreCycles n) % 2 ^ 48 }))
      ∧ (d.supply.clocks = false → e.cores = d.cores ∧ e.time.servo = d.time.servo
          ∧ (d.time.aon.phase < 1000000000 → d.clk < e.clk ∧ e.clk ≤ d.clk + 30518))

/-- Every command runs to a next state, whatever waits behind it, and neither takes a command from the queue nor adds one. -/
def Obligations.CommandsLeaveTheQueue : Prop :=
  ∀ (i : Instr) (s : State), ∃ t, exec i s = .next t ∧ t.pending = s.pending
    ∧ ∀ q, exec i { s with pending := q } = .next { t with pending := q }

/-- Time passes only while no command waits, and no command makes another part of the device; the model's choice (log entries
3 and 5). -/
def Obligations.CommandsTakeNoTime : Prop :=
  ∀ (i : Instr) (s t : State), exec i s = .next t → t.dev.clk = s.dev.clk ∧ t.dev.variant = s.dev.variant

/-- R20, R237, R438, R485, R487, R489: what the spec states of the machine as it ships and after reset. -/
def Obligations.ResetState : Prop :=
  let d := State.reset.dev
  State.reset.pending = []
    ∧ (∀ n, n < 9 → (d.core n).pc = 0 ∧ (d.core n).pceil = 3 ∧ (d.core n).psw.word = 7
        ∧ (d.core n).psw.priv = .machine ∧ (d.core n).psw.exm = true)
    ∧ d.life.st = .provision ∧ stateOf d.life.entries = .provision ∧ d.supply.clocks = false ∧ d.power.mode = .vault
    ∧ (∀ n, n < 64 → (d.lane n).st = .off)

/-- The cores are sound after reset. -/
def Obligations.CoresSoundAtReset : Prop := ∀ n, (State.reset.dev.core n).sound

/-- R458, R471, R473, R478, R487, R488: every step keeps every core sound: addresses of instructions stay within I-space,
registers within their widths, the vector base on its boundary, and the memories in their canonical form. -/
def Obligations.CoresStaySound : Prop :=
  ∀ (s t : State), (∀ n, (s.dev.core n).sound) → step s = .next t → ∀ n, (t.dev.core n).sound

/-- R438, R441, R442, R444: the life-cycle state changes only as a DESTROY moves it, as the entry of the transition under way
is programmed, or as the ROM reads the log; and a transition begins only by a command, in IDLE, along the table. -/
def Obligations.LifeCycleChanges : Prop :=
  ∀ (i : Instr) (s t : State), exec i s = .next t → let d := s.dev; let e := t.dev
    (e.life.st ≠ d.life.st →
        (e.life.st = .tampered ∧ (d.life.st = .provision ∨ d.life.st = .fleet ∨ d.life.st = .service))
        ∨ (i = .lcEntryProgrammed true ∧ ∃ g, d.life.going = some g ∧ g.marked = true ∧ e.life.st = g.target)
        ∨ ∃ ok, i = .romHandOff ok)
    ∧ ∀ g, e.life.going = some g →
        (∃ g', d.life.going = some g' ∧ g'.target = g.target)
        ∨ (e.life.st = d.life.st ∧ d.power.mode = .idle ∧ lcTable d.life.st g.target
            ∧ ((∃ p k, i = .lcTransition p k) ∨ (d.dbg.level = .full ∧ d.life.st = .blank
              ∧ (i = .dbgCtrlLcProvision ∨ i = .dbgCtrlLcRetire))))

end
end

