-- ==== Sys2Proof/Laws/Bits.lean ====
section
/-! SUPPORT. Bits of registers and little-endian byte strings. -/
namespace Sys2Proof.Machine

theorem flag_setBit (v : Word) (n m : Nat) : flag (setBit v n) m = (flag v m || decide (n = m ∧ m < 32)) := by
  simp only [flag, setBit, BitVec.toNat_or, Nat.testBit_or, BitVec.toNat_ofNat, Nat.shiftLeft_eq, Nat.one_mul,
    Nat.testBit_mod_two_pow, Nat.testBit_two_pow]
  congr 1
  by_cases a : n = m <;> by_cases b : m < 32 <;> simp [a, b]

@[simp] theorem flag_setBit_same (v : Word) (n : Nat) (h : n < 32) : flag (setBit v n) n = true := by
  simp [flag_setBit, h]

theorem flag_setBit_ne (v : Word) {n m : Nat} (h : n ≠ m) : flag (setBit v n) m = flag v m := by
  simp [flag_setBit, h]

/-- A sticky bit stays. -/
theorem flag_setBit_of (v : Word) (n m : Nat) (h : flag v m = true) : flag (setBit v n) m = true := by
  simp [flag_setBit, h]

@[simp] theorem length_le (n v : Nat) : (le n v).length = n := by
  induction n generalizing v with
  | zero => rfl
  | succ n ih => simp [le, ih]

@[simp] theorem length_zeros (n : Nat) : (zeros n).length = n := by simp [zeros]

@[simp] theorem length_bytesAt (bs : List Byte) (o n : Nat) : (bytesAt bs o n).length = n := by
  simp only [bytesAt, List.length_append, List.length_take, List.length_drop, length_zeros]; omega

@[simp] theorem length_fitBytes (n : Nat) (bs : List Byte) : (fitBytes n bs).length = n := by simp [fitBytes]

/-- A number of `n` bytes is read back from them. -/
theorem unle_le (n v : Nat) : unle (le n v) = v % 2 ^ (8 * n) := by
  induction n generalizing v with
  | zero => simp [le, unle, Nat.mod_one]
  | succ n ih =>
    have h : (2 : Nat) ^ (8 * (n + 1)) = 256 * 2 ^ (8 * n) := by rw [Nat.mul_add, Nat.pow_add]; omega
    simp only [le, unle, ih, BitVec.toNat_ofNat, Nat.shiftRight_eq_div_pow, Nat.shiftLeft_eq, h, Nat.mod_mul]
    have : (2 : Nat) ^ 8 = 256 := rfl
    rw [this, Nat.mul_comm]

theorem unle_lt (bs : List Byte) : unle bs < 2 ^ (8 * bs.length) := by
  induction bs with
  | nil => simp [unle]
  | cons b bs ih =>
    have h : (2 : Nat) ^ (8 * (bs.length + 1)) = 256 * 2 ^ (8 * bs.length) := by rw [Nat.mul_add, Nat.pow_add]; omega
    have := b.isLt
    simp only [unle, List.length_cons, h, Nat.shiftLeft_eq]
    omega

end Sys2Proof.Machine
end

