-- ==== Sys2Proof/Laws/Exec.lean ====
section
/-! SUPPORT. Each command runs its own meaning: one equation per arm of the dispatch. -/
namespace Sys2Proof.Machine
variable (s : State)

@[simp] theorem exec_pgoodRise : exec (.pgoodRise) s = execPgoodRise s := rfl
@[simp] theorem exec_resetHoldExpiry (kat : Nat) : exec (.resetHoldExpiry kat) s = execResetHoldExpiry kat s := rfl
@[simp] theorem exec_romHandOff (rowOk : Bool) : exec (.romHandOff rowOk) s = execRomHandOff rowOk s := rfl
@[simp] theorem exec_timeStartWaitExpiry : exec (.timeStartWaitExpiry) s = execTimeStartWaitExpiry s := rfl
@[simp] theorem exec_bootDone : exec (.bootDone) s = execBootDone s := rfl
@[simp] theorem exec_randomOutputReady : exec (.randomOutputReady) s = execRandomOutputReady s := rfl
@[simp] theorem exec_storeScanDone : exec (.storeScanDone) s = execStoreScanDone s := rfl
@[simp] theorem exec_reconcile : exec (.reconcile) s = execReconcile s := rfl
@[simp] theorem exec_startUpDone : exec (.startUpDone) s = execStartUpDone s := rfl
@[simp] theorem exec_pgoodFall : exec (.pgoodFall) s = execPgoodFall s := rfl
@[simp] theorem exec_aonPowerLoss : exec (.aonPowerLoss) s = execAonPowerLoss s := rfl
@[simp] theorem exec_pfailNAssert : exec (.pfailNAssert) s = execPfailNAssert s := rfl
@[simp] theorem exec_pfailNDeassert : exec (.pfailNDeassert) s = execPfailNDeassert s := rfl
@[simp] theorem exec_pfailRestartWaitExpiry : exec (.pfailRestartWaitExpiry) s = execPfailRestartWaitExpiry s := rfl
@[simp] theorem exec_closeFlushDone : exec (.closeFlushDone) s = execCloseFlushDone s := rfl
@[simp] theorem exec_closeFlushExpiry : exec (.closeFlushExpiry) s = execCloseFlushExpiry s := rfl
@[simp] theorem exec_closeOpeningProgrammed : exec (.closeOpeningProgrammed) s = execCloseOpeningProgrammed s := rfl
@[simp] theorem exec_schussEngineSlot (lane units : Nat) : exec (.schussEngineSlot lane units) s = execSchussEngineSlot lane units s := rfl
@[simp] theorem exec_sealCutoffExpiry (done : List Nat) : exec (.sealCutoffExpiry done) s = execSealCutoffExpiry done s := rfl
@[simp] theorem exec_finalSnapshot : exec (.finalSnapshot) s = execFinalSnapshot s := rfl
@[simp] theorem exec_closeRecordProgrammed : exec (.closeRecordProgrammed) s = execCloseRecordProgrammed s := rfl
@[simp] theorem exec_closeDeadlineExpiry : exec (.closeDeadlineExpiry) s = execCloseDeadlineExpiry s := rfl
@[simp] theorem exec_closeDone : exec (.closeDone) s = execCloseDone s := rfl
@[simp] theorem exec_modeRequest (req : Nat) : exec (.modeRequest req) s = execModeRequest req s := rfl
@[simp] theorem exec_modeTransitionDone : exec (.modeTransitionDone) s = execModeTransitionDone s := rfl
@[simp] theorem exec_pwrShutdown : exec (.pwrShutdown) s = execPwrShutdown s := rfl
@[simp] theorem exec_gpioEdge (line : Nat) (level : Bool) : exec (.gpioEdge line level) s = execGpioEdge line level s := rfl
@[simp] theorem exec_timeCompensationInterval (temp : Int) : exec (.timeCompensationInterval temp) s = execTimeCompensationInterval temp s := rfl
@[simp] theorem exec_aonTrimWindow : exec (.aonTrimWindow) s = execAonTrimWindow s := rfl
@[simp] theorem exec_crystalWatchdogExpiry : exec (.crystalWatchdogExpiry) s = execCrystalWatchdogExpiry s := rfl
@[simp] theorem exec_crystalReturn : exec (.crystalReturn) s = execCrystalReturn s := rfl
@[simp] theorem exec_ppsEdge (falling ignored : Bool) : exec (.ppsEdge falling ignored) s = execPpsEdge falling ignored s := rfl
@[simp] theorem exec_timeMeasSubmit (hi : BitVec 32) : exec (.timeMeasSubmit hi) s = execTimeMeasSubmit hi s := rfl
@[simp] theorem exec_timeRefToExpiry : exec (.timeRefToExpiry) s = execTimeRefToExpiry s := rfl
@[simp] theorem exec_timeLabelArm : exec (.timeLabelArm) s = execTimeLabelArm s := rfl
@[simp] theorem exec_forceHoldWrite (on : Bool) : exec (.forceHoldWrite on) s = execForceHoldWrite on s := rfl
@[simp] theorem exec_timeAlarmFire (n : Nat) : exec (.timeAlarmFire n) s = execTimeAlarmFire n s := rfl
@[simp] theorem exec_counterLogCheckpoint (ok : Bool) : exec (.counterLogCheckpoint ok) s = execCounterLogCheckpoint ok s := rfl
@[simp] theorem exec_latchedLoRead (who reg : Nat) : exec (.latchedLoRead who reg) s = execLatchedLoRead who reg s := rfl
@[simp] theorem exec_ptpEventMessage (port : Nat) (tx : Bool) : exec (.ptpEventMessage port tx) s = execPtpEventMessage port tx s := rfl
@[simp] theorem exec_snapshotIssue : exec (.snapshotIssue) s = execSnapshotIssue s := rfl
@[simp] theorem exec_snapshotCapture : exec (.snapshotCapture) s = execSnapshotCapture s := rfl
@[simp] theorem exec_hiveBoundary : exec (.hiveBoundary) s = execHiveBoundary s := rfl
@[simp] theorem exec_hiveRootComputed : exec (.hiveRootComputed) s = execHiveRootComputed s := rfl
@[simp] theorem exec_hiveCtrlDemand : exec (.hiveCtrlDemand) s = execHiveCtrlDemand s := rfl
@[simp] theorem exec_hiveCtrlAtArm : exec (.hiveCtrlAtArm) s = execHiveCtrlAtArm s := rfl
@[simp] theorem exec_hiveCtrlAtCancel : exec (.hiveCtrlAtCancel) s = execHiveCtrlAtCancel s := rfl
@[simp] theorem exec_hivePeriodNextWrite (value : Nat) : exec (.hivePeriodNextWrite value) s = execHivePeriodNextWrite value s := rfl
@[simp] theorem exec_hiveEpochNextWrite (value : Nat) : exec (.hiveEpochNextWrite value) s = execHiveEpochNextWrite value s := rfl
@[simp] theorem exec_epochBoundary : exec (.epochBoundary) s = execEpochBoundary s := rfl
@[simp] theorem exec_epochLinkAppend (lane : Nat) : exec (.epochLinkAppend lane) s = execEpochLinkAppend lane s := rfl
@[simp] theorem exec_hiveLinkMaxExpiry (lane : Nat) : exec (.hiveLinkMaxExpiry lane) s = execHiveLinkMaxExpiry lane s := rfl
@[simp] theorem exec_epochSignatureAppend (lane : Nat) : exec (.epochSignatureAppend lane) s = execEpochSignatureAppend lane s := rfl
@[simp] theorem exec_wagBarrier (id : Nat) : exec (.wagBarrier id) s = execWagBarrier id s := rfl
@[simp] theorem exec_wagBroadcast : exec (.wagBroadcast) s = execWagBroadcast s := rfl
@[simp] theorem exec_wagSnapshot : exec (.wagSnapshot) s = execWagSnapshot s := rfl
@[simp] theorem exec_wagReset (machine : Bool) : exec (.wagReset machine) s = execWagReset machine s := rfl
@[simp] theorem exec_wagEpArrive (comb id : Nat) : exec (.wagEpArrive comb id) s = execWagEpArrive comb id s := rfl
@[simp] theorem exec_barrierRelease : exec (.barrierRelease) s = execBarrierRelease s := rfl
@[simp] theorem exec_wagBarTimeoutExpiry : exec (.wagBarTimeoutExpiry) s = execWagBarTimeoutExpiry s := rfl
@[simp] theorem exec_wagOpComplete : exec (.wagOpComplete) s = execWagOpComplete s := rfl
@[simp] theorem exec_wagAckLimitExpiry (ep : Nat) : exec (.wagAckLimitExpiry ep) s = execWagAckLimitExpiry ep s := rfl
@[simp] theorem exec_ringInDoorbell (port lane ring value : Nat) : exec (.ringInDoorbell port lane ring value) s = execRingInDoorbell port lane ring value s := rfl
@[simp] theorem exec_ringCmpHeadWrite (port lane ring value : Nat) : exec (.ringCmpHeadWrite port lane ring value) s = execRingCmpHeadWrite port lane ring value s := rfl
@[simp] theorem exec_sealUnit (lane ctx : Nat) (bytes : List Byte) (ok : Bool) : exec (.sealUnit lane ctx bytes ok) s = execSealUnit lane ctx bytes ok s := rfl
@[simp] theorem exec_verifyElement (lane ctx : Nat) (bytes : List Byte) (ok : Bool) : exec (.verifyElement lane ctx bytes ok) s = execVerifyElement lane ctx bytes ok s := rfl
@[simp] theorem exec_unitSuspend (lane done : Nat) : exec (.unitSuspend lane done) s = execUnitSuspend lane done s := rfl
@[simp] theorem exec_verifyComplete (lane ctx : Nat) (data : List Byte) (ok : Bool) : exec (.verifyComplete lane ctx data ok) s = execVerifyComplete lane ctx data ok s := rfl
@[simp] theorem exec_unitResume (lane : Nat) (crcOk : Bool) : exec (.unitResume lane crcOk) s = execUnitResume lane crcOk s := rfl
@[simp] theorem exec_suspMaxExpiry (lane : Nat) : exec (.suspMaxExpiry lane) s = execSuspMaxExpiry lane s := rfl
@[simp] theorem exec_payloadFetchStart (lane : Nat) : exec (.payloadFetchStart lane) s = execPayloadFetchStart lane s := rfl
@[simp] theorem exec_payloadFetchDone (lane : Nat) (data : List Byte) (ok : Bool) : exec (.payloadFetchDone lane data ok) s = execPayloadFetchDone lane data ok s := rfl
@[simp] theorem exec_pcieCompletionTimeout (lane ctx : Nat) : exec (.pcieCompletionTimeout lane ctx) s = execPcieCompletionTimeout lane ctx s := rfl
@[simp] theorem exec_unitAccept (lane : Nat) : exec (.unitAccept lane) s = execUnitAccept lane s := rfl
@[simp] theorem exec_engineStart (lane : Nat) : exec (.engineStart lane) s = execEngineStart lane s := rfl
@[simp] theorem exec_segmentAppend (lane : Nat) : exec (.segmentAppend lane) s = execSegmentAppend lane s := rfl
@[simp] theorem exec_completionEntryPost (lane ring : Nat) : exec (.completionEntryPost lane ring) s = execCompletionEntryPost lane ring s := rfl
@[simp] theorem exec_outputWriteFault (lane ring : Nat) : exec (.outputWriteFault lane ring) s = execOutputWriteFault lane ring s := rfl
@[simp] theorem exec_coalTimeExpiry (lane ring : Nat) : exec (.coalTimeExpiry lane ring) s = execCoalTimeExpiry lane ring s := rfl
@[simp] theorem exec_arbAgeExpiry (lane : Nat) : exec (.arbAgeExpiry lane) s = execArbAgeExpiry lane s := rfl
@[simp] theorem exec_laneDrain (lane : Nat) : exec (.laneDrain lane) s = execLaneDrain lane s := rfl
@[simp] theorem exec_drainComplete (lane : Nat) : exec (.drainComplete lane) s = execDrainComplete lane s := rfl
@[simp] theorem exec_laneReset (lane : Nat) : exec (.laneReset lane) s = execLaneReset lane s := rfl
@[simp] theorem exec_combClkEnWrite (comb : Nat) (on : Bool) : exec (.combClkEnWrite comb on) s = execCombClkEnWrite comb on s := rfl
@[simp] theorem exec_storeSqDoorbell (tail : Nat) : exec (.storeSqDoorbell tail) s = execStoreSqDoorbell tail s := rfl
@[simp] theorem exec_storeRead (machine : Bool) : exec (.storeRead machine) s = execStoreRead machine s := rfl
@[simp] theorem exec_storeProgram (data : List Byte) (ok : Bool) : exec (.storeProgram data ok) s = execStoreProgram data ok s := rfl
@[simp] theorem exec_storeErase : exec (.storeErase) s = execStoreErase s := rfl
@[simp] theorem exec_storeAppend (data : List Byte) (ok : Bool) : exec (.storeAppend data ok) s = execStoreAppend data ok s := rfl
@[simp] theorem exec_storePin : exec (.storePin) s = execStorePin s := rfl
@[simp] theorem exec_storeUnpin : exec (.storeUnpin) s = execStoreUnpin s := rfl
@[simp] theorem exec_storeDescComplete (index : Nat) (bad : Option Nat) (hostOk : Bool) : exec (.storeDescComplete index bad hostOk) s = execStoreDescComplete index bad hostOk s := rfl
@[simp] theorem exec_storePageProgrammed (block page : Nat) (ok : Bool) : exec (.storePageProgrammed block page ok) s = execStorePageProgrammed block page ok s := rfl
@[simp] theorem exec_storeEraseDone (block : Nat) (ok : Bool) : exec (.storeEraseDone block ok) s = execStoreEraseDone block ok s := rfl
@[simp] theorem exec_containerWriterTake (n : Nat) : exec (.containerWriterTake n) s = execContainerWriterTake n s := rfl
@[simp] theorem exec_ringPreerase : exec (.ringPreerase) s = execRingPreerase s := rfl
@[simp] theorem exec_triggerHoldPlace : exec (.triggerHoldPlace) s = execTriggerHoldPlace s := rfl
@[simp] theorem exec_trigDebExpiry (line : Nat) : exec (.trigDebExpiry line) s = execTrigDebExpiry line s := rfl
@[simp] theorem exec_storTrigPopRead : exec (.storTrigPopRead) s = execStorTrigPopRead s := rfl
@[simp] theorem exec_journalPageProgrammed (ok : Bool) : exec (.journalPageProgrammed ok) s = execJournalPageProgrammed ok s := rfl
@[simp] theorem exec_stagingTrainDone (channels : Nat) (ok : Bool) : exec (.stagingTrainDone channels ok) s = execStagingTrainDone channels ok s := rfl
@[simp] theorem exec_stagingDrainDone : exec (.stagingDrainDone) s = execStagingDrainDone s := rfl
@[simp] theorem exec_mbxDoorbell (port slot len tag : Nat) : exec (.mbxDoorbell port slot len tag) s = execMbxDoorbell port slot len tag s := rfl
@[simp] theorem exec_mbxSlotAck (port slot : Nat) : exec (.mbxSlotAck port slot) s = execMbxSlotAck port slot s := rfl
@[simp] theorem exec_mbxCtrlLogout (port : Nat) : exec (.mbxCtrlLogout port) s = execMbxCtrlLogout port s := rfl
@[simp] theorem exec_mbxNtcHeadWrite (port value : Nat) : exec (.mbxNtcHeadWrite port value) s = execMbxNtcHeadWrite port value s := rfl
@[simp] theorem exec_udpHello (port : Nat) (bytes : List Byte) : exec (.udpHello port bytes) s = execUdpHello port bytes s := rfl
@[simp] theorem exec_udpProve (port : Nat) (bytes : List Byte) : exec (.udpProve port bytes) s = execUdpProve port bytes s := rfl
@[simp] theorem exec_udpRequest (port : Nat) (bytes : List Byte) : exec (.udpRequest port bytes) s = execUdpRequest port bytes s := rfl
@[simp] theorem exec_udpNoticeAck (port : Nat) (bytes : List Byte) : exec (.udpNoticeAck port bytes) s = execUdpNoticeAck port bytes s := rfl
@[simp] theorem exec_udpExportAck (port : Nat) (bytes : List Byte) : exec (.udpExportAck port bytes) s = execUdpExportAck port bytes s := rfl
@[simp] theorem exec_udpLogout (port : Nat) (bytes : List Byte) : exec (.udpLogout port bytes) s = execUdpLogout port bytes s := rfl
@[simp] theorem exec_ethReasmExpiry (port sess : Nat) : exec (.ethReasmExpiry port sess) s = execEthReasmExpiry port sess s := rfl
@[simp] theorem exec_ethRetxExpiry (port sess : Nat) : exec (.ethRetxExpiry port sess) s = execEthRetxExpiry port sess s := rfl
@[simp] theorem exec_challengeExpiry (port sess : Nat) : exec (.challengeExpiry port sess) s = execChallengeExpiry port sess s := rfl
@[simp] theorem exec_mbxLockoutExpiry (port : Nat) : exec (.mbxLockoutExpiry port) s = execMbxLockoutExpiry port s := rfl
@[simp] theorem exec_mbxIdleExpiry (port sess : Nat) : exec (.mbxIdleExpiry port sess) s = execMbxIdleExpiry port sess s := rfl
@[simp] theorem exec_pciePortReset (port : Nat) (down : Bool) (rate width : Nat) : exec (.pciePortReset port down rate width) s = execPciePortReset port down rate width s := rfl
@[simp] theorem exec_pcieD3hot (port : Nat) : exec (.pcieD3hot port) s = execPcieD3hot port s := rfl
@[simp] theorem exec_pcieD0Return (port : Nat) : exec (.pcieD0Return port) s = execPcieD0Return port s := rfl
@[simp] theorem exec_pcieL1Exit (port : Nat) : exec (.pcieL1Exit port) s = execPcieL1Exit port s := rfl
@[simp] theorem exec_pcieStandbyAccess (port len : Nat) (read : Bool) : exec (.pcieStandbyAccess port len read) s = execPcieStandbyAccess port len read s := rfl
@[simp] theorem exec_mgtWrite (addr : Nat) (data : List Byte) (held : Bool) : exec (.mgtWrite addr data held) s = execMgtWrite addr data held s := rfl
@[simp] theorem exec_mgtRead (addr len : Nat) (held : Bool) : exec (.mgtRead addr len held) s = execMgtRead addr len held s := rfl
@[simp] theorem exec_mgtStandbyWake (len : Nat) : exec (.mgtStandbyWake len) s = execMgtStandbyWake len s := rfl
@[simp] theorem exec_i2cSclLowExpiry : exec (.i2cSclLowExpiry) s = execI2cSclLowExpiry s := rfl
@[simp] theorem exec_getInfo (port slot : Nat) : exec (.getInfo port slot) s = execGetInfo port slot s := rfl
@[simp] theorem exec_authHello (port slot : Nat) : exec (.authHello port slot) s = execAuthHello port slot s := rfl
@[simp] theorem exec_authProve (port slot : Nat) : exec (.authProve port slot) s = execAuthProve port slot s := rfl
@[simp] theorem exec_logout (port slot : Nat) : exec (.logout port slot) s = execLogout port slot s := rfl
@[simp] theorem exec_bufWrite (port slot : Nat) : exec (.bufWrite port slot) s = execBufWrite port slot s := rfl
@[simp] theorem exec_bufRead (port slot : Nat) : exec (.bufRead port slot) s = execBufRead port slot s := rfl
@[simp] theorem exec_noticeSubscribe (port slot : Nat) : exec (.noticeSubscribe port slot) s = execNoticeSubscribe port slot s := rfl
@[simp] theorem exec_setMode (port slot : Nat) : exec (.setMode port slot) s = execSetMode port slot s := rfl
@[simp] theorem exec_shutdown (port slot : Nat) : exec (.shutdown port slot) s = execShutdown port slot s := rfl
@[simp] theorem exec_recovery (port slot : Nat) : exec (.recovery port slot) s = execRecovery port slot s := rfl
@[simp] theorem exec_rngRead (port slot : Nat) : exec (.rngRead port slot) s = execRngRead port slot s := rfl
@[simp] theorem exec_streamOpen (port slot : Nat) (preparing : Bool) : exec (.streamOpen port slot preparing) s = execStreamOpen port slot preparing s := rfl
@[simp] theorem exec_streamClose (port slot : Nat) : exec (.streamClose port slot) s = execStreamClose port slot s := rfl
@[simp] theorem exec_verifyOpen (port slot : Nat) : exec (.verifyOpen port slot) s = execVerifyOpen port slot s := rfl
@[simp] theorem exec_verifyClose (port slot : Nat) : exec (.verifyClose port slot) s = execVerifyClose port slot s := rfl
@[simp] theorem exec_verifyReanchor (port slot : Nat) : exec (.verifyReanchor port slot) s = execVerifyReanchor port slot s := rfl
@[simp] theorem exec_ringRetarget (port slot : Nat) (readBack : Nat) : exec (.ringRetarget port slot readBack) s = execRingRetarget port slot readBack s := rfl
@[simp] theorem exec_streamStatus (port slot : Nat) : exec (.streamStatus port slot) s = execStreamStatus port slot s := rfl
@[simp] theorem exec_hiveDemand (port slot : Nat) : exec (.hiveDemand port slot) s = execHiveDemand port slot s := rfl
@[simp] theorem exec_hiveAt (port slot : Nat) : exec (.hiveAt port slot) s = execHiveAt port slot s := rfl
@[simp] theorem exec_hivePeriods (port slot : Nat) : exec (.hivePeriods port slot) s = execHivePeriods port slot s := rfl
@[simp] theorem exec_hiveGet (port slot : Nat) : exec (.hiveGet port slot) s = execHiveGet port slot s := rfl
@[simp] theorem exec_holdPlace (port slot : Nat) : exec (.holdPlace port slot) s = execHoldPlace port slot s := rfl
@[simp] theorem exec_holdRelease (port slot : Nat) : exec (.holdRelease port slot) s = execHoldRelease port slot s := rfl
@[simp] theorem exec_holdList (port slot : Nat) : exec (.holdList port slot) s = execHoldList port slot s := rfl
@[simp] theorem exec_storeExport (port slot : Nat) : exec (.storeExport port slot) s = execStoreExport port slot s := rfl
@[simp] theorem exec_storeInfo (port slot : Nat) : exec (.storeInfo port slot) s = execStoreInfo port slot s := rfl
@[simp] theorem exec_timeGet (port slot : Nat) : exec (.timeGet port slot) s = execTimeGet port slot s := rfl
@[simp] theorem exec_timeSet (port slot : Nat) : exec (.timeSet port slot) s = execTimeSet port slot s := rfl
@[simp] theorem exec_timeLabel (port slot : Nat) : exec (.timeLabel port slot) s = execTimeLabel port slot s := rfl
@[simp] theorem exec_timeAlarm (port slot : Nat) : exec (.timeAlarm port slot) s = execTimeAlarm port slot s := rfl
@[simp] theorem exec_identityGet (port slot : Nat) : exec (.identityGet port slot) s = execIdentityGet port slot s := rfl
@[simp] theorem exec_keyDeliver (port slot : Nat) : exec (.keyDeliver port slot) s = execKeyDeliver port slot s := rfl
@[simp] theorem exec_keyStatement (port slot : Nat) : exec (.keyStatement port slot) s = execKeyStatement port slot s := rfl
@[simp] theorem exec_keyInfo (port slot : Nat) : exec (.keyInfo port slot) s = execKeyInfo port slot s := rfl
@[simp] theorem exec_logRead (port slot : Nat) : exec (.logRead port slot) s = execLogRead port slot s := rfl
@[simp] theorem exec_logFreeze (port slot : Nat) : exec (.logFreeze port slot) s = execLogFreeze port slot s := rfl
@[simp] theorem exec_logUnfreeze (port slot : Nat) : exec (.logUnfreeze port slot) s = execLogUnfreeze port slot s := rfl
@[simp] theorem exec_logClear (port slot : Nat) : exec (.logClear port slot) s = execLogClear port slot s := rfl
@[simp] theorem exec_lcGet (port slot : Nat) : exec (.lcGet port slot) s = execLcGet port slot s := rfl
@[simp] theorem exec_lcTransition (port slot : Nat) : exec (.lcTransition port slot) s = execLcTransition port slot s := rfl
@[simp] theorem exec_debugChallenge (port slot : Nat) : exec (.debugChallenge port slot) s = execDebugChallenge port slot s := rfl
@[simp] theorem exec_debugUnlock (port slot : Nat) : exec (.debugUnlock port slot) s = execDebugUnlock port slot s := rfl
@[simp] theorem exec_debugLock (port slot : Nat) : exec (.debugLock port slot) s = execDebugLock port slot s := rfl
@[simp] theorem exec_fieldStatus (port slot : Nat) : exec (.fieldStatus port slot) s = execFieldStatus port slot s := rfl
@[simp] theorem exec_fieldPageUpdate (port slot : Nat) : exec (.fieldPageUpdate port slot) s = execFieldPageUpdate port slot s := rfl
@[simp] theorem exec_fieldInventory (port slot : Nat) (replies : List (List Bool × Bool)) : exec (.fieldInventory port slot replies) s = execFieldInventory port slot replies s := rfl
@[simp] theorem exec_fieldPair (port slot : Nat) (sel : Option (List Byte)) (auth : List Byte) (prove pair rssi : Nat) : exec (.fieldPair port slot sel auth prove pair rssi) s = execFieldPair port slot sel auth prove pair rssi s := rfl
@[simp] theorem exec_extLoad (port slot : Nat) : exec (.extLoad port slot) s = execExtLoad port slot s := rfl
@[simp] theorem exec_extStart (port slot : Nat) : exec (.extStart port slot) s = execExtStart port slot s := rfl
@[simp] theorem exec_extStop (port slot : Nat) : exec (.extStop port slot) s = execExtStop port slot s := rfl
@[simp] theorem exec_extStatus (port slot : Nat) : exec (.extStatus port slot) s = execExtStatus port slot s := rfl
@[simp] theorem exec_fwStage (port slot : Nat) : exec (.fwStage port slot) s = execFwStage port slot s := rfl
@[simp] theorem exec_fwActivate (port slot : Nat) : exec (.fwActivate port slot) s = execFwActivate port slot s := rfl
@[simp] theorem exec_setRead (port slot : Nat) : exec (.setRead port slot) s = execSetRead port slot s := rfl
@[simp] theorem exec_setWrite (port slot : Nat) : exec (.setWrite port slot) s = execSetWrite port slot s := rfl
@[simp] theorem exec_setCommit (port slot : Nat) : exec (.setCommit port slot) s = execSetCommit port slot s := rfl
@[simp] theorem exec_setDiscard (port slot : Nat) : exec (.setDiscard port slot) s = execSetDiscard port slot s := rfl
@[simp] theorem exec_fieldPageCommitExpiry : exec (.fieldPageCommitExpiry) s = execFieldPageCommitExpiry s := rfl
@[simp] theorem exec_fieldInventoryDurationExpiry : exec (.fieldInventoryDurationExpiry) s = execFieldInventoryDurationExpiry s := rfl
@[simp] theorem exec_pkSqDoorbell (sub tail : Nat) : exec (.pkSqDoorbell sub tail) s = execPkSqDoorbell sub tail s := rfl
@[simp] theorem exec_falconSign (tile : Nat) : exec (.falconSign tile) s = execFalconSign tile s := rfl
@[simp] theorem exec_falconVerify (tile : Nat) : exec (.falconVerify tile) s = execFalconVerify tile s := rfl
@[simp] theorem exec_falconKeygen (tile : Nat) : exec (.falconKeygen tile) s = execFalconKeygen tile s := rfl
@[simp] theorem exec_mlkemKeygen (tile : Nat) : exec (.mlkemKeygen tile) s = execMlkemKeygen tile s := rfl
@[simp] theorem exec_mlkemEncaps (tile : Nat) : exec (.mlkemEncaps tile) s = execMlkemEncaps tile s := rfl
@[simp] theorem exec_mlkemDecaps (tile : Nat) : exec (.mlkemDecaps tile) s = execMlkemDecaps tile s := rfl
@[simp] theorem exec_ecdsaP384Sign (tile : Nat) : exec (.ecdsaP384Sign tile) s = execEcdsaP384Sign tile s := rfl
@[simp] theorem exec_ecdsaP384Verify (tile : Nat) : exec (.ecdsaP384Verify tile) s = execEcdsaP384Verify tile s := rfl
@[simp] theorem exec_p384Keygen (tile : Nat) : exec (.p384Keygen tile) s = execP384Keygen tile s := rfl
@[simp] theorem exec_ecdhP384 (tile : Nat) : exec (.ecdhP384 tile) s = execEcdhP384 tile s := rfl
@[simp] theorem exec_x25519 (tile : Nat) : exec (.x25519 tile) s = execX25519 tile s := rfl
@[simp] theorem exec_x25519Keygen (tile : Nat) : exec (.x25519Keygen tile) s = execX25519Keygen tile s := rfl
@[simp] theorem exec_rsaVerify (tile : Nat) : exec (.rsaVerify tile) s = execRsaVerify tile s := rfl
@[simp] theorem exec_tileYieldPoint (tile : Nat) : exec (.tileYieldPoint tile) s = execTileYieldPoint tile s := rfl
@[simp] theorem exec_tileJobComplete (tile fault : Nat) : exec (.tileJobComplete tile fault) s = execTileJobComplete tile fault s := rfl
@[simp] theorem exec_pkAbort (sub tag : Nat) : exec (.pkAbort sub tag) s = execPkAbort sub tag s := rfl
@[simp] theorem exec_pkTileEnWrite (en : Nat) : exec (.pkTileEnWrite en) s = execPkTileEnWrite en s := rfl
@[simp] theorem exec_keyOpGenerate (who : Nat) (resv : Bool) : exec (.keyOpGenerate who resv) s = execKeyOpGenerate who resv s := rfl
@[simp] theorem exec_keyOpDerive (who flavour : Nat) (kek resv : Bool) : exec (.keyOpDerive who flavour kek resv) s = execKeyOpDerive who flavour kek resv s := rfl
@[simp] theorem exec_keyOpWrap (who : Nat) (resv : Bool) : exec (.keyOpWrap who resv) s = execKeyOpWrap who resv s := rfl
@[simp] theorem exec_keyOpUnwrap (who : Nat) (resv : Bool) : exec (.keyOpUnwrap who resv) s = execKeyOpUnwrap who resv s := rfl
@[simp] theorem exec_keyOpOpenDst (who : Nat) (resv : Bool) : exec (.keyOpOpenDst who resv) s = execKeyOpOpenDst who resv s := rfl
@[simp] theorem exec_keyOpClear (who : Nat) (resv : Bool) : exec (.keyOpClear who resv) s = execKeyOpClear who resv s := rfl
@[simp] theorem exec_keyOpLoadLane (who : Nat) (resv : Bool) : exec (.keyOpLoadLane who resv) s = execKeyOpLoadLane who resv s := rfl
@[simp] theorem exec_keyOpInfo (who : Nat) (resv : Bool) : exec (.keyOpInfo who resv) s = execKeyOpInfo who resv s := rfl
@[simp] theorem exec_keyLogRecordWritten (ok : Bool) : exec (.keyLogRecordWritten ok) s = execKeyLogRecordWritten ok s := rfl
@[simp] theorem exec_kekPrepare (ok : Bool) : exec (.kekPrepare ok) s = execKekPrepare ok s := rfl
@[simp] theorem exec_keyEpochBoundary : exec (.keyEpochBoundary) s = execKeyEpochBoundary s := rfl
@[simp] theorem exec_noiseHealthFail (source : Bool) (test : Nat) : exec (.noiseHealthFail source test) s = execNoiseHealthFail source test s := rfl
@[simp] theorem exec_sourceStartupTestDone (source ok : Bool) : exec (.sourceStartupTestDone source ok) s = execSourceStartupTestDone source ok s := rfl
@[simp] theorem exec_conditionerBlock : exec (.conditionerBlock) s = execConditionerBlock s := rfl
@[simp] theorem exec_rngRetestA : exec (.rngRetestA) s = execRngRetestA s := rfl
@[simp] theorem exec_rngRetestB : exec (.rngRetestB) s = execRngRetestB s := rfl
@[simp] theorem exec_rngKat (bad : Nat) : exec (.rngKat bad) s = execRngKat bad s := rfl
@[simp] theorem exec_rngIctrlReseed (inst : Nat) : exec (.rngIctrlReseed inst) s = execRngIctrlReseed inst s := rfl
@[simp] theorem exec_rngIctrlReinst (inst : Nat) : exec (.rngIctrlReinst inst) s = execRngIctrlReinst inst s := rfl
@[simp] theorem exec_reseedIntervalReached (inst : Nat) : exec (.reseedIntervalReached inst) s = execReseedIntervalReached inst s := rfl
@[simp] theorem exec_hostFillWindowExpiry : exec (.hostFillWindowExpiry) s = execHostFillWindowExpiry s := rfl
@[simp] theorem exec_sensorDetectorFire (cls det site : Nat) (level : Option Bool) : exec (.sensorDetectorFire cls det site level) s = execSensorDetectorFire cls det site level s := rfl
@[simp] theorem exec_corroborationWindowExpiry : exec (.corroborationWindowExpiry) s = execCorroborationWindowExpiry s := rfl
@[simp] theorem exec_filterWindowExpiry (cls : Nat) : exec (.filterWindowExpiry cls) s = execFilterWindowExpiry cls s := rfl
@[simp] theorem exec_encDebExpiry (input : Nat) : exec (.encDebExpiry input) s = execEncDebExpiry input s := rfl
@[simp] theorem exec_tecIncrement : exec (.tecIncrement) s = execTecIncrement s := rfl
@[simp] theorem exec_tamperedEntryProgram (ok : Bool) : exec (.tamperedEntryProgram ok) s = execTamperedEntryProgram ok s := rfl
@[simp] theorem exec_tmpCfgCommit : exec (.tmpCfgCommit) s = execTmpCfgCommit s := rfl
@[simp] theorem exec_tmpInject (cls det : Nat) : exec (.tmpInject cls det) s = execTmpInject cls det s := rfl
@[simp] theorem exec_logFlushExpiry : exec (.logFlushExpiry) s = execLogFlushExpiry s := rfl
@[simp] theorem exec_logPageProgrammed (ok : Bool) : exec (.logPageProgrammed ok) s = execLogPageProgrammed ok s := rfl
@[simp] theorem exec_logBlockEraseDone : exec (.logBlockEraseDone) s = execLogBlockEraseDone s := rfl
@[simp] theorem exec_logSwGo (typ : Nat) : exec (.logSwGo typ) s = execLogSwGo typ s := rfl
@[simp] theorem exec_lcEntryProgrammed (ok : Bool) : exec (.lcEntryProgrammed ok) s = execLcEntryProgrammed ok s := rfl
@[simp] theorem exec_retireStoreErase : exec (.retireStoreErase) s = execRetireStoreErase s := rfl
@[simp] theorem exec_dbgCtrlLock : exec (.dbgCtrlLock) s = execDbgCtrlLock s := rfl
@[simp] theorem exec_dbgCtrlLcProvision : exec (.dbgCtrlLcProvision) s = execDbgCtrlLcProvision s := rfl
@[simp] theorem exec_dbgCtrlLcRetire : exec (.dbgCtrlLcRetire) s = execDbgCtrlLcRetire s := rfl
@[simp] theorem exec_dbgCoreHalt (mask : Nat) : exec (.dbgCoreHalt mask) s = execDbgCoreHalt mask s := rfl
@[simp] theorem exec_dbgCoreResume : exec (.dbgCoreResume) s = execDbgCoreResume s := rfl
@[simp] theorem exec_dbgCoreStep : exec (.dbgCoreStep) s = execDbgCoreStep s := rfl
@[simp] theorem exec_unlockWindowExpiry : exec (.unlockWindowExpiry) s = execUnlockWindowExpiry s := rfl
@[simp] theorem exec_debugChallengeExpiry : exec (.debugChallengeExpiry) s = execDebugChallengeExpiry s := rfl
@[simp] theorem exec_tapExtest : exec (.tapExtest) s = execTapExtest s := rfl
@[simp] theorem exec_tapSamplePreload (cells : Nat) : exec (.tapSamplePreload cells) s = execTapSamplePreload cells s := rfl
@[simp] theorem exec_tapIdcode : exec (.tapIdcode) s = execTapIdcode s := rfl
@[simp] theorem exec_tapClamp : exec (.tapClamp) s = execTapClamp s := rfl
@[simp] theorem exec_tapHighz : exec (.tapHighz) s = execTapHighz s := rfl
@[simp] theorem exec_tapDbgAccess (wr : Bool) (space core addr : Nat) (value : BitVec 48) : exec (.tapDbgAccess wr space core addr value) s = execTapDbgAccess wr space core addr value s := rfl
@[simp] theorem exec_tapBypass : exec (.tapBypass) s = execTapBypass s := rfl
@[simp] theorem exec_cflSqDoorbell (tail : Nat) : exec (.cflSqDoorbell tail) s = execCflSqDoorbell tail s := rfl
@[simp] theorem exec_cflRead : exec (.cflRead) s = execCflRead s := rfl
@[simp] theorem exec_cflProgram : exec (.cflProgram) s = execCflProgram s := rfl
@[simp] theorem exec_cflErase : exec (.cflErase) s = execCflErase s := rfl
@[simp] theorem exec_cflActivate : exec (.cflActivate) s = execCflActivate s := rfl
@[simp] theorem exec_cflRdp : exec (.cflRdp) s = execCflRdp s := rfl
@[simp] theorem exec_cflRowProgrammed (bank : Nat) (ok : Bool) : exec (.cflRowProgrammed bank ok) s = execCflRowProgrammed bank ok s := rfl
@[simp] theorem exec_cflEraseDone (bank : Nat) (ok : Bool) : exec (.cflEraseDone bank ok) s = execCflEraseDone bank ok s := rfl
@[simp] theorem exec_cflEraseResumeExpiry (bank : Nat) : exec (.cflEraseResumeExpiry bank) s = execCflEraseResumeExpiry bank s := rfl
@[simp] theorem exec_cflFctrlWrite (pf bc : Bool) : exec (.cflFctrlWrite pf bc) s = execCflFctrlWrite pf bc s := rfl
@[simp] theorem exec_fieldCarrierRise : exec (.fieldCarrierRise) s = execFieldCarrierRise s := rfl
@[simp] theorem exec_carrierAbsenceExpiry : exec (.carrierAbsenceExpiry) s = execCarrierAbsenceExpiry s := rfl
@[simp] theorem exec_fldBegin (crcOk : Bool) : exec (.fldBegin crcOk) s = execFldBegin crcOk s := rfl
@[simp] theorem exec_fldWalk (plen pre : Nat) (crcOk : Bool) : exec (.fldWalk plen pre crcOk) s = execFldWalk plen pre crcOk s := rfl
@[simp] theorem exec_fldSelect (id : Nat) (crcOk : Bool) : exec (.fldSelect id crcOk) s = execFldSelect id crcOk s := rfl
@[simp] theorem exec_fldReshuffle (id : Nat) (crcOk : Bool) : exec (.fldReshuffle id crcOk) s = execFldReshuffle id crcOk s := rfl
@[simp] theorem exec_fldSilence (id : Nat) (crcOk : Bool) : exec (.fldSilence id crcOk) s = execFldSilence id crcOk s := rfl
@[simp] theorem exec_fldAuth (keyId : Nat) (rr : List Byte) (crcOk : Bool) : exec (.fldAuth keyId rr crcOk) s = execFldAuth keyId rr crcOk s := rfl
@[simp] theorem exec_fldProve (mr : List Byte) (crcOk : Bool) : exec (.fldProve mr crcOk) s = execFldProve mr crcOk s := rfl
@[simp] theorem exec_fldRead (block : Nat) (crcOk : Bool) : exec (.fldRead block crcOk) s = execFldRead block crcOk s := rfl
@[simp] theorem exec_fldEnd (crcOk : Bool) : exec (.fldEnd crcOk) s = execFldEnd crcOk s := rfl
@[simp] theorem exec_fldPair (crcOk : Bool) : exec (.fldPair crcOk) s = execFldPair crcOk s := rfl
@[simp] theorem exec_sessionInactivityExpiry : exec (.sessionInactivityExpiry) s = execSessionInactivityExpiry s := rfl
@[simp] theorem exec_authWindowExpiry : exec (.authWindowExpiry) s = execAuthWindowExpiry s := rfl
@[simp] theorem exec_fieldLockoutExpiry : exec (.fieldLockoutExpiry) s = execFieldLockoutExpiry s := rfl
@[simp] theorem exec_readerReplyWindowExpiry (replies : List (List Bool × Bool)) : exec (.readerReplyWindowExpiry replies) s = execReaderReplyWindowExpiry replies s := rfl
@[simp] theorem exec_fldWrPage : exec (.fldWrPage) s = execFldWrPage s := rfl
@[simp] theorem exec_fldWrPool : exec (.fldWrPool) s = execFldWrPool s := rfl
@[simp] theorem exec_fieldPageCommit (ok : Bool) : exec (.fieldPageCommit ok) s = execFieldPageCommit ok s := rfl
@[simp] theorem exec_fldKeyLoad (slot keyId entry : Nat) : exec (.fldKeyLoad slot keyId entry) s = execFldKeyLoad slot keyId entry s := rfl
@[simp] theorem exec_fldKeyClear (slot keyId entry : Nat) : exec (.fldKeyClear slot keyId entry) s = execFldKeyClear slot keyId entry s := rfl
@[simp] theorem exec_fldReaderEnable (on : Bool) : exec (.fldReaderEnable on) s = execFldReaderEnable on s := rfl
@[simp] theorem exec_mpuCtrlEnWrite (core : Nat) (value : BitVec 32) : exec (.mpuCtrlEnWrite core value) s = execMpuCtrlEnWrite core value s := rfl
@[simp] theorem exec_mpuUpdateSettle (core : Nat) : exec (.mpuUpdateSettle core) s = execMpuUpdateSettle core s := rfl
@[simp] theorem exec_asyncEventTaken (core : Nat) : exec (.asyncEventTaken core) s = execAsyncEventTaken core s := rfl
@[simp] theorem exec_registerWrite (who bar addr width : Nat) (machine : Bool) (value : BitVec 32) : exec (.registerWrite who bar addr width machine value) s = execRegisterWrite who bar addr width machine value s := rfl
@[simp] theorem exec_cpuAdd (u : Issue) (f : FormR) : exec (.cpuAdd u f) s = execCpuAdd u f s := rfl
@[simp] theorem exec_cpuSub (u : Issue) (f : FormR) : exec (.cpuSub u f) s = execCpuSub u f s := rfl
@[simp] theorem exec_cpuAddv (u : Issue) (f : FormR) : exec (.cpuAddv u f) s = execCpuAddv u f s := rfl
@[simp] theorem exec_cpuSubv (u : Issue) (f : FormR) : exec (.cpuSubv u f) s = execCpuSubv u f s := rfl
@[simp] theorem exec_cpuAnd (u : Issue) (f : FormR) : exec (.cpuAnd u f) s = execCpuAnd u f s := rfl
@[simp] theorem exec_cpuOr (u : Issue) (f : FormR) : exec (.cpuOr u f) s = execCpuOr u f s := rfl
@[simp] theorem exec_cpuXor (u : Issue) (f : FormR) : exec (.cpuXor u f) s = execCpuXor u f s := rfl
@[simp] theorem exec_cpuAndn (u : Issue) (f : FormR) : exec (.cpuAndn u f) s = execCpuAndn u f s := rfl
@[simp] theorem exec_cpuShl (u : Issue) (f : FormR) : exec (.cpuShl u f) s = execCpuShl u f s := rfl
@[simp] theorem exec_cpuShr (u : Issue) (f : FormR) : exec (.cpuShr u f) s = execCpuShr u f s := rfl
@[simp] theorem exec_cpuSar (u : Issue) (f : FormR) : exec (.cpuSar u f) s = execCpuSar u f s := rfl
@[simp] theorem exec_cpuRol (u : Issue) (f : FormR) : exec (.cpuRol u f) s = execCpuRol u f s := rfl
@[simp] theorem exec_cpuSlt (u : Issue) (f : FormR) : exec (.cpuSlt u f) s = execCpuSlt u f s := rfl
@[simp] theorem exec_cpuSltu (u : Issue) (f : FormR) : exec (.cpuSltu u f) s = execCpuSltu u f s := rfl
@[simp] theorem exec_cpuMin (u : Issue) (f : FormR) : exec (.cpuMin u f) s = execCpuMin u f s := rfl
@[simp] theorem exec_cpuMax (u : Issue) (f : FormR) : exec (.cpuMax u f) s = execCpuMax u f s := rfl
@[simp] theorem exec_cpuMinu (u : Issue) (f : FormR) : exec (.cpuMinu u f) s = execCpuMinu u f s := rfl
@[simp] theorem exec_cpuMaxu (u : Issue) (f : FormR) : exec (.cpuMaxu u f) s = execCpuMaxu u f s := rfl
@[simp] theorem exec_cpuMul (u : Issue) (f : FormR) : exec (.cpuMul u f) s = execCpuMul u f s := rfl
@[simp] theorem exec_cpuMulh (u : Issue) (f : FormR) : exec (.cpuMulh u f) s = execCpuMulh u f s := rfl
@[simp] theorem exec_cpuMulhu (u : Issue) (f : FormR) : exec (.cpuMulhu u f) s = execCpuMulhu u f s := rfl
@[simp] theorem exec_cpuDiv (u : Issue) (f : FormR) : exec (.cpuDiv u f) s = execCpuDiv u f s := rfl
@[simp] theorem exec_cpuDivu (u : Issue) (f : FormR) : exec (.cpuDivu u f) s = execCpuDivu u f s := rfl
@[simp] theorem exec_cpuRem (u : Issue) (f : FormR) : exec (.cpuRem u f) s = execCpuRem u f s := rfl
@[simp] theorem exec_cpuRemu (u : Issue) (f : FormR) : exec (.cpuRemu u f) s = execCpuRemu u f s := rfl
@[simp] theorem exec_cpuClz (u : Issue) (f : FormR) : exec (.cpuClz u f) s = execCpuClz u f s := rfl
@[simp] theorem exec_cpuPopc (u : Issue) (f : FormR) : exec (.cpuPopc u f) s = execCpuPopc u f s := rfl
@[simp] theorem exec_cpuAbs (u : Issue) (f : FormR) : exec (.cpuAbs u f) s = execCpuAbs u f s := rfl
@[simp] theorem exec_cpuExtb (u : Issue) (f : FormR) : exec (.cpuExtb u f) s = execCpuExtb u f s := rfl
@[simp] theorem exec_cpuInsb (u : Issue) (f : FormR) : exec (.cpuInsb u f) s = execCpuInsb u f s := rfl
@[simp] theorem exec_cpuAddi (u : Issue) (f : FormI) : exec (.cpuAddi u f) s = execCpuAddi u f s := rfl
@[simp] theorem exec_cpuAndi (u : Issue) (f : FormI) : exec (.cpuAndi u f) s = execCpuAndi u f s := rfl
@[simp] theorem exec_cpuOri (u : Issue) (f : FormI) : exec (.cpuOri u f) s = execCpuOri u f s := rfl
@[simp] theorem exec_cpuXori (u : Issue) (f : FormI) : exec (.cpuXori u f) s = execCpuXori u f s := rfl
@[simp] theorem exec_cpuSlti (u : Issue) (f : FormI) : exec (.cpuSlti u f) s = execCpuSlti u f s := rfl
@[simp] theorem exec_cpuSltiu (u : Issue) (f : FormI) : exec (.cpuSltiu u f) s = execCpuSltiu u f s := rfl
@[simp] theorem exec_cpuShli (u : Issue) (f : FormI) : exec (.cpuShli u f) s = execCpuShli u f s := rfl
@[simp] theorem exec_cpuShri (u : Issue) (f : FormI) : exec (.cpuShri u f) s = execCpuShri u f s := rfl
@[simp] theorem exec_cpuSari (u : Issue) (f : FormI) : exec (.cpuSari u f) s = execCpuSari u f s := rfl
@[simp] theorem exec_cpuLi (u : Issue) (f : FormL) : exec (.cpuLi u f) s = execCpuLi u f s := rfl
@[simp] theorem exec_cpuLih (u : Issue) (f : FormL) : exec (.cpuLih u f) s = execCpuLih u f s := rfl
@[simp] theorem exec_cpuLia (u : Issue) (f : FormL) : exec (.cpuLia u f) s = execCpuLia u f s := rfl
@[simp] theorem exec_cpuMova (u : Issue) (f : FormR) : exec (.cpuMova u f) s = execCpuMova u f s := rfl
@[simp] theorem exec_cpuMovd (u : Issue) (f : FormR) : exec (.cpuMovd u f) s = execCpuMovd u f s := rfl
@[simp] theorem exec_cpuAdda (u : Issue) (f : FormR) : exec (.cpuAdda u f) s = execCpuAdda u f s := rfl
@[simp] theorem exec_cpuSuba (u : Issue) (f : FormR) : exec (.cpuSuba u f) s = execCpuSuba u f s := rfl
@[simp] theorem exec_cpuAddai (u : Issue) (f : FormI) : exec (.cpuAddai u f) s = execCpuAddai u f s := rfl
@[simp] theorem exec_cpuMac (u : Issue) (f : FormR) : exec (.cpuMac u f) s = execCpuMac u f s := rfl
@[simp] theorem exec_cpuMsu (u : Issue) (f : FormR) : exec (.cpuMsu u f) s = execCpuMsu u f s := rfl
@[simp] theorem exec_cpuMacu (u : Issue) (f : FormR) : exec (.cpuMacu u f) s = execCpuMacu u f s := rfl
@[simp] theorem exec_cpuMpy (u : Issue) (f : FormR) : exec (.cpuMpy u f) s = execCpuMpy u f s := rfl
@[simp] theorem exec_cpuClrac (u : Issue) (f : FormR) : exec (.cpuClrac u f) s = execCpuClrac u f s := rfl
@[simp] theorem exec_cpuShac (u : Issue) (f : FormR) : exec (.cpuShac u f) s = execCpuShac u f s := rfl
@[simp] theorem exec_cpuExtac (u : Issue) (f : FormR) : exec (.cpuExtac u f) s = execCpuExtac u f s := rfl
@[simp] theorem exec_cpuExtacv (u : Issue) (f : FormR) : exec (.cpuExtacv u f) s = execCpuExtacv u f s := rfl
@[simp] theorem exec_cpuLdacl (u : Issue) (f : FormR) : exec (.cpuLdacl u f) s = execCpuLdacl u f s := rfl
@[simp] theorem exec_cpuLdacm (u : Issue) (f : FormR) : exec (.cpuLdacm u f) s = execCpuLdacm u f s := rfl
@[simp] theorem exec_cpuLdach (u : Issue) (f : FormR) : exec (.cpuLdach u f) s = execCpuLdach u f s := rfl
@[simp] theorem exec_cpuMfacl (u : Issue) (f : FormR) : exec (.cpuMfacl u f) s = execCpuMfacl u f s := rfl
@[simp] theorem exec_cpuMfacm (u : Issue) (f : FormR) : exec (.cpuMfacm u f) s = execCpuMfacm u f s := rfl
@[simp] theorem exec_cpuMfach (u : Issue) (f : FormR) : exec (.cpuMfach u f) s = execCpuMfach u f s := rfl
@[simp] theorem exec_cpuLd (u : Issue) (f : FormM) : exec (.cpuLd u f) s = execCpuLd u f s := rfl
@[simp] theorem exec_cpuSt (u : Issue) (f : FormM) : exec (.cpuSt u f) s = execCpuSt u f s := rfl
@[simp] theorem exec_cpuLda (u : Issue) (f : FormM) : exec (.cpuLda u f) s = execCpuLda u f s := rfl
@[simp] theorem exec_cpuSta (u : Issue) (f : FormM) : exec (.cpuSta u f) s = execCpuSta u f s := rfl
@[simp] theorem exec_cpuIn (u : Issue) (f : FormM) : exec (.cpuIn u f) s = execCpuIn u f s := rfl
@[simp] theorem exec_cpuOut (u : Issue) (f : FormM) : exec (.cpuOut u f) s = execCpuOut u f s := rfl
@[simp] theorem exec_cpuIld (u : Issue) (f : FormM) : exec (.cpuIld u f) s = execCpuIld u f s := rfl
@[simp] theorem exec_cpuIst (u : Issue) (f : FormM) : exec (.cpuIst u f) s = execCpuIst u f s := rfl
@[simp] theorem exec_cpuBcc (u : Issue) (f : FormB) : exec (.cpuBcc u f) s = execCpuBcc u f s := rfl
@[simp] theorem exec_cpuJ (u : Issue) (f : FormJ) : exec (.cpuJ u f) s = execCpuJ u f s := rfl
@[simp] theorem exec_cpuCall (u : Issue) (f : FormJ) : exec (.cpuCall u f) s = execCpuCall u f s := rfl
@[simp] theorem exec_cpuJr (u : Issue) (f : FormR) : exec (.cpuJr u f) s = execCpuJr u f s := rfl
@[simp] theorem exec_cpuCallr (u : Issue) (f : FormR) : exec (.cpuCallr u f) s = execCpuCallr u f s := rfl
@[simp] theorem exec_cpuLoop (u : Issue) (f : FormP) : exec (.cpuLoop u f) s = execCpuLoop u f s := rfl
@[simp] theorem exec_cpuNop (u : Issue) (f : FormS) : exec (.cpuNop u f) s = execCpuNop u f s := rfl
@[simp] theorem exec_cpuTrap (u : Issue) (f : FormS) : exec (.cpuTrap u f) s = execCpuTrap u f s := rfl
@[simp] theorem exec_cpuBrk (u : Issue) (f : FormS) : exec (.cpuBrk u f) s = execCpuBrk u f s := rfl
@[simp] theorem exec_cpuWait (u : Issue) (f : FormS) : exec (.cpuWait u f) s = execCpuWait u f s := rfl
@[simp] theorem exec_cpuFence (u : Issue) (f : FormS) : exec (.cpuFence u f) s = execCpuFence u f s := rfl
@[simp] theorem exec_cpuSynci (u : Issue) (f : FormS) : exec (.cpuSynci u f) s = execCpuSynci u f s := rfl
@[simp] theorem exec_cpuMfs (u : Issue) (f : FormS) : exec (.cpuMfs u f) s = execCpuMfs u f s := rfl
@[simp] theorem exec_cpuMts (u : Issue) (f : FormS) : exec (.cpuMts u f) s = execCpuMts u f s := rfl
@[simp] theorem exec_cpuRete (u : Issue) (f : FormS) : exec (.cpuRete u f) s = execCpuRete u f s := rfl
@[simp] theorem exec_ethLinkDown (port : Nat) : exec (.ethLinkDown port) s = execEthLinkDown port s := rfl
@[simp] theorem exec_arpNdpIcmpEcho (port kind : Nat) (body : List Byte) : exec (.arpNdpIcmpEcho port kind body) s = execArpNdpIcmpEcho port kind body s := rfl
@[simp] theorem exec_slewComplete : exec (.slewComplete) s = execSlewComplete s := rfl
@[simp] theorem exec_errorBoundGrowth : exec (.errorBoundGrowth) s = execErrorBoundGrowth s := rfl
@[simp] theorem exec_aonPowerReturn (cell : Bool) : exec (.aonPowerReturn cell) s = execAonPowerReturn cell s := rfl
@[simp] theorem exec_gcmTagFormed (lane : Nat) : exec (.gcmTagFormed lane) s = execGcmTagFormed lane s := rfl
@[simp] theorem exec_previousKekClear : exec (.previousKekClear) s = execPreviousKekClear s := rfl
@[simp] theorem exec_dieNoResponse (die : Nat) : exec (.dieNoResponse die) s = execDieNoResponse die s := rfl
@[simp] theorem exec_cpuUndefinedEncoding (u : Issue) (w : W48) : exec (.cpuUndefinedEncoding u w) s = execCpuUndefinedEncoding u w s := rfl

end Sys2Proof.Machine
end

