-- ==== Sys2Proof/Laws/Sparse.lean ====
section
/-! SUPPORT. Sparse memories: a read after a write, runs, and that every operation keeps the canonical form. -/
namespace Sys2Proof.Machine

variable {α : Type}

/-! Reads -/

theorem spGet_spDel_same (d : Nat → α) (m : Sparse α) (k : Nat) : spGet d (spDel m k) k = d k := by
  induction m with
  | nil => rfl
  | cons e m ih =>
    obtain ⟨a, v⟩ := e
    by_cases h : a = k <;> simp [spDel, spGet, h, ih]

theorem spGet_spDel_ne (d : Nat → α) (m : Sparse α) {k j : Nat} (h : k ≠ j) : spGet d (spDel m k) j = spGet d m j := by
  induction m with
  | nil => rfl
  | cons e m ih =>
    obtain ⟨a, v⟩ := e
    by_cases h1 : a = k
    · subst h1; simp [spDel, spGet, h, ih]
    · simp [spDel, spGet, h1, ih]

theorem spGet_spIns_same (d : Nat → α) (m : Sparse α) (k : Nat) (v : α) : spGet d (spIns m k v) k = v := by
  induction m with
  | nil => simp [spIns, spGet]
  | cons e m ih =>
    obtain ⟨a, w⟩ := e
    simp only [spIns]
    split
    · simp [spGet]
    · split <;> simp [spGet, *]

theorem spGet_spIns_ne (d : Nat → α) (m : Sparse α) {k j : Nat} (v : α) (h : k ≠ j) :
    spGet d (spIns m k v) j = spGet d m j := by
  induction m with
  | nil => simp [spIns, spGet, h]
  | cons e m ih =>
    obtain ⟨a, w⟩ := e
    simp only [spIns]
    split
    · simp [spGet, h]
    · split
      · rename_i h2; subst h2; simp [spGet, h]
      · simp [spGet, ih]

@[simp] theorem spGet_spSet_same [DecidableEq α] (d : Nat → α) (m : Sparse α) (k : Nat) (v : α) :
    spGet d (spSet d m k v) k = v := by
  unfold spSet; split
  · rename_i h; rw [spGet_spDel_same, h]
  · exact spGet_spIns_same d m k v

theorem spGet_spSet_ne [DecidableEq α] (d : Nat → α) (m : Sparse α) {k j : Nat} (v : α) (h : k ≠ j) :
    spGet d (spSet d m k v) j = spGet d m j := by
  unfold spSet; split
  · exact spGet_spDel_ne d m h
  · exact spGet_spIns_ne d m v h

/-- A run of writes leaves what lies outside it. -/
theorem spGet_spSetAll_out [DecidableEq α] (d : Nat → α) (vs : List α) (m : Sparse α) (k j : Nat)
    (h : j < k ∨ k + vs.length ≤ j) : spGet d (spSetAll d m k vs) j = spGet d m j := by
  induction vs generalizing m k with
  | nil => rfl
  | cons v vs ih =>
    simp only [spSetAll]
    rw [ih _ _ (by simp only [List.length_cons] at h; omega)]
    exact spGet_spSet_ne d m v (by simp only [List.length_cons] at h; omega)

/-- A run of writes is read back. -/
theorem spGet_spSetAll_in [DecidableEq α] (d : Nat → α) (vs : List α) (m : Sparse α) (k i : Nat) (h : i < vs.length) :
    spGet d (spSetAll d m k vs) (k + i) = vs[i] := by
  induction vs generalizing m k i with
  | nil => simp at h
  | cons v vs ih =>
    simp only [spSetAll]
    cases i with
    | zero => rw [spGet_spSetAll_out d vs _ _ _ (by omega)]; simp
    | succ i =>
      have := ih (spSet d m k v) (k + 1) i (by simpa using h)
      simp only [Nat.add_assoc, Nat.add_comm 1] at this
      simpa using this

@[simp] theorem length_spGetAll (d : Nat → α) (m : Sparse α) (k n : Nat) : (spGetAll d m k n).length = n := by
  induction n generalizing k with
  | zero => rfl
  | succ n ih => simp [spGetAll, ih]

/-- Two memories that read alike in a run give the same run. -/
theorem spGetAll_congr (d : Nat → α) (m m' : Sparse α) (k n : Nat)
    (h : ∀ i, i < n → spGet d m (k + i) = spGet d m' (k + i)) : spGetAll d m k n = spGetAll d m' k n := by
  induction n generalizing k with
  | zero => rfl
  | succ n ih =>
    simp only [spGetAll]
    rw [ih (k + 1) fun i hi => by have := h (i + 1) (by omega); rwa [← Nat.add_assoc, Nat.add_right_comm] at this]
    exact congrArg (· :: _) (h 0 (by omega))

/-- A run of writes is read back as a run. -/
@[simp] theorem spGetAll_spSetAll [DecidableEq α] (d : Nat → α) (vs : List α) (m : Sparse α) (k : Nat) :
    spGetAll d (spSetAll d m k vs) k vs.length = vs := by
  induction vs generalizing m k with
  | nil => rfl
  | cons v vs ih =>
    simp only [spSetAll, List.length_cons, spGetAll, ih]
    rw [spGet_spSetAll_out d vs _ _ _ (by omega)]
    simp

/-! The canonical form -/

theorem spWfFrom_mono [DecidableEq α] (d : Nat → α) (m : Sparse α) {lo lo' : Nat} (h : lo' ≤ lo)
    (w : spWfFrom d lo m = true) : spWfFrom d lo' m = true := by
  cases m with
  | nil => rfl
  | cons e m => simp only [spWfFrom, Bool.and_eq_true, decide_eq_true_eq] at *; exact ⟨⟨by omega, w.1.2⟩, w.2⟩

theorem spWfFrom_spDel [DecidableEq α] (d : Nat → α) (m : Sparse α) (k lo : Nat) (w : spWfFrom d lo m = true) :
    spWfFrom d lo (spDel m k) = true := by
  induction m generalizing lo with
  | nil => rfl
  | cons e m ih =>
    obtain ⟨a, v⟩ := e
    simp only [spWfFrom, Bool.and_eq_true, decide_eq_true_eq] at w
    simp only [spDel]; split
    · exact ih _ (spWfFrom_mono d m (by omega) w.2)
    · simp only [spWfFrom, Bool.and_eq_true, decide_eq_true_eq]; exact ⟨w.1, ih _ w.2⟩

theorem spWfFrom_spIns [DecidableEq α] (d : Nat → α) (m : Sparse α) (k lo : Nat) (v : α) (h : lo ≤ k) (hv : v ≠ d k)
    (w : spWfFrom d lo m = true) : spWfFrom d lo (spIns m k v) = true := by
  induction m generalizing lo with
  | nil => simp [spIns, spWfFrom, h, hv]
  | cons e m ih =>
    obtain ⟨a, x⟩ := e
    simp only [spWfFrom, Bool.and_eq_true, decide_eq_true_eq] at w
    simp only [spIns]; split
    · simp only [spWfFrom, Bool.and_eq_true, decide_eq_true_eq]
      exact ⟨⟨h, hv⟩, ⟨by omega, w.1.2⟩, w.2⟩
    · split
      · rename_i e; subst e
        simp only [spWfFrom, Bool.and_eq_true, decide_eq_true_eq]; exact ⟨⟨h, hv⟩, w.2⟩
      · simp only [spWfFrom, Bool.and_eq_true, decide_eq_true_eq]; exact ⟨w.1, ih _ (by omega) w.2⟩

/-- A write keeps the canonical form. -/
theorem spWf_spSet [DecidableEq α] (d : Nat → α) (m : Sparse α) (k : Nat) (v : α) (w : spWf d m = true) :
    spWf d (spSet d m k v) = true := by
  unfold spSet; split
  · exact spWfFrom_spDel d m k 0 w
  · exact spWfFrom_spIns d m k 0 v (Nat.zero_le _) ‹_› w

/-- A run of writes keeps it. -/
theorem spWf_spSetAll [DecidableEq α] (d : Nat → α) (vs : List α) (m : Sparse α) (k : Nat) (w : spWf d m = true) :
    spWf d (spSetAll d m k vs) = true := by
  induction vs generalizing m k with
  | nil => exact w
  | cons v vs ih => exact ih _ _ (spWf_spSet d m k v w)

theorem spWfFrom_filter [DecidableEq α] (d : Nat → α) (p : Nat × α → Bool) (m : Sparse α) (lo : Nat)
    (w : spWfFrom d lo m = true) : spWfFrom d lo (m.filter p) = true := by
  induction m generalizing lo with
  | nil => rfl
  | cons e m ih =>
    simp only [spWfFrom, Bool.and_eq_true, decide_eq_true_eq] at w
    simp only [List.filter_cons]; split
    · simp only [spWfFrom, Bool.and_eq_true, decide_eq_true_eq]; exact ⟨w.1, ih _ w.2⟩
    · exact ih _ (spWfFrom_mono d m (by omega) w.2)

/-- Taking addresses out keeps it. -/
theorem spWf_filter [DecidableEq α] (d : Nat → α) (p : Nat × α → Bool) (m : Sparse α) (w : spWf d m = true) :
    spWf d (m.filter p) = true := spWfFrom_filter d p m 0 w

theorem spWf_spClear [DecidableEq α] (d : Nat → α) (lo hi : Nat) (m : Sparse α) (w : spWf d m = true) :
    spWf d (spClear lo hi m) = true := spWf_filter d _ m w

/-- Memories in canonical form that read alike everywhere are the same data. -/
theorem sparse_ext [DecidableEq α] (d : Nat → α) (m m' : Sparse α) (lo : Nat) (w : spWfFrom d lo m = true)
    (w' : spWfFrom d lo m' = true) (h : ∀ k, spGet d m k = spGet d m' k) : m = m' := by
  have low : ∀ (m : Sparse α) (lo k : Nat), spWfFrom d lo m = true → k < lo → spGet d m k = d k := by
    intro m
    induction m with
    | nil => intros; rfl
    | cons e m ih =>
      obtain ⟨a, v⟩ := e
      intro lo k w hk
      simp only [spWfFrom, Bool.and_eq_true, decide_eq_true_eq] at w
      have : a ≠ k := by omega
      simp [spGet, this, ih (a + 1) k w.2 (by omega)]
  induction m generalizing m' lo with
  | nil =>
    cases m' with
    | nil => rfl
    | cons e m' =>
      obtain ⟨a, v⟩ := e
      simp only [spWfFrom, Bool.and_eq_true, decide_eq_true_eq] at w'
      have := h a; simp [spGet] at this
      exact absurd this.symm w'.1.2
  | cons e m ih =>
    obtain ⟨a, v⟩ := e
    simp only [spWfFrom, Bool.and_eq_true, decide_eq_true_eq] at w
    cases m' with
    | nil =>
      have := h a; simp [spGet] at this
      exact absurd this w.1.2
    | cons e' m' =>
      obtain ⟨b, x⟩ := e'
      simp only [spWfFrom, Bool.and_eq_true, decide_eq_true_eq] at w'
      have hab : a = b := by
        rcases Nat.lt_trichotomy a b with l | l | l
        · have := h a
          have ne : ¬ b = a := by omega
          simp [spGet, ne, low m' (b + 1) a w'.2 (by omega)] at this
          exact absurd this w.1.2
        · exact l
        · have := h b
          have ne : ¬ a = b := by omega
          simp [spGet, ne, low m (a + 1) b w.2 (by omega)] at this
          exact absurd this.symm w'.1.2
      subst hab
      have hv : v = x := by have := h a; simpa [spGet] using this
      subst hv
      rw [ih m' (a + 1) w.2 w'.2]
      intro k
      by_cases e : a = k
      · subst e; rw [low m (a + 1) a w.2 (by omega), low m' (a + 1) a w'.2 (by omega)]
      · have := h k; simpa [spGet, e] using this

end Sys2Proof.Machine
end

