-- ==== Sys2Proof/Laws/Units.lean ====
section
/-! SUPPORT. Rows of like units: reading a unit after one of the row has been updated, and updates that follow each
other. -/
namespace Sys2Proof.Machine

@[simp] theorem vget_vupd_same {α : Type} {n : Nat} (v : Vector α n) (i : Nat) (f : α → α) (x : α) (h : i < n) :
    vget (vupd v i f) i x = f (vget v i x) := by
  simp [vget, vupd, h]

theorem vget_vupd_ne {α : Type} {n : Nat} (v : Vector α n) {i j : Nat} (f : α → α) (x : α) (h : i ≠ j) :
    vget (vupd v i f) j x = vget v j x := by
  unfold vget vupd
  split
  · have h' : ¬ j = i := fun e => h e.symm
    simp [h']
  · rfl

theorem vget_vupd {α : Type} {n : Nat} (v : Vector α n) (i j : Nat) (f : α → α) (x : α) :
    vget (vupd v i f) j x = if i = j ∧ j < n then f (vget v j x) else vget v j x := by
  by_cases e : i = j
  · subst e
    by_cases h : i < n
    · simp [h]
    · simp [h, vget]
  · simp [vget_vupd_ne v f x e, e]

@[simp] theorem vupd_vupd {α : Type} {n : Nat} (v : Vector α n) (i : Nat) (f g : α → α) :
    vupd (vupd v i f) i g = vupd v i fun a => g (f a) := by
  ext j hj
  by_cases e : j = i <;> simp [vupd, e]

/-- Two units of a row are updated in either order. -/
theorem vupd_comm {α : Type} {n : Nat} (v : Vector α n) {i j : Nat} (f g : α → α) (h : i ≠ j) :
    vupd (vupd v i f) j g = vupd (vupd v j g) i f := by
  ext k hk
  by_cases a : k = i
  · subst a
    simp [vupd, h]
  · by_cases b : k = j
    · have c : ¬ j = i := fun e => h e.symm
      subst b
      simp [vupd, c]
    · simp [vupd, a, b]

/-- A property of every unit stays when the updated unit keeps it. -/
theorem vget_vupd_of {α : Type} {n : Nat} {p : α → Prop} (v : Vector α n) (i j : Nat) (f : α → α) (x : α)
    (hf : p (vget v i x) → p (f (vget v i x))) (h : ∀ k, p (vget v k x)) : p (vget (vupd v i f) j x) := by
  rw [vget_vupd]
  split
  · rename_i e; obtain ⟨rfl, _⟩ := e; exact hf (h i)
  · exact h j

namespace Dev
variable (d : Dev)

@[simp] theorem lane_onLane_same (n : Nat) (f : Lane → Lane) (h : n < 64) : (d.onLane n f).lane n = f (d.lane n) := by
  simp [Dev.lane, Dev.onLane, h]
theorem lane_onLane_ne {n m : Nat} (f : Lane → Lane) (h : n ≠ m) : (d.onLane n f).lane m = d.lane m := by
  simp [Dev.lane, Dev.onLane, vget_vupd_ne _ _ _ h]
@[simp] theorem onLane_onLane (n : Nat) (f g : Lane → Lane) : (d.onLane n f).onLane n g = d.onLane n fun l => g (f l) := by
  simp [Dev.onLane]

@[simp] theorem core_onCore_same (n : Nat) (f : Core → Core) (h : n < 9) : (d.onCore n f).core n = f (d.core n) := by
  simp [Dev.core, Dev.onCore, h]
theorem core_onCore_ne {n m : Nat} (f : Core → Core) (h : n ≠ m) : (d.onCore n f).core m = d.core m := by
  simp [Dev.core, Dev.onCore, vget_vupd_ne _ _ _ h]
@[simp] theorem onCore_onCore (n : Nat) (f g : Core → Core) : (d.onCore n f).onCore n g = d.onCore n fun c => g (f c) := by
  simp [Dev.onCore]

@[simp] theorem comb_onComb_same (n : Nat) (f : Comb → Comb) (h : n < 8) : (d.onComb n f).comb n = f (d.comb n) := by
  simp [Dev.comb, Dev.onComb, h]
theorem comb_onComb_ne {n m : Nat} (f : Comb → Comb) (h : n ≠ m) : (d.onComb n f).comb m = d.comb m := by
  simp [Dev.comb, Dev.onComb, vget_vupd_ne _ _ _ h]

@[simp] theorem port_onPort_same (n : Nat) (f : Port → Port) (h : n < 5) : (d.onPort n f).port n = f (d.port n) := by
  simp [Dev.port, Dev.onPort, h]
theorem port_onPort_ne {n m : Nat} (f : Port → Port) (h : n ≠ m) : (d.onPort n f).port m = d.port m := by
  simp [Dev.port, Dev.onPort, vget_vupd_ne _ _ _ h]

@[simp] theorem tile_onTile_same (n : Nat) (f : Tile → Tile) (h : n < 8) : (d.onTile n f).tile n = f (d.tile n) := by
  simp [Dev.tile, Dev.onTile, h]

end Dev

/-! A lane's contexts and rings. -/
@[simp] theorem Lane.ring_onRing (l : Lane) (x : Nat) (f : RingPair → RingPair) : (l.onRing x f).ring x = f (l.ring x) := by
  unfold Lane.onRing Lane.ring; split <;> rfl
@[simp] theorem Lane.ctx_onCtx (l : Lane) (x : Nat) (f : Ctx → Ctx) : (l.onCtx x f).ctx x = f (l.ctx x) := by
  unfold Lane.onCtx Lane.ctx; split <;> rfl

end Sys2Proof.Machine
end

