-- ==== Sys2Proof/Laws/Commands.lean ====
section
/-! SUPPORT. The shared operations of the host commands: how one is taken, checked and answered. -/
namespace Sys2Proof.Machine

/-- A command that is next, of its opcode and with its rights, runs on its body. -/
theorem Dev.command_takes (d : Dev) (op p i : Nat) (b : List Byte) (f : List Byte → Dev → Dev) (h : d.takes op p i b) :
    d.command op p i f = f b (d.started p i) := by
  obtain ⟨h1, h2, h3, h4, _, h6⟩ := h
  simp only [Dev.command, h1, h2, h3]
  simp only [decide_true, BEq.rfl, Bool.and_self, if_true]
  have : (d.onPorts fun c => { c with arrivals := c.arrivals.erase (p, i) }) = d.started p i := rfl
  rw [this]
  have h6' : (d.started p i).frameRights p i = none := h6
  have h4' : List.drop 16 ((d.started p i).request p i) = b := h4
  simp only [h6', h4']

/-- Any other command changes nothing. -/
theorem Dev.command_skips (d : Dev) (op p i : Nat) (f : List Byte → Dev → Dev)
    (h : d.serves = false ∨ d.nextRequest ≠ some (p, i) ∨ numAt (d.request p i) 6 2 ≠ op) : d.command op p i f = d := by
  unfold Dev.command
  split
  · rename_i hc
    simp only [Bool.and_eq_true, decide_eq_true_eq, beq_iff_eq] at hc
    rcases h with h | h | h
    · rw [h] at hc; exact absurd hc.1.1 (by decide)
    · exact absurd hc.1.2 h
    · exact absurd hc.2 h
  · rfl

/-- Sending one thing after another changes nothing but what is sent. -/
theorem Dev.each_send {α : Type} (d : Dev) (xs : List α) (g : α → Output) (h : α → Bool) (g' : α → Output) :
    d.each xs (fun d b => if h b then d.send (g b) else d.send (g' b))
      = { d with out := (d.each xs fun d b => if h b then d.send (g b) else d.send (g' b)).out } := by
  unfold Dev.each
  induction xs generalizing d with
  | nil => rfl
  | cons x xs ih =>
    rw [List.foldl_cons, ih]
    split <;> rfl

/-- Datagrams change nothing but what is sent. -/
theorem Dev.sendUdp_out (d : Dev) (p i typ seq : Nat) (body : List Byte) :
    d.sendUdp p i typ seq body = { d with out := (d.sendUdp p i typ seq body).out } := by
  unfold Dev.sendUdp
  dsimp only
  split
  · rfl
  · exact Dev.each_send d _ _ (fun _ => decide (typ = 0x20) && numAt (d.settings.get 0x5A) 0 1 != 0) _

/-- An interrupt message changes no mailbox, and nothing but the ports and what is sent. -/
theorem Dev.msix_mbx (d : Dev) (p v q : Nat) : ((d.msix p v).port q).mbx = (d.port q).mbx := by
  unfold Dev.msix
  dsimp only
  split
  · simp only [Dev.port, Dev.onPort, vget_vupd]
    split
    · rfl
    · rfl
  · rfl
theorem Dev.msix_out (d : Dev) (p v : Nat) : d.msix p v = { d with ports := (d.msix p v).ports, out := (d.msix p v).out } := by
  unfold Dev.msix
  dsimp only
  split <;> rfl

@[simp] theorem Dev.sendUdp_ports (d : Dev) (p i typ seq : Nat) (body : List Byte) : (d.sendUdp p i typ seq body).ports = d.ports := by
  rw [Dev.sendUdp_out]

/-- An answer to one who waits for it is delivered, and changes nothing but the ports and what is sent. -/
theorem Dev.answer_replied (d : Dev) (p i st : Nat) (body : List Byte) (h : d.waitsAt p i) : (d.answer p i st body).replied d p i st body := by
  unfold Dev.answer Dev.deliver Dev.replied Dev.answered
  dsimp only
  generalize responseFrame (numAt (d.request p i) 6 2) (numAt (d.request p i) 12 4) st body = f
  obtain ⟨hm, h⟩ := h
  rcases h with ⟨hp, hi, hs, hr⟩ | ⟨hp, hs⟩
  · have hu : isUdp p = true := by rcases hp with rfl | rfl <;> rfl
    have hp5 : p < 5 := by omega
    simp only [hu, if_true, hs, hr, hm, ne_eq, not_false_eq_true, decide_true, Bool.and_self]
    have hq : (((d.onSess p i fun q => { q with running := false, cached := f }).sendUdp p i 0x11 (d.sess p i).rxSeq f)).sess p i
        = { d.sess p i with running := false, cached := f } := by
      unfold Dev.sess Dev.port
      rw [Dev.sendUdp_ports]
      simp [Dev.onSess, Dev.onPort, hp5, hi]
    rw [hq]
    refine ⟨⟨rfl, rfl⟩, ?_⟩
    rw [Dev.sendUdp_out]; rfl
  · have hp' : p = 0 ∨ p = 1 ∨ p = 4 := by omega
    have hu : isUdp p = false := by rcases hp' with rfl | rfl | rfl <;> rfl
    have hp5 : p < 5 := by omega
    have hi4 : i < 4 := by omega
    simp only [hu, hs, if_true]
    unfold Dev.fillSlot
    simp only [hm, if_false]
    by_cases hd : (d.port p).pcie.d3hot = true
    · simp only [hd, if_true]
      refine ⟨?_, rfl⟩
      simp [Dev.slot, Dev.onSlot, Dev.onMbx, hp5, hi4]
    · have hd' : (d.port p).pcie.d3hot = false := by simpa using hd
      simp only [hd']
      have hgen : ∀ (e : Dev), (e.port p).mbx = (((d.putWindow p (respWindow p i) f).onSlot p i fun q =>
            { q with st := .done, status := 0, respLen := f.length, resp := none }).port p).mbx →
          (e.slot p i).st = .done ∧ (e.slot p i).respLen = f.length ∧ spGetAll zeroByte (e.port p).mbx.win (respWindow p i) f.length = f := by
        intro e he
        have hport : (e.port p).mbx =
            { (d.port p).mbx with
              win := spSetAll zeroByte (d.port p).mbx.win (respWindow p i) f
              slots := vupd (d.port p).mbx.slots i fun q =>
                { q with st := .done, status := 0, respLen := f.length, resp := none } } := by
          rw [he]
          simp [Dev.port, Dev.putWindow, Dev.onSlot, Dev.onMbx, Dev.onPort, hp5]
        unfold Dev.slot
        rw [hport]
        refine ⟨by simp [hi4], by simp [hi4], ?_⟩
        exact spGetAll_spSetAll ..
      simp only [Bool.false_eq_true, if_false]
      by_cases hpc : isPcie p = true
      · simp only [hpc, if_true]
        refine ⟨hgen _ (Dev.msix_mbx ..), ?_⟩
        rw [Dev.msix_out]
        rfl
      · simp only [hpc]
        exact ⟨hgen _ rfl, rfl⟩

/-- A command that is taken completes as its function says. -/
theorem completes_of_takes {c : Instr} {s : State} {op p i : Nat} {b : List Byte} {f : List Byte → Dev → Dev} {P : Dev → Prop}
    (h : s.dev.takes op p i b) (hc : exec c s = s.on fun d => d.command op p i f) (hP : P (f b (s.dev.started p i))) : Completes c s P := by
  refine ⟨_, hc, rfl, ?_⟩
  rw [show ({ dev := (fun d : Dev => d.command op p i f) s.dev, pending := s.pending } : State).dev = s.dev.command op p i f from rfl,
    Dev.command_takes _ _ _ _ _ _ h]
  exact hP

/-- The checks of a command, one by one. -/
theorem Dev.guarded_nil (d : Dev) (p i : Nat) (f : Dev → Dev) : d.guarded p i [] f = f d := rfl
theorem Dev.guarded_cons (d : Dev) (p i : Nat) (c : Bool) (st : Status) (l : List (Bool × Status)) (f : Dev → Dev) :
    d.guarded p i ((c, st) :: l) f = if c then d.refuse p i st else d.guarded p i l f := by
  simp only [Dev.guarded, firstBad]
  cases c <;> simp

end Sys2Proof.Machine
end

