-- ==== Sys2Proof/Laws/State.lean ====
section
/-! SUPPORT. What each shared update of the device changes, and what it leaves as it was: one lemma per field and update. -/
namespace Sys2Proof.Machine.Dev
variable (d : Dev)

@[simp] theorem onLane_variant (n : Nat) (f : Lane → Lane) : (d.onLane n f).variant = d.variant := by dsimp only [onLane]
@[simp] theorem onLane_clk (n : Nat) (f : Lane → Lane) : (d.onLane n f).clk = d.clk := by dsimp only [onLane]
@[simp] theorem onLane_ctr (n : Nat) (f : Lane → Lane) : (d.onLane n f).ctr = d.ctr := by dsimp only [onLane]
@[simp] theorem onLane_supply (n : Nat) (f : Lane → Lane) : (d.onLane n f).supply = d.supply := by dsimp only [onLane]
@[simp] theorem onLane_combs (n : Nat) (f : Lane → Lane) : (d.onLane n f).combs = d.combs := by dsimp only [onLane]
@[simp] theorem onLane_arb (n : Nat) (f : Lane → Lane) : (d.onLane n f).arb = d.arb := by dsimp only [onLane]
@[simp] theorem onLane_hive (n : Nat) (f : Lane → Lane) : (d.onLane n f).hive = d.hive := by dsimp only [onLane]
@[simp] theorem onLane_receipts (n : Nat) (f : Lane → Lane) : (d.onLane n f).receipts = d.receipts := by dsimp only [onLane]
@[simp] theorem onLane_wag (n : Nat) (f : Lane → Lane) : (d.onLane n f).wag = d.wag := by dsimp only [onLane]
@[simp] theorem onLane_wagEps (n : Nat) (f : Lane → Lane) : (d.onLane n f).wagEps = d.wagEps := by dsimp only [onLane]
@[simp] theorem onLane_time (n : Nat) (f : Lane → Lane) : (d.onLane n f).time = d.time := by dsimp only [onLane]
@[simp] theorem onLane_store (n : Nat) (f : Lane → Lane) : (d.onLane n f).store = d.store := by dsimp only [onLane]
@[simp] theorem onLane_staging (n : Nat) (f : Lane → Lane) : (d.onLane n f).staging = d.staging := by dsimp only [onLane]
@[simp] theorem onLane_power (n : Nat) (f : Lane → Lane) : (d.onLane n f).power = d.power := by dsimp only [onLane]
@[simp] theorem onLane_close (n : Nat) (f : Lane → Lane) : (d.onLane n f).close = d.close := by dsimp only [onLane]
@[simp] theorem onLane_ports (n : Nat) (f : Lane → Lane) : (d.onLane n f).ports = d.ports := by dsimp only [onLane]
@[simp] theorem onLane_portsCfg (n : Nat) (f : Lane → Lane) : (d.onLane n f).portsCfg = d.portsCfg := by dsimp only [onLane]
@[simp] theorem onLane_waits (n : Nat) (f : Lane → Lane) : (d.onLane n f).waits = d.waits := by dsimp only [onLane]
@[simp] theorem onLane_exports (n : Nat) (f : Lane → Lane) : (d.onLane n f).exports = d.exports := by dsimp only [onLane]
@[simp] theorem onLane_tiles (n : Nat) (f : Lane → Lane) : (d.onLane n f).tiles = d.tiles := by dsimp only [onLane]
@[simp] theorem onLane_keys (n : Nat) (f : Lane → Lane) : (d.onLane n f).keys = d.keys := by dsimp only [onLane]
@[simp] theorem onLane_rng (n : Nat) (f : Lane → Lane) : (d.onLane n f).rng = d.rng := by dsimp only [onLane]
@[simp] theorem onLane_tamper (n : Nat) (f : Lane → Lane) : (d.onLane n f).tamper = d.tamper := by dsimp only [onLane]
@[simp] theorem onLane_aon (n : Nat) (f : Lane → Lane) : (d.onLane n f).aon = d.aon := by dsimp only [onLane]
@[simp] theorem onLane_log (n : Nat) (f : Lane → Lane) : (d.onLane n f).log = d.log := by dsimp only [onLane]
@[simp] theorem onLane_life (n : Nat) (f : Lane → Lane) : (d.onLane n f).life = d.life := by dsimp only [onLane]
@[simp] theorem onLane_debug (n : Nat) (f : Lane → Lane) : (d.onLane n f).dbg = d.dbg := by dsimp only [onLane]
@[simp] theorem onLane_cores (n : Nat) (f : Lane → Lane) : (d.onLane n f).cores = d.cores := by dsimp only [onLane]
@[simp] theorem onLane_flash (n : Nat) (f : Lane → Lane) : (d.onLane n f).flash = d.flash := by dsimp only [onLane]
@[simp] theorem onLane_settings (n : Nat) (f : Lane → Lane) : (d.onLane n f).settings = d.settings := by dsimp only [onLane]
@[simp] theorem onLane_field (n : Nat) (f : Lane → Lane) : (d.onLane n f).field = d.field := by dsimp only [onLane]
@[simp] theorem onLane_out (n : Nat) (f : Lane → Lane) : (d.onLane n f).out = d.out := by dsimp only [onLane]

@[simp] theorem onComb_variant (n : Nat) (f : Comb → Comb) : (d.onComb n f).variant = d.variant := by dsimp only [onComb]
@[simp] theorem onComb_clk (n : Nat) (f : Comb → Comb) : (d.onComb n f).clk = d.clk := by dsimp only [onComb]
@[simp] theorem onComb_ctr (n : Nat) (f : Comb → Comb) : (d.onComb n f).ctr = d.ctr := by dsimp only [onComb]
@[simp] theorem onComb_supply (n : Nat) (f : Comb → Comb) : (d.onComb n f).supply = d.supply := by dsimp only [onComb]
@[simp] theorem onComb_lanes (n : Nat) (f : Comb → Comb) : (d.onComb n f).lanes = d.lanes := by dsimp only [onComb]
@[simp] theorem onComb_arb (n : Nat) (f : Comb → Comb) : (d.onComb n f).arb = d.arb := by dsimp only [onComb]
@[simp] theorem onComb_hive (n : Nat) (f : Comb → Comb) : (d.onComb n f).hive = d.hive := by dsimp only [onComb]
@[simp] theorem onComb_receipts (n : Nat) (f : Comb → Comb) : (d.onComb n f).receipts = d.receipts := by dsimp only [onComb]
@[simp] theorem onComb_wag (n : Nat) (f : Comb → Comb) : (d.onComb n f).wag = d.wag := by dsimp only [onComb]
@[simp] theorem onComb_wagEps (n : Nat) (f : Comb → Comb) : (d.onComb n f).wagEps = d.wagEps := by dsimp only [onComb]
@[simp] theorem onComb_time (n : Nat) (f : Comb → Comb) : (d.onComb n f).time = d.time := by dsimp only [onComb]
@[simp] theorem onComb_store (n : Nat) (f : Comb → Comb) : (d.onComb n f).store = d.store := by dsimp only [onComb]
@[simp] theorem onComb_staging (n : Nat) (f : Comb → Comb) : (d.onComb n f).staging = d.staging := by dsimp only [onComb]
@[simp] theorem onComb_power (n : Nat) (f : Comb → Comb) : (d.onComb n f).power = d.power := by dsimp only [onComb]
@[simp] theorem onComb_close (n : Nat) (f : Comb → Comb) : (d.onComb n f).close = d.close := by dsimp only [onComb]
@[simp] theorem onComb_ports (n : Nat) (f : Comb → Comb) : (d.onComb n f).ports = d.ports := by dsimp only [onComb]
@[simp] theorem onComb_portsCfg (n : Nat) (f : Comb → Comb) : (d.onComb n f).portsCfg = d.portsCfg := by dsimp only [onComb]
@[simp] theorem onComb_waits (n : Nat) (f : Comb → Comb) : (d.onComb n f).waits = d.waits := by dsimp only [onComb]
@[simp] theorem onComb_exports (n : Nat) (f : Comb → Comb) : (d.onComb n f).exports = d.exports := by dsimp only [onComb]
@[simp] theorem onComb_tiles (n : Nat) (f : Comb → Comb) : (d.onComb n f).tiles = d.tiles := by dsimp only [onComb]
@[simp] theorem onComb_keys (n : Nat) (f : Comb → Comb) : (d.onComb n f).keys = d.keys := by dsimp only [onComb]
@[simp] theorem onComb_rng (n : Nat) (f : Comb → Comb) : (d.onComb n f).rng = d.rng := by dsimp only [onComb]
@[simp] theorem onComb_tamper (n : Nat) (f : Comb → Comb) : (d.onComb n f).tamper = d.tamper := by dsimp only [onComb]
@[simp] theorem onComb_aon (n : Nat) (f : Comb → Comb) : (d.onComb n f).aon = d.aon := by dsimp only [onComb]
@[simp] theorem onComb_log (n : Nat) (f : Comb → Comb) : (d.onComb n f).log = d.log := by dsimp only [onComb]
@[simp] theorem onComb_life (n : Nat) (f : Comb → Comb) : (d.onComb n f).life = d.life := by dsimp only [onComb]
@[simp] theorem onComb_debug (n : Nat) (f : Comb → Comb) : (d.onComb n f).dbg = d.dbg := by dsimp only [onComb]
@[simp] theorem onComb_cores (n : Nat) (f : Comb → Comb) : (d.onComb n f).cores = d.cores := by dsimp only [onComb]
@[simp] theorem onComb_flash (n : Nat) (f : Comb → Comb) : (d.onComb n f).flash = d.flash := by dsimp only [onComb]
@[simp] theorem onComb_settings (n : Nat) (f : Comb → Comb) : (d.onComb n f).settings = d.settings := by dsimp only [onComb]
@[simp] theorem onComb_field (n : Nat) (f : Comb → Comb) : (d.onComb n f).field = d.field := by dsimp only [onComb]
@[simp] theorem onComb_out (n : Nat) (f : Comb → Comb) : (d.onComb n f).out = d.out := by dsimp only [onComb]

@[simp] theorem onPort_variant (n : Nat) (f : Port → Port) : (d.onPort n f).variant = d.variant := by dsimp only [onPort]
@[simp] theorem onPort_clk (n : Nat) (f : Port → Port) : (d.onPort n f).clk = d.clk := by dsimp only [onPort]
@[simp] theorem onPort_ctr (n : Nat) (f : Port → Port) : (d.onPort n f).ctr = d.ctr := by dsimp only [onPort]
@[simp] theorem onPort_supply (n : Nat) (f : Port → Port) : (d.onPort n f).supply = d.supply := by dsimp only [onPort]
@[simp] theorem onPort_lanes (n : Nat) (f : Port → Port) : (d.onPort n f).lanes = d.lanes := by dsimp only [onPort]
@[simp] theorem onPort_combs (n : Nat) (f : Port → Port) : (d.onPort n f).combs = d.combs := by dsimp only [onPort]
@[simp] theorem onPort_arb (n : Nat) (f : Port → Port) : (d.onPort n f).arb = d.arb := by dsimp only [onPort]
@[simp] theorem onPort_hive (n : Nat) (f : Port → Port) : (d.onPort n f).hive = d.hive := by dsimp only [onPort]
@[simp] theorem onPort_receipts (n : Nat) (f : Port → Port) : (d.onPort n f).receipts = d.receipts := by dsimp only [onPort]
@[simp] theorem onPort_wag (n : Nat) (f : Port → Port) : (d.onPort n f).wag = d.wag := by dsimp only [onPort]
@[simp] theorem onPort_wagEps (n : Nat) (f : Port → Port) : (d.onPort n f).wagEps = d.wagEps := by dsimp only [onPort]
@[simp] theorem onPort_time (n : Nat) (f : Port → Port) : (d.onPort n f).time = d.time := by dsimp only [onPort]
@[simp] theorem onPort_store (n : Nat) (f : Port → Port) : (d.onPort n f).store = d.store := by dsimp only [onPort]
@[simp] theorem onPort_staging (n : Nat) (f : Port → Port) : (d.onPort n f).staging = d.staging := by dsimp only [onPort]
@[simp] theorem onPort_power (n : Nat) (f : Port → Port) : (d.onPort n f).power = d.power := by dsimp only [onPort]
@[simp] theorem onPort_close (n : Nat) (f : Port → Port) : (d.onPort n f).close = d.close := by dsimp only [onPort]
@[simp] theorem onPort_portsCfg (n : Nat) (f : Port → Port) : (d.onPort n f).portsCfg = d.portsCfg := by dsimp only [onPort]
@[simp] theorem onPort_waits (n : Nat) (f : Port → Port) : (d.onPort n f).waits = d.waits := by dsimp only [onPort]
@[simp] theorem onPort_exports (n : Nat) (f : Port → Port) : (d.onPort n f).exports = d.exports := by dsimp only [onPort]
@[simp] theorem onPort_tiles (n : Nat) (f : Port → Port) : (d.onPort n f).tiles = d.tiles := by dsimp only [onPort]
@[simp] theorem onPort_keys (n : Nat) (f : Port → Port) : (d.onPort n f).keys = d.keys := by dsimp only [onPort]
@[simp] theorem onPort_rng (n : Nat) (f : Port → Port) : (d.onPort n f).rng = d.rng := by dsimp only [onPort]
@[simp] theorem onPort_tamper (n : Nat) (f : Port → Port) : (d.onPort n f).tamper = d.tamper := by dsimp only [onPort]
@[simp] theorem onPort_aon (n : Nat) (f : Port → Port) : (d.onPort n f).aon = d.aon := by dsimp only [onPort]
@[simp] theorem onPort_log (n : Nat) (f : Port → Port) : (d.onPort n f).log = d.log := by dsimp only [onPort]
@[simp] theorem onPort_life (n : Nat) (f : Port → Port) : (d.onPort n f).life = d.life := by dsimp only [onPort]
@[simp] theorem onPort_debug (n : Nat) (f : Port → Port) : (d.onPort n f).dbg = d.dbg := by dsimp only [onPort]
@[simp] theorem onPort_cores (n : Nat) (f : Port → Port) : (d.onPort n f).cores = d.cores := by dsimp only [onPort]
@[simp] theorem onPort_flash (n : Nat) (f : Port → Port) : (d.onPort n f).flash = d.flash := by dsimp only [onPort]
@[simp] theorem onPort_settings (n : Nat) (f : Port → Port) : (d.onPort n f).settings = d.settings := by dsimp only [onPort]
@[simp] theorem onPort_field (n : Nat) (f : Port → Port) : (d.onPort n f).field = d.field := by dsimp only [onPort]
@[simp] theorem onPort_out (n : Nat) (f : Port → Port) : (d.onPort n f).out = d.out := by dsimp only [onPort]

@[simp] theorem onCore_variant (n : Nat) (f : Core → Core) : (d.onCore n f).variant = d.variant := by dsimp only [onCore]
@[simp] theorem onCore_clk (n : Nat) (f : Core → Core) : (d.onCore n f).clk = d.clk := by dsimp only [onCore]
@[simp] theorem onCore_ctr (n : Nat) (f : Core → Core) : (d.onCore n f).ctr = d.ctr := by dsimp only [onCore]
@[simp] theorem onCore_supply (n : Nat) (f : Core → Core) : (d.onCore n f).supply = d.supply := by dsimp only [onCore]
@[simp] theorem onCore_lanes (n : Nat) (f : Core → Core) : (d.onCore n f).lanes = d.lanes := by dsimp only [onCore]
@[simp] theorem onCore_combs (n : Nat) (f : Core → Core) : (d.onCore n f).combs = d.combs := by dsimp only [onCore]
@[simp] theorem onCore_arb (n : Nat) (f : Core → Core) : (d.onCore n f).arb = d.arb := by dsimp only [onCore]
@[simp] theorem onCore_hive (n : Nat) (f : Core → Core) : (d.onCore n f).hive = d.hive := by dsimp only [onCore]
@[simp] theorem onCore_receipts (n : Nat) (f : Core → Core) : (d.onCore n f).receipts = d.receipts := by dsimp only [onCore]
@[simp] theorem onCore_wag (n : Nat) (f : Core → Core) : (d.onCore n f).wag = d.wag := by dsimp only [onCore]
@[simp] theorem onCore_wagEps (n : Nat) (f : Core → Core) : (d.onCore n f).wagEps = d.wagEps := by dsimp only [onCore]
@[simp] theorem onCore_time (n : Nat) (f : Core → Core) : (d.onCore n f).time = d.time := by dsimp only [onCore]
@[simp] theorem onCore_store (n : Nat) (f : Core → Core) : (d.onCore n f).store = d.store := by dsimp only [onCore]
@[simp] theorem onCore_staging (n : Nat) (f : Core → Core) : (d.onCore n f).staging = d.staging := by dsimp only [onCore]
@[simp] theorem onCore_power (n : Nat) (f : Core → Core) : (d.onCore n f).power = d.power := by dsimp only [onCore]
@[simp] theorem onCore_close (n : Nat) (f : Core → Core) : (d.onCore n f).close = d.close := by dsimp only [onCore]
@[simp] theorem onCore_ports (n : Nat) (f : Core → Core) : (d.onCore n f).ports = d.ports := by dsimp only [onCore]
@[simp] theorem onCore_portsCfg (n : Nat) (f : Core → Core) : (d.onCore n f).portsCfg = d.portsCfg := by dsimp only [onCore]
@[simp] theorem onCore_waits (n : Nat) (f : Core → Core) : (d.onCore n f).waits = d.waits := by dsimp only [onCore]
@[simp] theorem onCore_exports (n : Nat) (f : Core → Core) : (d.onCore n f).exports = d.exports := by dsimp only [onCore]
@[simp] theorem onCore_tiles (n : Nat) (f : Core → Core) : (d.onCore n f).tiles = d.tiles := by dsimp only [onCore]
@[simp] theorem onCore_keys (n : Nat) (f : Core → Core) : (d.onCore n f).keys = d.keys := by dsimp only [onCore]
@[simp] theorem onCore_rng (n : Nat) (f : Core → Core) : (d.onCore n f).rng = d.rng := by dsimp only [onCore]
@[simp] theorem onCore_tamper (n : Nat) (f : Core → Core) : (d.onCore n f).tamper = d.tamper := by dsimp only [onCore]
@[simp] theorem onCore_aon (n : Nat) (f : Core → Core) : (d.onCore n f).aon = d.aon := by dsimp only [onCore]
@[simp] theorem onCore_log (n : Nat) (f : Core → Core) : (d.onCore n f).log = d.log := by dsimp only [onCore]
@[simp] theorem onCore_life (n : Nat) (f : Core → Core) : (d.onCore n f).life = d.life := by dsimp only [onCore]
@[simp] theorem onCore_debug (n : Nat) (f : Core → Core) : (d.onCore n f).dbg = d.dbg := by dsimp only [onCore]
@[simp] theorem onCore_flash (n : Nat) (f : Core → Core) : (d.onCore n f).flash = d.flash := by dsimp only [onCore]
@[simp] theorem onCore_settings (n : Nat) (f : Core → Core) : (d.onCore n f).settings = d.settings := by dsimp only [onCore]
@[simp] theorem onCore_field (n : Nat) (f : Core → Core) : (d.onCore n f).field = d.field := by dsimp only [onCore]
@[simp] theorem onCore_out (n : Nat) (f : Core → Core) : (d.onCore n f).out = d.out := by dsimp only [onCore]

@[simp] theorem onTile_variant (n : Nat) (f : Tile → Tile) : (d.onTile n f).variant = d.variant := by dsimp only [onTile]
@[simp] theorem onTile_clk (n : Nat) (f : Tile → Tile) : (d.onTile n f).clk = d.clk := by dsimp only [onTile]
@[simp] theorem onTile_ctr (n : Nat) (f : Tile → Tile) : (d.onTile n f).ctr = d.ctr := by dsimp only [onTile]
@[simp] theorem onTile_supply (n : Nat) (f : Tile → Tile) : (d.onTile n f).supply = d.supply := by dsimp only [onTile]
@[simp] theorem onTile_lanes (n : Nat) (f : Tile → Tile) : (d.onTile n f).lanes = d.lanes := by dsimp only [onTile]
@[simp] theorem onTile_combs (n : Nat) (f : Tile → Tile) : (d.onTile n f).combs = d.combs := by dsimp only [onTile]
@[simp] theorem onTile_arb (n : Nat) (f : Tile → Tile) : (d.onTile n f).arb = d.arb := by dsimp only [onTile]
@[simp] theorem onTile_hive (n : Nat) (f : Tile → Tile) : (d.onTile n f).hive = d.hive := by dsimp only [onTile]
@[simp] theorem onTile_receipts (n : Nat) (f : Tile → Tile) : (d.onTile n f).receipts = d.receipts := by dsimp only [onTile]
@[simp] theorem onTile_wag (n : Nat) (f : Tile → Tile) : (d.onTile n f).wag = d.wag := by dsimp only [onTile]
@[simp] theorem onTile_wagEps (n : Nat) (f : Tile → Tile) : (d.onTile n f).wagEps = d.wagEps := by dsimp only [onTile]
@[simp] theorem onTile_time (n : Nat) (f : Tile → Tile) : (d.onTile n f).time = d.time := by dsimp only [onTile]
@[simp] theorem onTile_store (n : Nat) (f : Tile → Tile) : (d.onTile n f).store = d.store := by dsimp only [onTile]
@[simp] theorem onTile_staging (n : Nat) (f : Tile → Tile) : (d.onTile n f).staging = d.staging := by dsimp only [onTile]
@[simp] theorem onTile_power (n : Nat) (f : Tile → Tile) : (d.onTile n f).power = d.power := by dsimp only [onTile]
@[simp] theorem onTile_close (n : Nat) (f : Tile → Tile) : (d.onTile n f).close = d.close := by dsimp only [onTile]
@[simp] theorem onTile_ports (n : Nat) (f : Tile → Tile) : (d.onTile n f).ports = d.ports := by dsimp only [onTile]
@[simp] theorem onTile_portsCfg (n : Nat) (f : Tile → Tile) : (d.onTile n f).portsCfg = d.portsCfg := by dsimp only [onTile]
@[simp] theorem onTile_waits (n : Nat) (f : Tile → Tile) : (d.onTile n f).waits = d.waits := by dsimp only [onTile]
@[simp] theorem onTile_exports (n : Nat) (f : Tile → Tile) : (d.onTile n f).exports = d.exports := by dsimp only [onTile]
@[simp] theorem onTile_keys (n : Nat) (f : Tile → Tile) : (d.onTile n f).keys = d.keys := by dsimp only [onTile]
@[simp] theorem onTile_rng (n : Nat) (f : Tile → Tile) : (d.onTile n f).rng = d.rng := by dsimp only [onTile]
@[simp] theorem onTile_tamper (n : Nat) (f : Tile → Tile) : (d.onTile n f).tamper = d.tamper := by dsimp only [onTile]
@[simp] theorem onTile_aon (n : Nat) (f : Tile → Tile) : (d.onTile n f).aon = d.aon := by dsimp only [onTile]
@[simp] theorem onTile_log (n : Nat) (f : Tile → Tile) : (d.onTile n f).log = d.log := by dsimp only [onTile]
@[simp] theorem onTile_life (n : Nat) (f : Tile → Tile) : (d.onTile n f).life = d.life := by dsimp only [onTile]
@[simp] theorem onTile_debug (n : Nat) (f : Tile → Tile) : (d.onTile n f).dbg = d.dbg := by dsimp only [onTile]
@[simp] theorem onTile_cores (n : Nat) (f : Tile → Tile) : (d.onTile n f).cores = d.cores := by dsimp only [onTile]
@[simp] theorem onTile_flash (n : Nat) (f : Tile → Tile) : (d.onTile n f).flash = d.flash := by dsimp only [onTile]
@[simp] theorem onTile_settings (n : Nat) (f : Tile → Tile) : (d.onTile n f).settings = d.settings := by dsimp only [onTile]
@[simp] theorem onTile_field (n : Nat) (f : Tile → Tile) : (d.onTile n f).field = d.field := by dsimp only [onTile]
@[simp] theorem onTile_out (n : Nat) (f : Tile → Tile) : (d.onTile n f).out = d.out := by dsimp only [onTile]

@[simp] theorem setKey_variant (n : Nat) (k : KeySlot) : (d.setKey n k).variant = d.variant := by dsimp only [setKey]
@[simp] theorem setKey_clk (n : Nat) (k : KeySlot) : (d.setKey n k).clk = d.clk := by dsimp only [setKey]
@[simp] theorem setKey_ctr (n : Nat) (k : KeySlot) : (d.setKey n k).ctr = d.ctr := by dsimp only [setKey]
@[simp] theorem setKey_supply (n : Nat) (k : KeySlot) : (d.setKey n k).supply = d.supply := by dsimp only [setKey]
@[simp] theorem setKey_lanes (n : Nat) (k : KeySlot) : (d.setKey n k).lanes = d.lanes := by dsimp only [setKey]
@[simp] theorem setKey_combs (n : Nat) (k : KeySlot) : (d.setKey n k).combs = d.combs := by dsimp only [setKey]
@[simp] theorem setKey_arb (n : Nat) (k : KeySlot) : (d.setKey n k).arb = d.arb := by dsimp only [setKey]
@[simp] theorem setKey_hive (n : Nat) (k : KeySlot) : (d.setKey n k).hive = d.hive := by dsimp only [setKey]
@[simp] theorem setKey_receipts (n : Nat) (k : KeySlot) : (d.setKey n k).receipts = d.receipts := by dsimp only [setKey]
@[simp] theorem setKey_wag (n : Nat) (k : KeySlot) : (d.setKey n k).wag = d.wag := by dsimp only [setKey]
@[simp] theorem setKey_wagEps (n : Nat) (k : KeySlot) : (d.setKey n k).wagEps = d.wagEps := by dsimp only [setKey]
@[simp] theorem setKey_time (n : Nat) (k : KeySlot) : (d.setKey n k).time = d.time := by dsimp only [setKey]
@[simp] theorem setKey_store (n : Nat) (k : KeySlot) : (d.setKey n k).store = d.store := by dsimp only [setKey]
@[simp] theorem setKey_staging (n : Nat) (k : KeySlot) : (d.setKey n k).staging = d.staging := by dsimp only [setKey]
@[simp] theorem setKey_power (n : Nat) (k : KeySlot) : (d.setKey n k).power = d.power := by dsimp only [setKey]
@[simp] theorem setKey_close (n : Nat) (k : KeySlot) : (d.setKey n k).close = d.close := by dsimp only [setKey]
@[simp] theorem setKey_ports (n : Nat) (k : KeySlot) : (d.setKey n k).ports = d.ports := by dsimp only [setKey]
@[simp] theorem setKey_portsCfg (n : Nat) (k : KeySlot) : (d.setKey n k).portsCfg = d.portsCfg := by dsimp only [setKey]
@[simp] theorem setKey_waits (n : Nat) (k : KeySlot) : (d.setKey n k).waits = d.waits := by dsimp only [setKey]
@[simp] theorem setKey_exports (n : Nat) (k : KeySlot) : (d.setKey n k).exports = d.exports := by dsimp only [setKey]
@[simp] theorem setKey_tiles (n : Nat) (k : KeySlot) : (d.setKey n k).tiles = d.tiles := by dsimp only [setKey]
@[simp] theorem setKey_rng (n : Nat) (k : KeySlot) : (d.setKey n k).rng = d.rng := by dsimp only [setKey]
@[simp] theorem setKey_tamper (n : Nat) (k : KeySlot) : (d.setKey n k).tamper = d.tamper := by dsimp only [setKey]
@[simp] theorem setKey_aon (n : Nat) (k : KeySlot) : (d.setKey n k).aon = d.aon := by dsimp only [setKey]
@[simp] theorem setKey_log (n : Nat) (k : KeySlot) : (d.setKey n k).log = d.log := by dsimp only [setKey]
@[simp] theorem setKey_life (n : Nat) (k : KeySlot) : (d.setKey n k).life = d.life := by dsimp only [setKey]
@[simp] theorem setKey_debug (n : Nat) (k : KeySlot) : (d.setKey n k).dbg = d.dbg := by dsimp only [setKey]
@[simp] theorem setKey_cores (n : Nat) (k : KeySlot) : (d.setKey n k).cores = d.cores := by dsimp only [setKey]
@[simp] theorem setKey_flash (n : Nat) (k : KeySlot) : (d.setKey n k).flash = d.flash := by dsimp only [setKey]
@[simp] theorem setKey_settings (n : Nat) (k : KeySlot) : (d.setKey n k).settings = d.settings := by dsimp only [setKey]
@[simp] theorem setKey_field (n : Nat) (k : KeySlot) : (d.setKey n k).field = d.field := by dsimp only [setKey]
@[simp] theorem setKey_out (n : Nat) (k : KeySlot) : (d.setKey n k).out = d.out := by dsimp only [setKey]

@[simp] theorem send_variant (o : Output) : (d.send o).variant = d.variant := by dsimp only [send]
@[simp] theorem send_clk (o : Output) : (d.send o).clk = d.clk := by dsimp only [send]
@[simp] theorem send_ctr (o : Output) : (d.send o).ctr = d.ctr := by dsimp only [send]
@[simp] theorem send_supply (o : Output) : (d.send o).supply = d.supply := by dsimp only [send]
@[simp] theorem send_lanes (o : Output) : (d.send o).lanes = d.lanes := by dsimp only [send]
@[simp] theorem send_combs (o : Output) : (d.send o).combs = d.combs := by dsimp only [send]
@[simp] theorem send_arb (o : Output) : (d.send o).arb = d.arb := by dsimp only [send]
@[simp] theorem send_hive (o : Output) : (d.send o).hive = d.hive := by dsimp only [send]
@[simp] theorem send_receipts (o : Output) : (d.send o).receipts = d.receipts := by dsimp only [send]
@[simp] theorem send_wag (o : Output) : (d.send o).wag = d.wag := by dsimp only [send]
@[simp] theorem send_wagEps (o : Output) : (d.send o).wagEps = d.wagEps := by dsimp only [send]
@[simp] theorem send_time (o : Output) : (d.send o).time = d.time := by dsimp only [send]
@[simp] theorem send_store (o : Output) : (d.send o).store = d.store := by dsimp only [send]
@[simp] theorem send_staging (o : Output) : (d.send o).staging = d.staging := by dsimp only [send]
@[simp] theorem send_power (o : Output) : (d.send o).power = d.power := by dsimp only [send]
@[simp] theorem send_close (o : Output) : (d.send o).close = d.close := by dsimp only [send]
@[simp] theorem send_ports (o : Output) : (d.send o).ports = d.ports := by dsimp only [send]
@[simp] theorem send_portsCfg (o : Output) : (d.send o).portsCfg = d.portsCfg := by dsimp only [send]
@[simp] theorem send_waits (o : Output) : (d.send o).waits = d.waits := by dsimp only [send]
@[simp] theorem send_exports (o : Output) : (d.send o).exports = d.exports := by dsimp only [send]
@[simp] theorem send_tiles (o : Output) : (d.send o).tiles = d.tiles := by dsimp only [send]
@[simp] theorem send_keys (o : Output) : (d.send o).keys = d.keys := by dsimp only [send]
@[simp] theorem send_rng (o : Output) : (d.send o).rng = d.rng := by dsimp only [send]
@[simp] theorem send_tamper (o : Output) : (d.send o).tamper = d.tamper := by dsimp only [send]
@[simp] theorem send_aon (o : Output) : (d.send o).aon = d.aon := by dsimp only [send]
@[simp] theorem send_log (o : Output) : (d.send o).log = d.log := by dsimp only [send]
@[simp] theorem send_life (o : Output) : (d.send o).life = d.life := by dsimp only [send]
@[simp] theorem send_debug (o : Output) : (d.send o).dbg = d.dbg := by dsimp only [send]
@[simp] theorem send_cores (o : Output) : (d.send o).cores = d.cores := by dsimp only [send]
@[simp] theorem send_flash (o : Output) : (d.send o).flash = d.flash := by dsimp only [send]
@[simp] theorem send_settings (o : Output) : (d.send o).settings = d.settings := by dsimp only [send]
@[simp] theorem send_field (o : Output) : (d.send o).field = d.field := by dsimp only [send]

@[simp] theorem free_variant : d.free.2.variant = d.variant := by dsimp only [free]
@[simp] theorem free_clk : d.free.2.clk = d.clk := by dsimp only [free]
@[simp] theorem free_supply : d.free.2.supply = d.supply := by dsimp only [free]
@[simp] theorem free_lanes : d.free.2.lanes = d.lanes := by dsimp only [free]
@[simp] theorem free_combs : d.free.2.combs = d.combs := by dsimp only [free]
@[simp] theorem free_arb : d.free.2.arb = d.arb := by dsimp only [free]
@[simp] theorem free_hive : d.free.2.hive = d.hive := by dsimp only [free]
@[simp] theorem free_receipts : d.free.2.receipts = d.receipts := by dsimp only [free]
@[simp] theorem free_wag : d.free.2.wag = d.wag := by dsimp only [free]
@[simp] theorem free_wagEps : d.free.2.wagEps = d.wagEps := by dsimp only [free]
@[simp] theorem free_time : d.free.2.time = d.time := by dsimp only [free]
@[simp] theorem free_store : d.free.2.store = d.store := by dsimp only [free]
@[simp] theorem free_staging : d.free.2.staging = d.staging := by dsimp only [free]
@[simp] theorem free_power : d.free.2.power = d.power := by dsimp only [free]
@[simp] theorem free_close : d.free.2.close = d.close := by dsimp only [free]
@[simp] theorem free_ports : d.free.2.ports = d.ports := by dsimp only [free]
@[simp] theorem free_portsCfg : d.free.2.portsCfg = d.portsCfg := by dsimp only [free]
@[simp] theorem free_waits : d.free.2.waits = d.waits := by dsimp only [free]
@[simp] theorem free_exports : d.free.2.exports = d.exports := by dsimp only [free]
@[simp] theorem free_tiles : d.free.2.tiles = d.tiles := by dsimp only [free]
@[simp] theorem free_keys : d.free.2.keys = d.keys := by dsimp only [free]
@[simp] theorem free_rng : d.free.2.rng = d.rng := by dsimp only [free]
@[simp] theorem free_tamper : d.free.2.tamper = d.tamper := by dsimp only [free]
@[simp] theorem free_aon : d.free.2.aon = d.aon := by dsimp only [free]
@[simp] theorem free_log : d.free.2.log = d.log := by dsimp only [free]
@[simp] theorem free_life : d.free.2.life = d.life := by dsimp only [free]
@[simp] theorem free_debug : d.free.2.dbg = d.dbg := by dsimp only [free]
@[simp] theorem free_cores : d.free.2.cores = d.cores := by dsimp only [free]
@[simp] theorem free_flash : d.free.2.flash = d.flash := by dsimp only [free]
@[simp] theorem free_settings : d.free.2.settings = d.settings := by dsimp only [free]
@[simp] theorem free_field : d.free.2.field = d.field := by dsimp only [free]
@[simp] theorem free_out : d.free.2.out = d.out := by dsimp only [free]

@[simp] theorem draw_variant (n : Nat) : (d.draw n).2.variant = d.variant := by dsimp only [draw]
@[simp] theorem draw_clk (n : Nat) : (d.draw n).2.clk = d.clk := by dsimp only [draw]
@[simp] theorem draw_supply (n : Nat) : (d.draw n).2.supply = d.supply := by dsimp only [draw]
@[simp] theorem draw_lanes (n : Nat) : (d.draw n).2.lanes = d.lanes := by dsimp only [draw]
@[simp] theorem draw_combs (n : Nat) : (d.draw n).2.combs = d.combs := by dsimp only [draw]
@[simp] theorem draw_arb (n : Nat) : (d.draw n).2.arb = d.arb := by dsimp only [draw]
@[simp] theorem draw_hive (n : Nat) : (d.draw n).2.hive = d.hive := by dsimp only [draw]
@[simp] theorem draw_receipts (n : Nat) : (d.draw n).2.receipts = d.receipts := by dsimp only [draw]
@[simp] theorem draw_wag (n : Nat) : (d.draw n).2.wag = d.wag := by dsimp only [draw]
@[simp] theorem draw_wagEps (n : Nat) : (d.draw n).2.wagEps = d.wagEps := by dsimp only [draw]
@[simp] theorem draw_time (n : Nat) : (d.draw n).2.time = d.time := by dsimp only [draw]
@[simp] theorem draw_store (n : Nat) : (d.draw n).2.store = d.store := by dsimp only [draw]
@[simp] theorem draw_staging (n : Nat) : (d.draw n).2.staging = d.staging := by dsimp only [draw]
@[simp] theorem draw_power (n : Nat) : (d.draw n).2.power = d.power := by dsimp only [draw]
@[simp] theorem draw_close (n : Nat) : (d.draw n).2.close = d.close := by dsimp only [draw]
@[simp] theorem draw_ports (n : Nat) : (d.draw n).2.ports = d.ports := by dsimp only [draw]
@[simp] theorem draw_portsCfg (n : Nat) : (d.draw n).2.portsCfg = d.portsCfg := by dsimp only [draw]
@[simp] theorem draw_waits (n : Nat) : (d.draw n).2.waits = d.waits := by dsimp only [draw]
@[simp] theorem draw_exports (n : Nat) : (d.draw n).2.exports = d.exports := by dsimp only [draw]
@[simp] theorem draw_tiles (n : Nat) : (d.draw n).2.tiles = d.tiles := by dsimp only [draw]
@[simp] theorem draw_keys (n : Nat) : (d.draw n).2.keys = d.keys := by dsimp only [draw]
@[simp] theorem draw_rng (n : Nat) : (d.draw n).2.rng = d.rng := by dsimp only [draw]
@[simp] theorem draw_tamper (n : Nat) : (d.draw n).2.tamper = d.tamper := by dsimp only [draw]
@[simp] theorem draw_aon (n : Nat) : (d.draw n).2.aon = d.aon := by dsimp only [draw]
@[simp] theorem draw_log (n : Nat) : (d.draw n).2.log = d.log := by dsimp only [draw]
@[simp] theorem draw_life (n : Nat) : (d.draw n).2.life = d.life := by dsimp only [draw]
@[simp] theorem draw_debug (n : Nat) : (d.draw n).2.dbg = d.dbg := by dsimp only [draw]
@[simp] theorem draw_cores (n : Nat) : (d.draw n).2.cores = d.cores := by dsimp only [draw]
@[simp] theorem draw_flash (n : Nat) : (d.draw n).2.flash = d.flash := by dsimp only [draw]
@[simp] theorem draw_settings (n : Nat) : (d.draw n).2.settings = d.settings := by dsimp only [draw]
@[simp] theorem draw_field (n : Nat) : (d.draw n).2.field = d.field := by dsimp only [draw]
@[simp] theorem draw_out (n : Nat) : (d.draw n).2.out = d.out := by dsimp only [draw]

@[simp] theorem onSess_variant (p i : Nat) (f : Session → Session) : (d.onSess p i f).variant = d.variant := by dsimp only [onSess, onPort]
@[simp] theorem onSess_clk (p i : Nat) (f : Session → Session) : (d.onSess p i f).clk = d.clk := by dsimp only [onSess, onPort]
@[simp] theorem onSess_ctr (p i : Nat) (f : Session → Session) : (d.onSess p i f).ctr = d.ctr := by dsimp only [onSess, onPort]
@[simp] theorem onSess_supply (p i : Nat) (f : Session → Session) : (d.onSess p i f).supply = d.supply := by dsimp only [onSess, onPort]
@[simp] theorem onSess_lanes (p i : Nat) (f : Session → Session) : (d.onSess p i f).lanes = d.lanes := by dsimp only [onSess, onPort]
@[simp] theorem onSess_combs (p i : Nat) (f : Session → Session) : (d.onSess p i f).combs = d.combs := by dsimp only [onSess, onPort]
@[simp] theorem onSess_arb (p i : Nat) (f : Session → Session) : (d.onSess p i f).arb = d.arb := by dsimp only [onSess, onPort]
@[simp] theorem onSess_hive (p i : Nat) (f : Session → Session) : (d.onSess p i f).hive = d.hive := by dsimp only [onSess, onPort]
@[simp] theorem onSess_receipts (p i : Nat) (f : Session → Session) : (d.onSess p i f).receipts = d.receipts := by dsimp only [onSess, onPort]
@[simp] theorem onSess_wag (p i : Nat) (f : Session → Session) : (d.onSess p i f).wag = d.wag := by dsimp only [onSess, onPort]
@[simp] theorem onSess_wagEps (p i : Nat) (f : Session → Session) : (d.onSess p i f).wagEps = d.wagEps := by dsimp only [onSess, onPort]
@[simp] theorem onSess_time (p i : Nat) (f : Session → Session) : (d.onSess p i f).time = d.time := by dsimp only [onSess, onPort]
@[simp] theorem onSess_store (p i : Nat) (f : Session → Session) : (d.onSess p i f).store = d.store := by dsimp only [onSess, onPort]
@[simp] theorem onSess_staging (p i : Nat) (f : Session → Session) : (d.onSess p i f).staging = d.staging := by dsimp only [onSess, onPort]
@[simp] theorem onSess_power (p i : Nat) (f : Session → Session) : (d.onSess p i f).power = d.power := by dsimp only [onSess, onPort]
@[simp] theorem onSess_close (p i : Nat) (f : Session → Session) : (d.onSess p i f).close = d.close := by dsimp only [onSess, onPort]
@[simp] theorem onSess_portsCfg (p i : Nat) (f : Session → Session) : (d.onSess p i f).portsCfg = d.portsCfg := by dsimp only [onSess, onPort]
@[simp] theorem onSess_waits (p i : Nat) (f : Session → Session) : (d.onSess p i f).waits = d.waits := by dsimp only [onSess, onPort]
@[simp] theorem onSess_exports (p i : Nat) (f : Session → Session) : (d.onSess p i f).exports = d.exports := by dsimp only [onSess, onPort]
@[simp] theorem onSess_tiles (p i : Nat) (f : Session → Session) : (d.onSess p i f).tiles = d.tiles := by dsimp only [onSess, onPort]
@[simp] theorem onSess_keys (p i : Nat) (f : Session → Session) : (d.onSess p i f).keys = d.keys := by dsimp only [onSess, onPort]
@[simp] theorem onSess_rng (p i : Nat) (f : Session → Session) : (d.onSess p i f).rng = d.rng := by dsimp only [onSess, onPort]
@[simp] theorem onSess_tamper (p i : Nat) (f : Session → Session) : (d.onSess p i f).tamper = d.tamper := by dsimp only [onSess, onPort]
@[simp] theorem onSess_aon (p i : Nat) (f : Session → Session) : (d.onSess p i f).aon = d.aon := by dsimp only [onSess, onPort]
@[simp] theorem onSess_log (p i : Nat) (f : Session → Session) : (d.onSess p i f).log = d.log := by dsimp only [onSess, onPort]
@[simp] theorem onSess_life (p i : Nat) (f : Session → Session) : (d.onSess p i f).life = d.life := by dsimp only [onSess, onPort]
@[simp] theorem onSess_debug (p i : Nat) (f : Session → Session) : (d.onSess p i f).dbg = d.dbg := by dsimp only [onSess, onPort]
@[simp] theorem onSess_cores (p i : Nat) (f : Session → Session) : (d.onSess p i f).cores = d.cores := by dsimp only [onSess, onPort]
@[simp] theorem onSess_flash (p i : Nat) (f : Session → Session) : (d.onSess p i f).flash = d.flash := by dsimp only [onSess, onPort]
@[simp] theorem onSess_settings (p i : Nat) (f : Session → Session) : (d.onSess p i f).settings = d.settings := by dsimp only [onSess, onPort]
@[simp] theorem onSess_field (p i : Nat) (f : Session → Session) : (d.onSess p i f).field = d.field := by dsimp only [onSess, onPort]
@[simp] theorem onSess_out (p i : Nat) (f : Session → Session) : (d.onSess p i f).out = d.out := by dsimp only [onSess, onPort]

@[simp] theorem onMbx_variant (p : Nat) (f : Mailbox → Mailbox) : (d.onMbx p f).variant = d.variant := by dsimp only [onMbx, onPort]
@[simp] theorem onMbx_clk (p : Nat) (f : Mailbox → Mailbox) : (d.onMbx p f).clk = d.clk := by dsimp only [onMbx, onPort]
@[simp] theorem onMbx_ctr (p : Nat) (f : Mailbox → Mailbox) : (d.onMbx p f).ctr = d.ctr := by dsimp only [onMbx, onPort]
@[simp] theorem onMbx_supply (p : Nat) (f : Mailbox → Mailbox) : (d.onMbx p f).supply = d.supply := by dsimp only [onMbx, onPort]
@[simp] theorem onMbx_lanes (p : Nat) (f : Mailbox → Mailbox) : (d.onMbx p f).lanes = d.lanes := by dsimp only [onMbx, onPort]
@[simp] theorem onMbx_combs (p : Nat) (f : Mailbox → Mailbox) : (d.onMbx p f).combs = d.combs := by dsimp only [onMbx, onPort]
@[simp] theorem onMbx_arb (p : Nat) (f : Mailbox → Mailbox) : (d.onMbx p f).arb = d.arb := by dsimp only [onMbx, onPort]
@[simp] theorem onMbx_hive (p : Nat) (f : Mailbox → Mailbox) : (d.onMbx p f).hive = d.hive := by dsimp only [onMbx, onPort]
@[simp] theorem onMbx_receipts (p : Nat) (f : Mailbox → Mailbox) : (d.onMbx p f).receipts = d.receipts := by dsimp only [onMbx, onPort]
@[simp] theorem onMbx_wag (p : Nat) (f : Mailbox → Mailbox) : (d.onMbx p f).wag = d.wag := by dsimp only [onMbx, onPort]
@[simp] theorem onMbx_wagEps (p : Nat) (f : Mailbox → Mailbox) : (d.onMbx p f).wagEps = d.wagEps := by dsimp only [onMbx, onPort]
@[simp] theorem onMbx_time (p : Nat) (f : Mailbox → Mailbox) : (d.onMbx p f).time = d.time := by dsimp only [onMbx, onPort]
@[simp] theorem onMbx_store (p : Nat) (f : Mailbox → Mailbox) : (d.onMbx p f).store = d.store := by dsimp only [onMbx, onPort]
@[simp] theorem onMbx_staging (p : Nat) (f : Mailbox → Mailbox) : (d.onMbx p f).staging = d.staging := by dsimp only [onMbx, onPort]
@[simp] theorem onMbx_power (p : Nat) (f : Mailbox → Mailbox) : (d.onMbx p f).power = d.power := by dsimp only [onMbx, onPort]
@[simp] theorem onMbx_close (p : Nat) (f : Mailbox → Mailbox) : (d.onMbx p f).close = d.close := by dsimp only [onMbx, onPort]
@[simp] theorem onMbx_portsCfg (p : Nat) (f : Mailbox → Mailbox) : (d.onMbx p f).portsCfg = d.portsCfg := by dsimp only [onMbx, onPort]
@[simp] theorem onMbx_waits (p : Nat) (f : Mailbox → Mailbox) : (d.onMbx p f).waits = d.waits := by dsimp only [onMbx, onPort]
@[simp] theorem onMbx_exports (p : Nat) (f : Mailbox → Mailbox) : (d.onMbx p f).exports = d.exports := by dsimp only [onMbx, onPort]
@[simp] theorem onMbx_tiles (p : Nat) (f : Mailbox → Mailbox) : (d.onMbx p f).tiles = d.tiles := by dsimp only [onMbx, onPort]
@[simp] theorem onMbx_keys (p : Nat) (f : Mailbox → Mailbox) : (d.onMbx p f).keys = d.keys := by dsimp only [onMbx, onPort]
@[simp] theorem onMbx_rng (p : Nat) (f : Mailbox → Mailbox) : (d.onMbx p f).rng = d.rng := by dsimp only [onMbx, onPort]
@[simp] theorem onMbx_tamper (p : Nat) (f : Mailbox → Mailbox) : (d.onMbx p f).tamper = d.tamper := by dsimp only [onMbx, onPort]
@[simp] theorem onMbx_aon (p : Nat) (f : Mailbox → Mailbox) : (d.onMbx p f).aon = d.aon := by dsimp only [onMbx, onPort]
@[simp] theorem onMbx_log (p : Nat) (f : Mailbox → Mailbox) : (d.onMbx p f).log = d.log := by dsimp only [onMbx, onPort]
@[simp] theorem onMbx_life (p : Nat) (f : Mailbox → Mailbox) : (d.onMbx p f).life = d.life := by dsimp only [onMbx, onPort]
@[simp] theorem onMbx_debug (p : Nat) (f : Mailbox → Mailbox) : (d.onMbx p f).dbg = d.dbg := by dsimp only [onMbx, onPort]
@[simp] theorem onMbx_cores (p : Nat) (f : Mailbox → Mailbox) : (d.onMbx p f).cores = d.cores := by dsimp only [onMbx, onPort]
@[simp] theorem onMbx_flash (p : Nat) (f : Mailbox → Mailbox) : (d.onMbx p f).flash = d.flash := by dsimp only [onMbx, onPort]
@[simp] theorem onMbx_settings (p : Nat) (f : Mailbox → Mailbox) : (d.onMbx p f).settings = d.settings := by dsimp only [onMbx, onPort]
@[simp] theorem onMbx_field (p : Nat) (f : Mailbox → Mailbox) : (d.onMbx p f).field = d.field := by dsimp only [onMbx, onPort]
@[simp] theorem onMbx_out (p : Nat) (f : Mailbox → Mailbox) : (d.onMbx p f).out = d.out := by dsimp only [onMbx, onPort]

@[simp] theorem onSlot_variant (p i : Nat) (f : Slot → Slot) : (d.onSlot p i f).variant = d.variant := by dsimp only [onSlot, onMbx, onPort]
@[simp] theorem onSlot_clk (p i : Nat) (f : Slot → Slot) : (d.onSlot p i f).clk = d.clk := by dsimp only [onSlot, onMbx, onPort]
@[simp] theorem onSlot_ctr (p i : Nat) (f : Slot → Slot) : (d.onSlot p i f).ctr = d.ctr := by dsimp only [onSlot, onMbx, onPort]
@[simp] theorem onSlot_supply (p i : Nat) (f : Slot → Slot) : (d.onSlot p i f).supply = d.supply := by dsimp only [onSlot, onMbx, onPort]
@[simp] theorem onSlot_lanes (p i : Nat) (f : Slot → Slot) : (d.onSlot p i f).lanes = d.lanes := by dsimp only [onSlot, onMbx, onPort]
@[simp] theorem onSlot_combs (p i : Nat) (f : Slot → Slot) : (d.onSlot p i f).combs = d.combs := by dsimp only [onSlot, onMbx, onPort]
@[simp] theorem onSlot_arb (p i : Nat) (f : Slot → Slot) : (d.onSlot p i f).arb = d.arb := by dsimp only [onSlot, onMbx, onPort]
@[simp] theorem onSlot_hive (p i : Nat) (f : Slot → Slot) : (d.onSlot p i f).hive = d.hive := by dsimp only [onSlot, onMbx, onPort]
@[simp] theorem onSlot_receipts (p i : Nat) (f : Slot → Slot) : (d.onSlot p i f).receipts = d.receipts := by dsimp only [onSlot, onMbx, onPort]
@[simp] theorem onSlot_wag (p i : Nat) (f : Slot → Slot) : (d.onSlot p i f).wag = d.wag := by dsimp only [onSlot, onMbx, onPort]
@[simp] theorem onSlot_wagEps (p i : Nat) (f : Slot → Slot) : (d.onSlot p i f).wagEps = d.wagEps := by dsimp only [onSlot, onMbx, onPort]
@[simp] theorem onSlot_time (p i : Nat) (f : Slot → Slot) : (d.onSlot p i f).time = d.time := by dsimp only [onSlot, onMbx, onPort]
@[simp] theorem onSlot_store (p i : Nat) (f : Slot → Slot) : (d.onSlot p i f).store = d.store := by dsimp only [onSlot, onMbx, onPort]
@[simp] theorem onSlot_staging (p i : Nat) (f : Slot → Slot) : (d.onSlot p i f).staging = d.staging := by dsimp only [onSlot, onMbx, onPort]
@[simp] theorem onSlot_power (p i : Nat) (f : Slot → Slot) : (d.onSlot p i f).power = d.power := by dsimp only [onSlot, onMbx, onPort]
@[simp] theorem onSlot_close (p i : Nat) (f : Slot → Slot) : (d.onSlot p i f).close = d.close := by dsimp only [onSlot, onMbx, onPort]
@[simp] theorem onSlot_portsCfg (p i : Nat) (f : Slot → Slot) : (d.onSlot p i f).portsCfg = d.portsCfg := by dsimp only [onSlot, onMbx, onPort]
@[simp] theorem onSlot_waits (p i : Nat) (f : Slot → Slot) : (d.onSlot p i f).waits = d.waits := by dsimp only [onSlot, onMbx, onPort]
@[simp] theorem onSlot_exports (p i : Nat) (f : Slot → Slot) : (d.onSlot p i f).exports = d.exports := by dsimp only [onSlot, onMbx, onPort]
@[simp] theorem onSlot_tiles (p i : Nat) (f : Slot → Slot) : (d.onSlot p i f).tiles = d.tiles := by dsimp only [onSlot, onMbx, onPort]
@[simp] theorem onSlot_keys (p i : Nat) (f : Slot → Slot) : (d.onSlot p i f).keys = d.keys := by dsimp only [onSlot, onMbx, onPort]
@[simp] theorem onSlot_rng (p i : Nat) (f : Slot → Slot) : (d.onSlot p i f).rng = d.rng := by dsimp only [onSlot, onMbx, onPort]
@[simp] theorem onSlot_tamper (p i : Nat) (f : Slot → Slot) : (d.onSlot p i f).tamper = d.tamper := by dsimp only [onSlot, onMbx, onPort]
@[simp] theorem onSlot_aon (p i : Nat) (f : Slot → Slot) : (d.onSlot p i f).aon = d.aon := by dsimp only [onSlot, onMbx, onPort]
@[simp] theorem onSlot_log (p i : Nat) (f : Slot → Slot) : (d.onSlot p i f).log = d.log := by dsimp only [onSlot, onMbx, onPort]
@[simp] theorem onSlot_life (p i : Nat) (f : Slot → Slot) : (d.onSlot p i f).life = d.life := by dsimp only [onSlot, onMbx, onPort]
@[simp] theorem onSlot_debug (p i : Nat) (f : Slot → Slot) : (d.onSlot p i f).dbg = d.dbg := by dsimp only [onSlot, onMbx, onPort]
@[simp] theorem onSlot_cores (p i : Nat) (f : Slot → Slot) : (d.onSlot p i f).cores = d.cores := by dsimp only [onSlot, onMbx, onPort]
@[simp] theorem onSlot_flash (p i : Nat) (f : Slot → Slot) : (d.onSlot p i f).flash = d.flash := by dsimp only [onSlot, onMbx, onPort]
@[simp] theorem onSlot_settings (p i : Nat) (f : Slot → Slot) : (d.onSlot p i f).settings = d.settings := by dsimp only [onSlot, onMbx, onPort]
@[simp] theorem onSlot_field (p i : Nat) (f : Slot → Slot) : (d.onSlot p i f).field = d.field := by dsimp only [onSlot, onMbx, onPort]
@[simp] theorem onSlot_out (p i : Nat) (f : Slot → Slot) : (d.onSlot p i f).out = d.out := by dsimp only [onSlot, onMbx, onPort]

@[simp] theorem onPower_power (f : Power → Power) : (d.onPower f).power = f d.power := by dsimp only [onPower]
@[simp] theorem onPower_variant (f : Power → Power) : (d.onPower f).variant = d.variant := by dsimp only [onPower]
@[simp] theorem onPower_clk (f : Power → Power) : (d.onPower f).clk = d.clk := by dsimp only [onPower]
@[simp] theorem onPower_ctr (f : Power → Power) : (d.onPower f).ctr = d.ctr := by dsimp only [onPower]
@[simp] theorem onPower_supply (f : Power → Power) : (d.onPower f).supply = d.supply := by dsimp only [onPower]
@[simp] theorem onPower_lanes (f : Power → Power) : (d.onPower f).lanes = d.lanes := by dsimp only [onPower]
@[simp] theorem onPower_combs (f : Power → Power) : (d.onPower f).combs = d.combs := by dsimp only [onPower]
@[simp] theorem onPower_arb (f : Power → Power) : (d.onPower f).arb = d.arb := by dsimp only [onPower]
@[simp] theorem onPower_hive (f : Power → Power) : (d.onPower f).hive = d.hive := by dsimp only [onPower]
@[simp] theorem onPower_receipts (f : Power → Power) : (d.onPower f).receipts = d.receipts := by dsimp only [onPower]
@[simp] theorem onPower_wag (f : Power → Power) : (d.onPower f).wag = d.wag := by dsimp only [onPower]
@[simp] theorem onPower_wagEps (f : Power → Power) : (d.onPower f).wagEps = d.wagEps := by dsimp only [onPower]
@[simp] theorem onPower_time (f : Power → Power) : (d.onPower f).time = d.time := by dsimp only [onPower]
@[simp] theorem onPower_store (f : Power → Power) : (d.onPower f).store = d.store := by dsimp only [onPower]
@[simp] theorem onPower_staging (f : Power → Power) : (d.onPower f).staging = d.staging := by dsimp only [onPower]
@[simp] theorem onPower_close (f : Power → Power) : (d.onPower f).close = d.close := by dsimp only [onPower]
@[simp] theorem onPower_ports (f : Power → Power) : (d.onPower f).ports = d.ports := by dsimp only [onPower]
@[simp] theorem onPower_portsCfg (f : Power → Power) : (d.onPower f).portsCfg = d.portsCfg := by dsimp only [onPower]
@[simp] theorem onPower_waits (f : Power → Power) : (d.onPower f).waits = d.waits := by dsimp only [onPower]
@[simp] theorem onPower_exports (f : Power → Power) : (d.onPower f).exports = d.exports := by dsimp only [onPower]
@[simp] theorem onPower_tiles (f : Power → Power) : (d.onPower f).tiles = d.tiles := by dsimp only [onPower]
@[simp] theorem onPower_keys (f : Power → Power) : (d.onPower f).keys = d.keys := by dsimp only [onPower]
@[simp] theorem onPower_rng (f : Power → Power) : (d.onPower f).rng = d.rng := by dsimp only [onPower]
@[simp] theorem onPower_tamper (f : Power → Power) : (d.onPower f).tamper = d.tamper := by dsimp only [onPower]
@[simp] theorem onPower_aon (f : Power → Power) : (d.onPower f).aon = d.aon := by dsimp only [onPower]
@[simp] theorem onPower_log (f : Power → Power) : (d.onPower f).log = d.log := by dsimp only [onPower]
@[simp] theorem onPower_life (f : Power → Power) : (d.onPower f).life = d.life := by dsimp only [onPower]
@[simp] theorem onPower_debug (f : Power → Power) : (d.onPower f).dbg = d.dbg := by dsimp only [onPower]
@[simp] theorem onPower_cores (f : Power → Power) : (d.onPower f).cores = d.cores := by dsimp only [onPower]
@[simp] theorem onPower_flash (f : Power → Power) : (d.onPower f).flash = d.flash := by dsimp only [onPower]
@[simp] theorem onPower_settings (f : Power → Power) : (d.onPower f).settings = d.settings := by dsimp only [onPower]
@[simp] theorem onPower_field (f : Power → Power) : (d.onPower f).field = d.field := by dsimp only [onPower]
@[simp] theorem onPower_out (f : Power → Power) : (d.onPower f).out = d.out := by dsimp only [onPower]

@[simp] theorem onClose_close (f : CloseSeq → CloseSeq) : (d.onClose f).close = f d.close := by dsimp only [onClose]
@[simp] theorem onClose_variant (f : CloseSeq → CloseSeq) : (d.onClose f).variant = d.variant := by dsimp only [onClose]
@[simp] theorem onClose_clk (f : CloseSeq → CloseSeq) : (d.onClose f).clk = d.clk := by dsimp only [onClose]
@[simp] theorem onClose_ctr (f : CloseSeq → CloseSeq) : (d.onClose f).ctr = d.ctr := by dsimp only [onClose]
@[simp] theorem onClose_supply (f : CloseSeq → CloseSeq) : (d.onClose f).supply = d.supply := by dsimp only [onClose]
@[simp] theorem onClose_lanes (f : CloseSeq → CloseSeq) : (d.onClose f).lanes = d.lanes := by dsimp only [onClose]
@[simp] theorem onClose_combs (f : CloseSeq → CloseSeq) : (d.onClose f).combs = d.combs := by dsimp only [onClose]
@[simp] theorem onClose_arb (f : CloseSeq → CloseSeq) : (d.onClose f).arb = d.arb := by dsimp only [onClose]
@[simp] theorem onClose_hive (f : CloseSeq → CloseSeq) : (d.onClose f).hive = d.hive := by dsimp only [onClose]
@[simp] theorem onClose_receipts (f : CloseSeq → CloseSeq) : (d.onClose f).receipts = d.receipts := by dsimp only [onClose]
@[simp] theorem onClose_wag (f : CloseSeq → CloseSeq) : (d.onClose f).wag = d.wag := by dsimp only [onClose]
@[simp] theorem onClose_wagEps (f : CloseSeq → CloseSeq) : (d.onClose f).wagEps = d.wagEps := by dsimp only [onClose]
@[simp] theorem onClose_time (f : CloseSeq → CloseSeq) : (d.onClose f).time = d.time := by dsimp only [onClose]
@[simp] theorem onClose_store (f : CloseSeq → CloseSeq) : (d.onClose f).store = d.store := by dsimp only [onClose]
@[simp] theorem onClose_staging (f : CloseSeq → CloseSeq) : (d.onClose f).staging = d.staging := by dsimp only [onClose]
@[simp] theorem onClose_power (f : CloseSeq → CloseSeq) : (d.onClose f).power = d.power := by dsimp only [onClose]
@[simp] theorem onClose_ports (f : CloseSeq → CloseSeq) : (d.onClose f).ports = d.ports := by dsimp only [onClose]
@[simp] theorem onClose_portsCfg (f : CloseSeq → CloseSeq) : (d.onClose f).portsCfg = d.portsCfg := by dsimp only [onClose]
@[simp] theorem onClose_waits (f : CloseSeq → CloseSeq) : (d.onClose f).waits = d.waits := by dsimp only [onClose]
@[simp] theorem onClose_exports (f : CloseSeq → CloseSeq) : (d.onClose f).exports = d.exports := by dsimp only [onClose]
@[simp] theorem onClose_tiles (f : CloseSeq → CloseSeq) : (d.onClose f).tiles = d.tiles := by dsimp only [onClose]
@[simp] theorem onClose_keys (f : CloseSeq → CloseSeq) : (d.onClose f).keys = d.keys := by dsimp only [onClose]
@[simp] theorem onClose_rng (f : CloseSeq → CloseSeq) : (d.onClose f).rng = d.rng := by dsimp only [onClose]
@[simp] theorem onClose_tamper (f : CloseSeq → CloseSeq) : (d.onClose f).tamper = d.tamper := by dsimp only [onClose]
@[simp] theorem onClose_aon (f : CloseSeq → CloseSeq) : (d.onClose f).aon = d.aon := by dsimp only [onClose]
@[simp] theorem onClose_log (f : CloseSeq → CloseSeq) : (d.onClose f).log = d.log := by dsimp only [onClose]
@[simp] theorem onClose_life (f : CloseSeq → CloseSeq) : (d.onClose f).life = d.life := by dsimp only [onClose]
@[simp] theorem onClose_debug (f : CloseSeq → CloseSeq) : (d.onClose f).dbg = d.dbg := by dsimp only [onClose]
@[simp] theorem onClose_cores (f : CloseSeq → CloseSeq) : (d.onClose f).cores = d.cores := by dsimp only [onClose]
@[simp] theorem onClose_flash (f : CloseSeq → CloseSeq) : (d.onClose f).flash = d.flash := by dsimp only [onClose]
@[simp] theorem onClose_settings (f : CloseSeq → CloseSeq) : (d.onClose f).settings = d.settings := by dsimp only [onClose]
@[simp] theorem onClose_field (f : CloseSeq → CloseSeq) : (d.onClose f).field = d.field := by dsimp only [onClose]
@[simp] theorem onClose_out (f : CloseSeq → CloseSeq) : (d.onClose f).out = d.out := by dsimp only [onClose]

@[simp] theorem onSettings_settings (f : Settings → Settings) : (d.onSettings f).settings = f d.settings := by dsimp only [onSettings]
@[simp] theorem onSettings_variant (f : Settings → Settings) : (d.onSettings f).variant = d.variant := by dsimp only [onSettings]
@[simp] theorem onSettings_clk (f : Settings → Settings) : (d.onSettings f).clk = d.clk := by dsimp only [onSettings]
@[simp] theorem onSettings_ctr (f : Settings → Settings) : (d.onSettings f).ctr = d.ctr := by dsimp only [onSettings]
@[simp] theorem onSettings_supply (f : Settings → Settings) : (d.onSettings f).supply = d.supply := by dsimp only [onSettings]
@[simp] theorem onSettings_lanes (f : Settings → Settings) : (d.onSettings f).lanes = d.lanes := by dsimp only [onSettings]
@[simp] theorem onSettings_combs (f : Settings → Settings) : (d.onSettings f).combs = d.combs := by dsimp only [onSettings]
@[simp] theorem onSettings_arb (f : Settings → Settings) : (d.onSettings f).arb = d.arb := by dsimp only [onSettings]
@[simp] theorem onSettings_hive (f : Settings → Settings) : (d.onSettings f).hive = d.hive := by dsimp only [onSettings]
@[simp] theorem onSettings_receipts (f : Settings → Settings) : (d.onSettings f).receipts = d.receipts := by dsimp only [onSettings]
@[simp] theorem onSettings_wag (f : Settings → Settings) : (d.onSettings f).wag = d.wag := by dsimp only [onSettings]
@[simp] theorem onSettings_wagEps (f : Settings → Settings) : (d.onSettings f).wagEps = d.wagEps := by dsimp only [onSettings]
@[simp] theorem onSettings_time (f : Settings → Settings) : (d.onSettings f).time = d.time := by dsimp only [onSettings]
@[simp] theorem onSettings_store (f : Settings → Settings) : (d.onSettings f).store = d.store := by dsimp only [onSettings]
@[simp] theorem onSettings_staging (f : Settings → Settings) : (d.onSettings f).staging = d.staging := by dsimp only [onSettings]
@[simp] theorem onSettings_power (f : Settings → Settings) : (d.onSettings f).power = d.power := by dsimp only [onSettings]
@[simp] theorem onSettings_close (f : Settings → Settings) : (d.onSettings f).close = d.close := by dsimp only [onSettings]
@[simp] theorem onSettings_ports (f : Settings → Settings) : (d.onSettings f).ports = d.ports := by dsimp only [onSettings]
@[simp] theorem onSettings_portsCfg (f : Settings → Settings) : (d.onSettings f).portsCfg = d.portsCfg := by dsimp only [onSettings]
@[simp] theorem onSettings_waits (f : Settings → Settings) : (d.onSettings f).waits = d.waits := by dsimp only [onSettings]
@[simp] theorem onSettings_exports (f : Settings → Settings) : (d.onSettings f).exports = d.exports := by dsimp only [onSettings]
@[simp] theorem onSettings_tiles (f : Settings → Settings) : (d.onSettings f).tiles = d.tiles := by dsimp only [onSettings]
@[simp] theorem onSettings_keys (f : Settings → Settings) : (d.onSettings f).keys = d.keys := by dsimp only [onSettings]
@[simp] theorem onSettings_rng (f : Settings → Settings) : (d.onSettings f).rng = d.rng := by dsimp only [onSettings]
@[simp] theorem onSettings_tamper (f : Settings → Settings) : (d.onSettings f).tamper = d.tamper := by dsimp only [onSettings]
@[simp] theorem onSettings_aon (f : Settings → Settings) : (d.onSettings f).aon = d.aon := by dsimp only [onSettings]
@[simp] theorem onSettings_log (f : Settings → Settings) : (d.onSettings f).log = d.log := by dsimp only [onSettings]
@[simp] theorem onSettings_life (f : Settings → Settings) : (d.onSettings f).life = d.life := by dsimp only [onSettings]
@[simp] theorem onSettings_debug (f : Settings → Settings) : (d.onSettings f).dbg = d.dbg := by dsimp only [onSettings]
@[simp] theorem onSettings_cores (f : Settings → Settings) : (d.onSettings f).cores = d.cores := by dsimp only [onSettings]
@[simp] theorem onSettings_flash (f : Settings → Settings) : (d.onSettings f).flash = d.flash := by dsimp only [onSettings]
@[simp] theorem onSettings_field (f : Settings → Settings) : (d.onSettings f).field = d.field := by dsimp only [onSettings]
@[simp] theorem onSettings_out (f : Settings → Settings) : (d.onSettings f).out = d.out := by dsimp only [onSettings]

@[simp] theorem onField_field (f : FieldLink → FieldLink) : (d.onField f).field = f d.field := by dsimp only [onField]
@[simp] theorem onField_variant (f : FieldLink → FieldLink) : (d.onField f).variant = d.variant := by dsimp only [onField]
@[simp] theorem onField_clk (f : FieldLink → FieldLink) : (d.onField f).clk = d.clk := by dsimp only [onField]
@[simp] theorem onField_ctr (f : FieldLink → FieldLink) : (d.onField f).ctr = d.ctr := by dsimp only [onField]
@[simp] theorem onField_supply (f : FieldLink → FieldLink) : (d.onField f).supply = d.supply := by dsimp only [onField]
@[simp] theorem onField_lanes (f : FieldLink → FieldLink) : (d.onField f).lanes = d.lanes := by dsimp only [onField]
@[simp] theorem onField_combs (f : FieldLink → FieldLink) : (d.onField f).combs = d.combs := by dsimp only [onField]
@[simp] theorem onField_arb (f : FieldLink → FieldLink) : (d.onField f).arb = d.arb := by dsimp only [onField]
@[simp] theorem onField_hive (f : FieldLink → FieldLink) : (d.onField f).hive = d.hive := by dsimp only [onField]
@[simp] theorem onField_receipts (f : FieldLink → FieldLink) : (d.onField f).receipts = d.receipts := by dsimp only [onField]
@[simp] theorem onField_wag (f : FieldLink → FieldLink) : (d.onField f).wag = d.wag := by dsimp only [onField]
@[simp] theorem onField_wagEps (f : FieldLink → FieldLink) : (d.onField f).wagEps = d.wagEps := by dsimp only [onField]
@[simp] theorem onField_time (f : FieldLink → FieldLink) : (d.onField f).time = d.time := by dsimp only [onField]
@[simp] theorem onField_store (f : FieldLink → FieldLink) : (d.onField f).store = d.store := by dsimp only [onField]
@[simp] theorem onField_staging (f : FieldLink → FieldLink) : (d.onField f).staging = d.staging := by dsimp only [onField]
@[simp] theorem onField_power (f : FieldLink → FieldLink) : (d.onField f).power = d.power := by dsimp only [onField]
@[simp] theorem onField_close (f : FieldLink → FieldLink) : (d.onField f).close = d.close := by dsimp only [onField]
@[simp] theorem onField_ports (f : FieldLink → FieldLink) : (d.onField f).ports = d.ports := by dsimp only [onField]
@[simp] theorem onField_portsCfg (f : FieldLink → FieldLink) : (d.onField f).portsCfg = d.portsCfg := by dsimp only [onField]
@[simp] theorem onField_waits (f : FieldLink → FieldLink) : (d.onField f).waits = d.waits := by dsimp only [onField]
@[simp] theorem onField_exports (f : FieldLink → FieldLink) : (d.onField f).exports = d.exports := by dsimp only [onField]
@[simp] theorem onField_tiles (f : FieldLink → FieldLink) : (d.onField f).tiles = d.tiles := by dsimp only [onField]
@[simp] theorem onField_keys (f : FieldLink → FieldLink) : (d.onField f).keys = d.keys := by dsimp only [onField]
@[simp] theorem onField_rng (f : FieldLink → FieldLink) : (d.onField f).rng = d.rng := by dsimp only [onField]
@[simp] theorem onField_tamper (f : FieldLink → FieldLink) : (d.onField f).tamper = d.tamper := by dsimp only [onField]
@[simp] theorem onField_aon (f : FieldLink → FieldLink) : (d.onField f).aon = d.aon := by dsimp only [onField]
@[simp] theorem onField_log (f : FieldLink → FieldLink) : (d.onField f).log = d.log := by dsimp only [onField]
@[simp] theorem onField_life (f : FieldLink → FieldLink) : (d.onField f).life = d.life := by dsimp only [onField]
@[simp] theorem onField_debug (f : FieldLink → FieldLink) : (d.onField f).dbg = d.dbg := by dsimp only [onField]
@[simp] theorem onField_cores (f : FieldLink → FieldLink) : (d.onField f).cores = d.cores := by dsimp only [onField]
@[simp] theorem onField_flash (f : FieldLink → FieldLink) : (d.onField f).flash = d.flash := by dsimp only [onField]
@[simp] theorem onField_settings (f : FieldLink → FieldLink) : (d.onField f).settings = d.settings := by dsimp only [onField]
@[simp] theorem onField_out (f : FieldLink → FieldLink) : (d.onField f).out = d.out := by dsimp only [onField]

@[simp] theorem onFlash_flash (f : CodeFlash → CodeFlash) : (d.onFlash f).flash = f d.flash := by dsimp only [onFlash]
@[simp] theorem onFlash_variant (f : CodeFlash → CodeFlash) : (d.onFlash f).variant = d.variant := by dsimp only [onFlash]
@[simp] theorem onFlash_clk (f : CodeFlash → CodeFlash) : (d.onFlash f).clk = d.clk := by dsimp only [onFlash]
@[simp] theorem onFlash_ctr (f : CodeFlash → CodeFlash) : (d.onFlash f).ctr = d.ctr := by dsimp only [onFlash]
@[simp] theorem onFlash_supply (f : CodeFlash → CodeFlash) : (d.onFlash f).supply = d.supply := by dsimp only [onFlash]
@[simp] theorem onFlash_lanes (f : CodeFlash → CodeFlash) : (d.onFlash f).lanes = d.lanes := by dsimp only [onFlash]
@[simp] theorem onFlash_combs (f : CodeFlash → CodeFlash) : (d.onFlash f).combs = d.combs := by dsimp only [onFlash]
@[simp] theorem onFlash_arb (f : CodeFlash → CodeFlash) : (d.onFlash f).arb = d.arb := by dsimp only [onFlash]
@[simp] theorem onFlash_hive (f : CodeFlash → CodeFlash) : (d.onFlash f).hive = d.hive := by dsimp only [onFlash]
@[simp] theorem onFlash_receipts (f : CodeFlash → CodeFlash) : (d.onFlash f).receipts = d.receipts := by dsimp only [onFlash]
@[simp] theorem onFlash_wag (f : CodeFlash → CodeFlash) : (d.onFlash f).wag = d.wag := by dsimp only [onFlash]
@[simp] theorem onFlash_wagEps (f : CodeFlash → CodeFlash) : (d.onFlash f).wagEps = d.wagEps := by dsimp only [onFlash]
@[simp] theorem onFlash_time (f : CodeFlash → CodeFlash) : (d.onFlash f).time = d.time := by dsimp only [onFlash]
@[simp] theorem onFlash_store (f : CodeFlash → CodeFlash) : (d.onFlash f).store = d.store := by dsimp only [onFlash]
@[simp] theorem onFlash_staging (f : CodeFlash → CodeFlash) : (d.onFlash f).staging = d.staging := by dsimp only [onFlash]
@[simp] theorem onFlash_power (f : CodeFlash → CodeFlash) : (d.onFlash f).power = d.power := by dsimp only [onFlash]
@[simp] theorem onFlash_close (f : CodeFlash → CodeFlash) : (d.onFlash f).close = d.close := by dsimp only [onFlash]
@[simp] theorem onFlash_ports (f : CodeFlash → CodeFlash) : (d.onFlash f).ports = d.ports := by dsimp only [onFlash]
@[simp] theorem onFlash_portsCfg (f : CodeFlash → CodeFlash) : (d.onFlash f).portsCfg = d.portsCfg := by dsimp only [onFlash]
@[simp] theorem onFlash_waits (f : CodeFlash → CodeFlash) : (d.onFlash f).waits = d.waits := by dsimp only [onFlash]
@[simp] theorem onFlash_exports (f : CodeFlash → CodeFlash) : (d.onFlash f).exports = d.exports := by dsimp only [onFlash]
@[simp] theorem onFlash_tiles (f : CodeFlash → CodeFlash) : (d.onFlash f).tiles = d.tiles := by dsimp only [onFlash]
@[simp] theorem onFlash_keys (f : CodeFlash → CodeFlash) : (d.onFlash f).keys = d.keys := by dsimp only [onFlash]
@[simp] theorem onFlash_rng (f : CodeFlash → CodeFlash) : (d.onFlash f).rng = d.rng := by dsimp only [onFlash]
@[simp] theorem onFlash_tamper (f : CodeFlash → CodeFlash) : (d.onFlash f).tamper = d.tamper := by dsimp only [onFlash]
@[simp] theorem onFlash_aon (f : CodeFlash → CodeFlash) : (d.onFlash f).aon = d.aon := by dsimp only [onFlash]
@[simp] theorem onFlash_log (f : CodeFlash → CodeFlash) : (d.onFlash f).log = d.log := by dsimp only [onFlash]
@[simp] theorem onFlash_life (f : CodeFlash → CodeFlash) : (d.onFlash f).life = d.life := by dsimp only [onFlash]
@[simp] theorem onFlash_debug (f : CodeFlash → CodeFlash) : (d.onFlash f).dbg = d.dbg := by dsimp only [onFlash]
@[simp] theorem onFlash_cores (f : CodeFlash → CodeFlash) : (d.onFlash f).cores = d.cores := by dsimp only [onFlash]
@[simp] theorem onFlash_settings (f : CodeFlash → CodeFlash) : (d.onFlash f).settings = d.settings := by dsimp only [onFlash]
@[simp] theorem onFlash_field (f : CodeFlash → CodeFlash) : (d.onFlash f).field = d.field := by dsimp only [onFlash]
@[simp] theorem onFlash_out (f : CodeFlash → CodeFlash) : (d.onFlash f).out = d.out := by dsimp only [onFlash]

@[simp] theorem onHive_hive (f : Hive → Hive) : (d.onHive f).hive = f d.hive := by dsimp only [onHive]
@[simp] theorem onHive_variant (f : Hive → Hive) : (d.onHive f).variant = d.variant := by dsimp only [onHive]
@[simp] theorem onHive_clk (f : Hive → Hive) : (d.onHive f).clk = d.clk := by dsimp only [onHive]
@[simp] theorem onHive_ctr (f : Hive → Hive) : (d.onHive f).ctr = d.ctr := by dsimp only [onHive]
@[simp] theorem onHive_supply (f : Hive → Hive) : (d.onHive f).supply = d.supply := by dsimp only [onHive]
@[simp] theorem onHive_lanes (f : Hive → Hive) : (d.onHive f).lanes = d.lanes := by dsimp only [onHive]
@[simp] theorem onHive_combs (f : Hive → Hive) : (d.onHive f).combs = d.combs := by dsimp only [onHive]
@[simp] theorem onHive_arb (f : Hive → Hive) : (d.onHive f).arb = d.arb := by dsimp only [onHive]
@[simp] theorem onHive_receipts (f : Hive → Hive) : (d.onHive f).receipts = d.receipts := by dsimp only [onHive]
@[simp] theorem onHive_wag (f : Hive → Hive) : (d.onHive f).wag = d.wag := by dsimp only [onHive]
@[simp] theorem onHive_wagEps (f : Hive → Hive) : (d.onHive f).wagEps = d.wagEps := by dsimp only [onHive]
@[simp] theorem onHive_time (f : Hive → Hive) : (d.onHive f).time = d.time := by dsimp only [onHive]
@[simp] theorem onHive_store (f : Hive → Hive) : (d.onHive f).store = d.store := by dsimp only [onHive]
@[simp] theorem onHive_staging (f : Hive → Hive) : (d.onHive f).staging = d.staging := by dsimp only [onHive]
@[simp] theorem onHive_power (f : Hive → Hive) : (d.onHive f).power = d.power := by dsimp only [onHive]
@[simp] theorem onHive_close (f : Hive → Hive) : (d.onHive f).close = d.close := by dsimp only [onHive]
@[simp] theorem onHive_ports (f : Hive → Hive) : (d.onHive f).ports = d.ports := by dsimp only [onHive]
@[simp] theorem onHive_portsCfg (f : Hive → Hive) : (d.onHive f).portsCfg = d.portsCfg := by dsimp only [onHive]
@[simp] theorem onHive_waits (f : Hive → Hive) : (d.onHive f).waits = d.waits := by dsimp only [onHive]
@[simp] theorem onHive_exports (f : Hive → Hive) : (d.onHive f).exports = d.exports := by dsimp only [onHive]
@[simp] theorem onHive_tiles (f : Hive → Hive) : (d.onHive f).tiles = d.tiles := by dsimp only [onHive]
@[simp] theorem onHive_keys (f : Hive → Hive) : (d.onHive f).keys = d.keys := by dsimp only [onHive]
@[simp] theorem onHive_rng (f : Hive → Hive) : (d.onHive f).rng = d.rng := by dsimp only [onHive]
@[simp] theorem onHive_tamper (f : Hive → Hive) : (d.onHive f).tamper = d.tamper := by dsimp only [onHive]
@[simp] theorem onHive_aon (f : Hive → Hive) : (d.onHive f).aon = d.aon := by dsimp only [onHive]
@[simp] theorem onHive_log (f : Hive → Hive) : (d.onHive f).log = d.log := by dsimp only [onHive]
@[simp] theorem onHive_life (f : Hive → Hive) : (d.onHive f).life = d.life := by dsimp only [onHive]
@[simp] theorem onHive_debug (f : Hive → Hive) : (d.onHive f).dbg = d.dbg := by dsimp only [onHive]
@[simp] theorem onHive_cores (f : Hive → Hive) : (d.onHive f).cores = d.cores := by dsimp only [onHive]
@[simp] theorem onHive_flash (f : Hive → Hive) : (d.onHive f).flash = d.flash := by dsimp only [onHive]
@[simp] theorem onHive_settings (f : Hive → Hive) : (d.onHive f).settings = d.settings := by dsimp only [onHive]
@[simp] theorem onHive_field (f : Hive → Hive) : (d.onHive f).field = d.field := by dsimp only [onHive]
@[simp] theorem onHive_out (f : Hive → Hive) : (d.onHive f).out = d.out := by dsimp only [onHive]

@[simp] theorem onReceipts_receipts (f : Receipts → Receipts) : (d.onReceipts f).receipts = f d.receipts := by dsimp only [onReceipts]
@[simp] theorem onReceipts_variant (f : Receipts → Receipts) : (d.onReceipts f).variant = d.variant := by dsimp only [onReceipts]
@[simp] theorem onReceipts_clk (f : Receipts → Receipts) : (d.onReceipts f).clk = d.clk := by dsimp only [onReceipts]
@[simp] theorem onReceipts_ctr (f : Receipts → Receipts) : (d.onReceipts f).ctr = d.ctr := by dsimp only [onReceipts]
@[simp] theorem onReceipts_supply (f : Receipts → Receipts) : (d.onReceipts f).supply = d.supply := by dsimp only [onReceipts]
@[simp] theorem onReceipts_lanes (f : Receipts → Receipts) : (d.onReceipts f).lanes = d.lanes := by dsimp only [onReceipts]
@[simp] theorem onReceipts_combs (f : Receipts → Receipts) : (d.onReceipts f).combs = d.combs := by dsimp only [onReceipts]
@[simp] theorem onReceipts_arb (f : Receipts → Receipts) : (d.onReceipts f).arb = d.arb := by dsimp only [onReceipts]
@[simp] theorem onReceipts_hive (f : Receipts → Receipts) : (d.onReceipts f).hive = d.hive := by dsimp only [onReceipts]
@[simp] theorem onReceipts_wag (f : Receipts → Receipts) : (d.onReceipts f).wag = d.wag := by dsimp only [onReceipts]
@[simp] theorem onReceipts_wagEps (f : Receipts → Receipts) : (d.onReceipts f).wagEps = d.wagEps := by dsimp only [onReceipts]
@[simp] theorem onReceipts_time (f : Receipts → Receipts) : (d.onReceipts f).time = d.time := by dsimp only [onReceipts]
@[simp] theorem onReceipts_store (f : Receipts → Receipts) : (d.onReceipts f).store = d.store := by dsimp only [onReceipts]
@[simp] theorem onReceipts_staging (f : Receipts → Receipts) : (d.onReceipts f).staging = d.staging := by dsimp only [onReceipts]
@[simp] theorem onReceipts_power (f : Receipts → Receipts) : (d.onReceipts f).power = d.power := by dsimp only [onReceipts]
@[simp] theorem onReceipts_close (f : Receipts → Receipts) : (d.onReceipts f).close = d.close := by dsimp only [onReceipts]
@[simp] theorem onReceipts_ports (f : Receipts → Receipts) : (d.onReceipts f).ports = d.ports := by dsimp only [onReceipts]
@[simp] theorem onReceipts_portsCfg (f : Receipts → Receipts) : (d.onReceipts f).portsCfg = d.portsCfg := by dsimp only [onReceipts]
@[simp] theorem onReceipts_waits (f : Receipts → Receipts) : (d.onReceipts f).waits = d.waits := by dsimp only [onReceipts]
@[simp] theorem onReceipts_exports (f : Receipts → Receipts) : (d.onReceipts f).exports = d.exports := by dsimp only [onReceipts]
@[simp] theorem onReceipts_tiles (f : Receipts → Receipts) : (d.onReceipts f).tiles = d.tiles := by dsimp only [onReceipts]
@[simp] theorem onReceipts_keys (f : Receipts → Receipts) : (d.onReceipts f).keys = d.keys := by dsimp only [onReceipts]
@[simp] theorem onReceipts_rng (f : Receipts → Receipts) : (d.onReceipts f).rng = d.rng := by dsimp only [onReceipts]
@[simp] theorem onReceipts_tamper (f : Receipts → Receipts) : (d.onReceipts f).tamper = d.tamper := by dsimp only [onReceipts]
@[simp] theorem onReceipts_aon (f : Receipts → Receipts) : (d.onReceipts f).aon = d.aon := by dsimp only [onReceipts]
@[simp] theorem onReceipts_log (f : Receipts → Receipts) : (d.onReceipts f).log = d.log := by dsimp only [onReceipts]
@[simp] theorem onReceipts_life (f : Receipts → Receipts) : (d.onReceipts f).life = d.life := by dsimp only [onReceipts]
@[simp] theorem onReceipts_debug (f : Receipts → Receipts) : (d.onReceipts f).dbg = d.dbg := by dsimp only [onReceipts]
@[simp] theorem onReceipts_cores (f : Receipts → Receipts) : (d.onReceipts f).cores = d.cores := by dsimp only [onReceipts]
@[simp] theorem onReceipts_flash (f : Receipts → Receipts) : (d.onReceipts f).flash = d.flash := by dsimp only [onReceipts]
@[simp] theorem onReceipts_settings (f : Receipts → Receipts) : (d.onReceipts f).settings = d.settings := by dsimp only [onReceipts]
@[simp] theorem onReceipts_field (f : Receipts → Receipts) : (d.onReceipts f).field = d.field := by dsimp only [onReceipts]
@[simp] theorem onReceipts_out (f : Receipts → Receipts) : (d.onReceipts f).out = d.out := by dsimp only [onReceipts]

@[simp] theorem onKeys_keys (f : Keys → Keys) : (d.onKeys f).keys = f d.keys := by dsimp only [onKeys]
@[simp] theorem onKeys_variant (f : Keys → Keys) : (d.onKeys f).variant = d.variant := by dsimp only [onKeys]
@[simp] theorem onKeys_clk (f : Keys → Keys) : (d.onKeys f).clk = d.clk := by dsimp only [onKeys]
@[simp] theorem onKeys_ctr (f : Keys → Keys) : (d.onKeys f).ctr = d.ctr := by dsimp only [onKeys]
@[simp] theorem onKeys_supply (f : Keys → Keys) : (d.onKeys f).supply = d.supply := by dsimp only [onKeys]
@[simp] theorem onKeys_lanes (f : Keys → Keys) : (d.onKeys f).lanes = d.lanes := by dsimp only [onKeys]
@[simp] theorem onKeys_combs (f : Keys → Keys) : (d.onKeys f).combs = d.combs := by dsimp only [onKeys]
@[simp] theorem onKeys_arb (f : Keys → Keys) : (d.onKeys f).arb = d.arb := by dsimp only [onKeys]
@[simp] theorem onKeys_hive (f : Keys → Keys) : (d.onKeys f).hive = d.hive := by dsimp only [onKeys]
@[simp] theorem onKeys_receipts (f : Keys → Keys) : (d.onKeys f).receipts = d.receipts := by dsimp only [onKeys]
@[simp] theorem onKeys_wag (f : Keys → Keys) : (d.onKeys f).wag = d.wag := by dsimp only [onKeys]
@[simp] theorem onKeys_wagEps (f : Keys → Keys) : (d.onKeys f).wagEps = d.wagEps := by dsimp only [onKeys]
@[simp] theorem onKeys_time (f : Keys → Keys) : (d.onKeys f).time = d.time := by dsimp only [onKeys]
@[simp] theorem onKeys_store (f : Keys → Keys) : (d.onKeys f).store = d.store := by dsimp only [onKeys]
@[simp] theorem onKeys_staging (f : Keys → Keys) : (d.onKeys f).staging = d.staging := by dsimp only [onKeys]
@[simp] theorem onKeys_power (f : Keys → Keys) : (d.onKeys f).power = d.power := by dsimp only [onKeys]
@[simp] theorem onKeys_close (f : Keys → Keys) : (d.onKeys f).close = d.close := by dsimp only [onKeys]
@[simp] theorem onKeys_ports (f : Keys → Keys) : (d.onKeys f).ports = d.ports := by dsimp only [onKeys]
@[simp] theorem onKeys_portsCfg (f : Keys → Keys) : (d.onKeys f).portsCfg = d.portsCfg := by dsimp only [onKeys]
@[simp] theorem onKeys_waits (f : Keys → Keys) : (d.onKeys f).waits = d.waits := by dsimp only [onKeys]
@[simp] theorem onKeys_exports (f : Keys → Keys) : (d.onKeys f).exports = d.exports := by dsimp only [onKeys]
@[simp] theorem onKeys_tiles (f : Keys → Keys) : (d.onKeys f).tiles = d.tiles := by dsimp only [onKeys]
@[simp] theorem onKeys_rng (f : Keys → Keys) : (d.onKeys f).rng = d.rng := by dsimp only [onKeys]
@[simp] theorem onKeys_tamper (f : Keys → Keys) : (d.onKeys f).tamper = d.tamper := by dsimp only [onKeys]
@[simp] theorem onKeys_aon (f : Keys → Keys) : (d.onKeys f).aon = d.aon := by dsimp only [onKeys]
@[simp] theorem onKeys_log (f : Keys → Keys) : (d.onKeys f).log = d.log := by dsimp only [onKeys]
@[simp] theorem onKeys_life (f : Keys → Keys) : (d.onKeys f).life = d.life := by dsimp only [onKeys]
@[simp] theorem onKeys_debug (f : Keys → Keys) : (d.onKeys f).dbg = d.dbg := by dsimp only [onKeys]
@[simp] theorem onKeys_cores (f : Keys → Keys) : (d.onKeys f).cores = d.cores := by dsimp only [onKeys]
@[simp] theorem onKeys_flash (f : Keys → Keys) : (d.onKeys f).flash = d.flash := by dsimp only [onKeys]
@[simp] theorem onKeys_settings (f : Keys → Keys) : (d.onKeys f).settings = d.settings := by dsimp only [onKeys]
@[simp] theorem onKeys_field (f : Keys → Keys) : (d.onKeys f).field = d.field := by dsimp only [onKeys]
@[simp] theorem onKeys_out (f : Keys → Keys) : (d.onKeys f).out = d.out := by dsimp only [onKeys]

@[simp] theorem onLife_life (f : Life → Life) : (d.onLife f).life = f d.life := by dsimp only [onLife]
@[simp] theorem onLife_variant (f : Life → Life) : (d.onLife f).variant = d.variant := by dsimp only [onLife]
@[simp] theorem onLife_clk (f : Life → Life) : (d.onLife f).clk = d.clk := by dsimp only [onLife]
@[simp] theorem onLife_ctr (f : Life → Life) : (d.onLife f).ctr = d.ctr := by dsimp only [onLife]
@[simp] theorem onLife_supply (f : Life → Life) : (d.onLife f).supply = d.supply := by dsimp only [onLife]
@[simp] theorem onLife_lanes (f : Life → Life) : (d.onLife f).lanes = d.lanes := by dsimp only [onLife]
@[simp] theorem onLife_combs (f : Life → Life) : (d.onLife f).combs = d.combs := by dsimp only [onLife]
@[simp] theorem onLife_arb (f : Life → Life) : (d.onLife f).arb = d.arb := by dsimp only [onLife]
@[simp] theorem onLife_hive (f : Life → Life) : (d.onLife f).hive = d.hive := by dsimp only [onLife]
@[simp] theorem onLife_receipts (f : Life → Life) : (d.onLife f).receipts = d.receipts := by dsimp only [onLife]
@[simp] theorem onLife_wag (f : Life → Life) : (d.onLife f).wag = d.wag := by dsimp only [onLife]
@[simp] theorem onLife_wagEps (f : Life → Life) : (d.onLife f).wagEps = d.wagEps := by dsimp only [onLife]
@[simp] theorem onLife_time (f : Life → Life) : (d.onLife f).time = d.time := by dsimp only [onLife]
@[simp] theorem onLife_store (f : Life → Life) : (d.onLife f).store = d.store := by dsimp only [onLife]
@[simp] theorem onLife_staging (f : Life → Life) : (d.onLife f).staging = d.staging := by dsimp only [onLife]
@[simp] theorem onLife_power (f : Life → Life) : (d.onLife f).power = d.power := by dsimp only [onLife]
@[simp] theorem onLife_close (f : Life → Life) : (d.onLife f).close = d.close := by dsimp only [onLife]
@[simp] theorem onLife_ports (f : Life → Life) : (d.onLife f).ports = d.ports := by dsimp only [onLife]
@[simp] theorem onLife_portsCfg (f : Life → Life) : (d.onLife f).portsCfg = d.portsCfg := by dsimp only [onLife]
@[simp] theorem onLife_waits (f : Life → Life) : (d.onLife f).waits = d.waits := by dsimp only [onLife]
@[simp] theorem onLife_exports (f : Life → Life) : (d.onLife f).exports = d.exports := by dsimp only [onLife]
@[simp] theorem onLife_tiles (f : Life → Life) : (d.onLife f).tiles = d.tiles := by dsimp only [onLife]
@[simp] theorem onLife_keys (f : Life → Life) : (d.onLife f).keys = d.keys := by dsimp only [onLife]
@[simp] theorem onLife_rng (f : Life → Life) : (d.onLife f).rng = d.rng := by dsimp only [onLife]
@[simp] theorem onLife_tamper (f : Life → Life) : (d.onLife f).tamper = d.tamper := by dsimp only [onLife]
@[simp] theorem onLife_aon (f : Life → Life) : (d.onLife f).aon = d.aon := by dsimp only [onLife]
@[simp] theorem onLife_log (f : Life → Life) : (d.onLife f).log = d.log := by dsimp only [onLife]
@[simp] theorem onLife_debug (f : Life → Life) : (d.onLife f).dbg = d.dbg := by dsimp only [onLife]
@[simp] theorem onLife_cores (f : Life → Life) : (d.onLife f).cores = d.cores := by dsimp only [onLife]
@[simp] theorem onLife_flash (f : Life → Life) : (d.onLife f).flash = d.flash := by dsimp only [onLife]
@[simp] theorem onLife_settings (f : Life → Life) : (d.onLife f).settings = d.settings := by dsimp only [onLife]
@[simp] theorem onLife_field (f : Life → Life) : (d.onLife f).field = d.field := by dsimp only [onLife]
@[simp] theorem onLife_out (f : Life → Life) : (d.onLife f).out = d.out := by dsimp only [onLife]

@[simp] theorem onDebug_debug (f : Debug → Debug) : (d.onDebug f).dbg = f d.dbg := by dsimp only [onDebug]
@[simp] theorem onDebug_variant (f : Debug → Debug) : (d.onDebug f).variant = d.variant := by dsimp only [onDebug]
@[simp] theorem onDebug_clk (f : Debug → Debug) : (d.onDebug f).clk = d.clk := by dsimp only [onDebug]
@[simp] theorem onDebug_ctr (f : Debug → Debug) : (d.onDebug f).ctr = d.ctr := by dsimp only [onDebug]
@[simp] theorem onDebug_supply (f : Debug → Debug) : (d.onDebug f).supply = d.supply := by dsimp only [onDebug]
@[simp] theorem onDebug_lanes (f : Debug → Debug) : (d.onDebug f).lanes = d.lanes := by dsimp only [onDebug]
@[simp] theorem onDebug_combs (f : Debug → Debug) : (d.onDebug f).combs = d.combs := by dsimp only [onDebug]
@[simp] theorem onDebug_arb (f : Debug → Debug) : (d.onDebug f).arb = d.arb := by dsimp only [onDebug]
@[simp] theorem onDebug_hive (f : Debug → Debug) : (d.onDebug f).hive = d.hive := by dsimp only [onDebug]
@[simp] theorem onDebug_receipts (f : Debug → Debug) : (d.onDebug f).receipts = d.receipts := by dsimp only [onDebug]
@[simp] theorem onDebug_wag (f : Debug → Debug) : (d.onDebug f).wag = d.wag := by dsimp only [onDebug]
@[simp] theorem onDebug_wagEps (f : Debug → Debug) : (d.onDebug f).wagEps = d.wagEps := by dsimp only [onDebug]
@[simp] theorem onDebug_time (f : Debug → Debug) : (d.onDebug f).time = d.time := by dsimp only [onDebug]
@[simp] theorem onDebug_store (f : Debug → Debug) : (d.onDebug f).store = d.store := by dsimp only [onDebug]
@[simp] theorem onDebug_staging (f : Debug → Debug) : (d.onDebug f).staging = d.staging := by dsimp only [onDebug]
@[simp] theorem onDebug_power (f : Debug → Debug) : (d.onDebug f).power = d.power := by dsimp only [onDebug]
@[simp] theorem onDebug_close (f : Debug → Debug) : (d.onDebug f).close = d.close := by dsimp only [onDebug]
@[simp] theorem onDebug_ports (f : Debug → Debug) : (d.onDebug f).ports = d.ports := by dsimp only [onDebug]
@[simp] theorem onDebug_portsCfg (f : Debug → Debug) : (d.onDebug f).portsCfg = d.portsCfg := by dsimp only [onDebug]
@[simp] theorem onDebug_waits (f : Debug → Debug) : (d.onDebug f).waits = d.waits := by dsimp only [onDebug]
@[simp] theorem onDebug_exports (f : Debug → Debug) : (d.onDebug f).exports = d.exports := by dsimp only [onDebug]
@[simp] theorem onDebug_tiles (f : Debug → Debug) : (d.onDebug f).tiles = d.tiles := by dsimp only [onDebug]
@[simp] theorem onDebug_keys (f : Debug → Debug) : (d.onDebug f).keys = d.keys := by dsimp only [onDebug]
@[simp] theorem onDebug_rng (f : Debug → Debug) : (d.onDebug f).rng = d.rng := by dsimp only [onDebug]
@[simp] theorem onDebug_tamper (f : Debug → Debug) : (d.onDebug f).tamper = d.tamper := by dsimp only [onDebug]
@[simp] theorem onDebug_aon (f : Debug → Debug) : (d.onDebug f).aon = d.aon := by dsimp only [onDebug]
@[simp] theorem onDebug_log (f : Debug → Debug) : (d.onDebug f).log = d.log := by dsimp only [onDebug]
@[simp] theorem onDebug_life (f : Debug → Debug) : (d.onDebug f).life = d.life := by dsimp only [onDebug]
@[simp] theorem onDebug_cores (f : Debug → Debug) : (d.onDebug f).cores = d.cores := by dsimp only [onDebug]
@[simp] theorem onDebug_flash (f : Debug → Debug) : (d.onDebug f).flash = d.flash := by dsimp only [onDebug]
@[simp] theorem onDebug_settings (f : Debug → Debug) : (d.onDebug f).settings = d.settings := by dsimp only [onDebug]
@[simp] theorem onDebug_field (f : Debug → Debug) : (d.onDebug f).field = d.field := by dsimp only [onDebug]
@[simp] theorem onDebug_out (f : Debug → Debug) : (d.onDebug f).out = d.out := by dsimp only [onDebug]

@[simp] theorem onTimeCfg_time (f : TimeCfg → TimeCfg) : (d.onTimeCfg f).time = { d.time with cfg := f d.time.cfg } := by dsimp only [onTimeCfg]
@[simp] theorem onTimeCfg_variant (f : TimeCfg → TimeCfg) : (d.onTimeCfg f).variant = d.variant := by dsimp only [onTimeCfg]
@[simp] theorem onTimeCfg_clk (f : TimeCfg → TimeCfg) : (d.onTimeCfg f).clk = d.clk := by dsimp only [onTimeCfg]
@[simp] theorem onTimeCfg_ctr (f : TimeCfg → TimeCfg) : (d.onTimeCfg f).ctr = d.ctr := by dsimp only [onTimeCfg]
@[simp] theorem onTimeCfg_supply (f : TimeCfg → TimeCfg) : (d.onTimeCfg f).supply = d.supply := by dsimp only [onTimeCfg]
@[simp] theorem onTimeCfg_lanes (f : TimeCfg → TimeCfg) : (d.onTimeCfg f).lanes = d.lanes := by dsimp only [onTimeCfg]
@[simp] theorem onTimeCfg_combs (f : TimeCfg → TimeCfg) : (d.onTimeCfg f).combs = d.combs := by dsimp only [onTimeCfg]
@[simp] theorem onTimeCfg_arb (f : TimeCfg → TimeCfg) : (d.onTimeCfg f).arb = d.arb := by dsimp only [onTimeCfg]
@[simp] theorem onTimeCfg_hive (f : TimeCfg → TimeCfg) : (d.onTimeCfg f).hive = d.hive := by dsimp only [onTimeCfg]
@[simp] theorem onTimeCfg_receipts (f : TimeCfg → TimeCfg) : (d.onTimeCfg f).receipts = d.receipts := by dsimp only [onTimeCfg]
@[simp] theorem onTimeCfg_wag (f : TimeCfg → TimeCfg) : (d.onTimeCfg f).wag = d.wag := by dsimp only [onTimeCfg]
@[simp] theorem onTimeCfg_wagEps (f : TimeCfg → TimeCfg) : (d.onTimeCfg f).wagEps = d.wagEps := by dsimp only [onTimeCfg]
@[simp] theorem onTimeCfg_store (f : TimeCfg → TimeCfg) : (d.onTimeCfg f).store = d.store := by dsimp only [onTimeCfg]
@[simp] theorem onTimeCfg_staging (f : TimeCfg → TimeCfg) : (d.onTimeCfg f).staging = d.staging := by dsimp only [onTimeCfg]
@[simp] theorem onTimeCfg_power (f : TimeCfg → TimeCfg) : (d.onTimeCfg f).power = d.power := by dsimp only [onTimeCfg]
@[simp] theorem onTimeCfg_close (f : TimeCfg → TimeCfg) : (d.onTimeCfg f).close = d.close := by dsimp only [onTimeCfg]
@[simp] theorem onTimeCfg_ports (f : TimeCfg → TimeCfg) : (d.onTimeCfg f).ports = d.ports := by dsimp only [onTimeCfg]
@[simp] theorem onTimeCfg_portsCfg (f : TimeCfg → TimeCfg) : (d.onTimeCfg f).portsCfg = d.portsCfg := by dsimp only [onTimeCfg]
@[simp] theorem onTimeCfg_waits (f : TimeCfg → TimeCfg) : (d.onTimeCfg f).waits = d.waits := by dsimp only [onTimeCfg]
@[simp] theorem onTimeCfg_exports (f : TimeCfg → TimeCfg) : (d.onTimeCfg f).exports = d.exports := by dsimp only [onTimeCfg]
@[simp] theorem onTimeCfg_tiles (f : TimeCfg → TimeCfg) : (d.onTimeCfg f).tiles = d.tiles := by dsimp only [onTimeCfg]
@[simp] theorem onTimeCfg_keys (f : TimeCfg → TimeCfg) : (d.onTimeCfg f).keys = d.keys := by dsimp only [onTimeCfg]
@[simp] theorem onTimeCfg_rng (f : TimeCfg → TimeCfg) : (d.onTimeCfg f).rng = d.rng := by dsimp only [onTimeCfg]
@[simp] theorem onTimeCfg_tamper (f : TimeCfg → TimeCfg) : (d.onTimeCfg f).tamper = d.tamper := by dsimp only [onTimeCfg]
@[simp] theorem onTimeCfg_aon (f : TimeCfg → TimeCfg) : (d.onTimeCfg f).aon = d.aon := by dsimp only [onTimeCfg]
@[simp] theorem onTimeCfg_log (f : TimeCfg → TimeCfg) : (d.onTimeCfg f).log = d.log := by dsimp only [onTimeCfg]
@[simp] theorem onTimeCfg_life (f : TimeCfg → TimeCfg) : (d.onTimeCfg f).life = d.life := by dsimp only [onTimeCfg]
@[simp] theorem onTimeCfg_debug (f : TimeCfg → TimeCfg) : (d.onTimeCfg f).dbg = d.dbg := by dsimp only [onTimeCfg]
@[simp] theorem onTimeCfg_cores (f : TimeCfg → TimeCfg) : (d.onTimeCfg f).cores = d.cores := by dsimp only [onTimeCfg]
@[simp] theorem onTimeCfg_flash (f : TimeCfg → TimeCfg) : (d.onTimeCfg f).flash = d.flash := by dsimp only [onTimeCfg]
@[simp] theorem onTimeCfg_settings (f : TimeCfg → TimeCfg) : (d.onTimeCfg f).settings = d.settings := by dsimp only [onTimeCfg]
@[simp] theorem onTimeCfg_field (f : TimeCfg → TimeCfg) : (d.onTimeCfg f).field = d.field := by dsimp only [onTimeCfg]
@[simp] theorem onTimeCfg_out (f : TimeCfg → TimeCfg) : (d.onTimeCfg f).out = d.out := by dsimp only [onTimeCfg]

@[simp] theorem onSupply_supply (f : Supply → Supply) : (d.onSupply f).supply = f d.supply := by dsimp only [onSupply]
@[simp] theorem onSupply_variant (f : Supply → Supply) : (d.onSupply f).variant = d.variant := by dsimp only [onSupply]
@[simp] theorem onSupply_clk (f : Supply → Supply) : (d.onSupply f).clk = d.clk := by dsimp only [onSupply]
@[simp] theorem onSupply_ctr (f : Supply → Supply) : (d.onSupply f).ctr = d.ctr := by dsimp only [onSupply]
@[simp] theorem onSupply_lanes (f : Supply → Supply) : (d.onSupply f).lanes = d.lanes := by dsimp only [onSupply]
@[simp] theorem onSupply_combs (f : Supply → Supply) : (d.onSupply f).combs = d.combs := by dsimp only [onSupply]
@[simp] theorem onSupply_arb (f : Supply → Supply) : (d.onSupply f).arb = d.arb := by dsimp only [onSupply]
@[simp] theorem onSupply_hive (f : Supply → Supply) : (d.onSupply f).hive = d.hive := by dsimp only [onSupply]
@[simp] theorem onSupply_receipts (f : Supply → Supply) : (d.onSupply f).receipts = d.receipts := by dsimp only [onSupply]
@[simp] theorem onSupply_wag (f : Supply → Supply) : (d.onSupply f).wag = d.wag := by dsimp only [onSupply]
@[simp] theorem onSupply_wagEps (f : Supply → Supply) : (d.onSupply f).wagEps = d.wagEps := by dsimp only [onSupply]
@[simp] theorem onSupply_time (f : Supply → Supply) : (d.onSupply f).time = d.time := by dsimp only [onSupply]
@[simp] theorem onSupply_store (f : Supply → Supply) : (d.onSupply f).store = d.store := by dsimp only [onSupply]
@[simp] theorem onSupply_staging (f : Supply → Supply) : (d.onSupply f).staging = d.staging := by dsimp only [onSupply]
@[simp] theorem onSupply_power (f : Supply → Supply) : (d.onSupply f).power = d.power := by dsimp only [onSupply]
@[simp] theorem onSupply_close (f : Supply → Supply) : (d.onSupply f).close = d.close := by dsimp only [onSupply]
@[simp] theorem onSupply_ports (f : Supply → Supply) : (d.onSupply f).ports = d.ports := by dsimp only [onSupply]
@[simp] theorem onSupply_portsCfg (f : Supply → Supply) : (d.onSupply f).portsCfg = d.portsCfg := by dsimp only [onSupply]
@[simp] theorem onSupply_waits (f : Supply → Supply) : (d.onSupply f).waits = d.waits := by dsimp only [onSupply]
@[simp] theorem onSupply_exports (f : Supply → Supply) : (d.onSupply f).exports = d.exports := by dsimp only [onSupply]
@[simp] theorem onSupply_tiles (f : Supply → Supply) : (d.onSupply f).tiles = d.tiles := by dsimp only [onSupply]
@[simp] theorem onSupply_keys (f : Supply → Supply) : (d.onSupply f).keys = d.keys := by dsimp only [onSupply]
@[simp] theorem onSupply_rng (f : Supply → Supply) : (d.onSupply f).rng = d.rng := by dsimp only [onSupply]
@[simp] theorem onSupply_tamper (f : Supply → Supply) : (d.onSupply f).tamper = d.tamper := by dsimp only [onSupply]
@[simp] theorem onSupply_aon (f : Supply → Supply) : (d.onSupply f).aon = d.aon := by dsimp only [onSupply]
@[simp] theorem onSupply_log (f : Supply → Supply) : (d.onSupply f).log = d.log := by dsimp only [onSupply]
@[simp] theorem onSupply_life (f : Supply → Supply) : (d.onSupply f).life = d.life := by dsimp only [onSupply]
@[simp] theorem onSupply_debug (f : Supply → Supply) : (d.onSupply f).dbg = d.dbg := by dsimp only [onSupply]
@[simp] theorem onSupply_cores (f : Supply → Supply) : (d.onSupply f).cores = d.cores := by dsimp only [onSupply]
@[simp] theorem onSupply_flash (f : Supply → Supply) : (d.onSupply f).flash = d.flash := by dsimp only [onSupply]
@[simp] theorem onSupply_settings (f : Supply → Supply) : (d.onSupply f).settings = d.settings := by dsimp only [onSupply]
@[simp] theorem onSupply_field (f : Supply → Supply) : (d.onSupply f).field = d.field := by dsimp only [onSupply]
@[simp] theorem onSupply_out (f : Supply → Supply) : (d.onSupply f).out = d.out := by dsimp only [onSupply]

@[simp] theorem onLog_log (f : Log → Log) : (d.onLog f).log = f d.log := by dsimp only [onLog]
@[simp] theorem onLog_variant (f : Log → Log) : (d.onLog f).variant = d.variant := by dsimp only [onLog]
@[simp] theorem onLog_clk (f : Log → Log) : (d.onLog f).clk = d.clk := by dsimp only [onLog]
@[simp] theorem onLog_ctr (f : Log → Log) : (d.onLog f).ctr = d.ctr := by dsimp only [onLog]
@[simp] theorem onLog_supply (f : Log → Log) : (d.onLog f).supply = d.supply := by dsimp only [onLog]
@[simp] theorem onLog_lanes (f : Log → Log) : (d.onLog f).lanes = d.lanes := by dsimp only [onLog]
@[simp] theorem onLog_combs (f : Log → Log) : (d.onLog f).combs = d.combs := by dsimp only [onLog]
@[simp] theorem onLog_arb (f : Log → Log) : (d.onLog f).arb = d.arb := by dsimp only [onLog]
@[simp] theorem onLog_hive (f : Log → Log) : (d.onLog f).hive = d.hive := by dsimp only [onLog]
@[simp] theorem onLog_receipts (f : Log → Log) : (d.onLog f).receipts = d.receipts := by dsimp only [onLog]
@[simp] theorem onLog_wag (f : Log → Log) : (d.onLog f).wag = d.wag := by dsimp only [onLog]
@[simp] theorem onLog_wagEps (f : Log → Log) : (d.onLog f).wagEps = d.wagEps := by dsimp only [onLog]
@[simp] theorem onLog_time (f : Log → Log) : (d.onLog f).time = d.time := by dsimp only [onLog]
@[simp] theorem onLog_store (f : Log → Log) : (d.onLog f).store = d.store := by dsimp only [onLog]
@[simp] theorem onLog_staging (f : Log → Log) : (d.onLog f).staging = d.staging := by dsimp only [onLog]
@[simp] theorem onLog_power (f : Log → Log) : (d.onLog f).power = d.power := by dsimp only [onLog]
@[simp] theorem onLog_close (f : Log → Log) : (d.onLog f).close = d.close := by dsimp only [onLog]
@[simp] theorem onLog_ports (f : Log → Log) : (d.onLog f).ports = d.ports := by dsimp only [onLog]
@[simp] theorem onLog_portsCfg (f : Log → Log) : (d.onLog f).portsCfg = d.portsCfg := by dsimp only [onLog]
@[simp] theorem onLog_waits (f : Log → Log) : (d.onLog f).waits = d.waits := by dsimp only [onLog]
@[simp] theorem onLog_exports (f : Log → Log) : (d.onLog f).exports = d.exports := by dsimp only [onLog]
@[simp] theorem onLog_tiles (f : Log → Log) : (d.onLog f).tiles = d.tiles := by dsimp only [onLog]
@[simp] theorem onLog_keys (f : Log → Log) : (d.onLog f).keys = d.keys := by dsimp only [onLog]
@[simp] theorem onLog_rng (f : Log → Log) : (d.onLog f).rng = d.rng := by dsimp only [onLog]
@[simp] theorem onLog_tamper (f : Log → Log) : (d.onLog f).tamper = d.tamper := by dsimp only [onLog]
@[simp] theorem onLog_aon (f : Log → Log) : (d.onLog f).aon = d.aon := by dsimp only [onLog]
@[simp] theorem onLog_life (f : Log → Log) : (d.onLog f).life = d.life := by dsimp only [onLog]
@[simp] theorem onLog_debug (f : Log → Log) : (d.onLog f).dbg = d.dbg := by dsimp only [onLog]
@[simp] theorem onLog_cores (f : Log → Log) : (d.onLog f).cores = d.cores := by dsimp only [onLog]
@[simp] theorem onLog_flash (f : Log → Log) : (d.onLog f).flash = d.flash := by dsimp only [onLog]
@[simp] theorem onLog_settings (f : Log → Log) : (d.onLog f).settings = d.settings := by dsimp only [onLog]
@[simp] theorem onLog_field (f : Log → Log) : (d.onLog f).field = d.field := by dsimp only [onLog]
@[simp] theorem onLog_out (f : Log → Log) : (d.onLog f).out = d.out := by dsimp only [onLog]

@[simp] theorem onRng_rng (f : Rng → Rng) : (d.onRng f).rng = f d.rng := by dsimp only [onRng]
@[simp] theorem onRng_variant (f : Rng → Rng) : (d.onRng f).variant = d.variant := by dsimp only [onRng]
@[simp] theorem onRng_clk (f : Rng → Rng) : (d.onRng f).clk = d.clk := by dsimp only [onRng]
@[simp] theorem onRng_ctr (f : Rng → Rng) : (d.onRng f).ctr = d.ctr := by dsimp only [onRng]
@[simp] theorem onRng_supply (f : Rng → Rng) : (d.onRng f).supply = d.supply := by dsimp only [onRng]
@[simp] theorem onRng_lanes (f : Rng → Rng) : (d.onRng f).lanes = d.lanes := by dsimp only [onRng]
@[simp] theorem onRng_combs (f : Rng → Rng) : (d.onRng f).combs = d.combs := by dsimp only [onRng]
@[simp] theorem onRng_arb (f : Rng → Rng) : (d.onRng f).arb = d.arb := by dsimp only [onRng]
@[simp] theorem onRng_hive (f : Rng → Rng) : (d.onRng f).hive = d.hive := by dsimp only [onRng]
@[simp] theorem onRng_receipts (f : Rng → Rng) : (d.onRng f).receipts = d.receipts := by dsimp only [onRng]
@[simp] theorem onRng_wag (f : Rng → Rng) : (d.onRng f).wag = d.wag := by dsimp only [onRng]
@[simp] theorem onRng_wagEps (f : Rng → Rng) : (d.onRng f).wagEps = d.wagEps := by dsimp only [onRng]
@[simp] theorem onRng_time (f : Rng → Rng) : (d.onRng f).time = d.time := by dsimp only [onRng]
@[simp] theorem onRng_store (f : Rng → Rng) : (d.onRng f).store = d.store := by dsimp only [onRng]
@[simp] theorem onRng_staging (f : Rng → Rng) : (d.onRng f).staging = d.staging := by dsimp only [onRng]
@[simp] theorem onRng_power (f : Rng → Rng) : (d.onRng f).power = d.power := by dsimp only [onRng]
@[simp] theorem onRng_close (f : Rng → Rng) : (d.onRng f).close = d.close := by dsimp only [onRng]
@[simp] theorem onRng_ports (f : Rng → Rng) : (d.onRng f).ports = d.ports := by dsimp only [onRng]
@[simp] theorem onRng_portsCfg (f : Rng → Rng) : (d.onRng f).portsCfg = d.portsCfg := by dsimp only [onRng]
@[simp] theorem onRng_waits (f : Rng → Rng) : (d.onRng f).waits = d.waits := by dsimp only [onRng]
@[simp] theorem onRng_exports (f : Rng → Rng) : (d.onRng f).exports = d.exports := by dsimp only [onRng]
@[simp] theorem onRng_tiles (f : Rng → Rng) : (d.onRng f).tiles = d.tiles := by dsimp only [onRng]
@[simp] theorem onRng_keys (f : Rng → Rng) : (d.onRng f).keys = d.keys := by dsimp only [onRng]
@[simp] theorem onRng_tamper (f : Rng → Rng) : (d.onRng f).tamper = d.tamper := by dsimp only [onRng]
@[simp] theorem onRng_aon (f : Rng → Rng) : (d.onRng f).aon = d.aon := by dsimp only [onRng]
@[simp] theorem onRng_log (f : Rng → Rng) : (d.onRng f).log = d.log := by dsimp only [onRng]
@[simp] theorem onRng_life (f : Rng → Rng) : (d.onRng f).life = d.life := by dsimp only [onRng]
@[simp] theorem onRng_debug (f : Rng → Rng) : (d.onRng f).dbg = d.dbg := by dsimp only [onRng]
@[simp] theorem onRng_cores (f : Rng → Rng) : (d.onRng f).cores = d.cores := by dsimp only [onRng]
@[simp] theorem onRng_flash (f : Rng → Rng) : (d.onRng f).flash = d.flash := by dsimp only [onRng]
@[simp] theorem onRng_settings (f : Rng → Rng) : (d.onRng f).settings = d.settings := by dsimp only [onRng]
@[simp] theorem onRng_field (f : Rng → Rng) : (d.onRng f).field = d.field := by dsimp only [onRng]
@[simp] theorem onRng_out (f : Rng → Rng) : (d.onRng f).out = d.out := by dsimp only [onRng]

@[simp] theorem onPorts_portsCfg (f : PortsCfg → PortsCfg) : (d.onPorts f).portsCfg = f d.portsCfg := by dsimp only [onPorts]
@[simp] theorem onPorts_variant (f : PortsCfg → PortsCfg) : (d.onPorts f).variant = d.variant := by dsimp only [onPorts]
@[simp] theorem onPorts_clk (f : PortsCfg → PortsCfg) : (d.onPorts f).clk = d.clk := by dsimp only [onPorts]
@[simp] theorem onPorts_ctr (f : PortsCfg → PortsCfg) : (d.onPorts f).ctr = d.ctr := by dsimp only [onPorts]
@[simp] theorem onPorts_supply (f : PortsCfg → PortsCfg) : (d.onPorts f).supply = d.supply := by dsimp only [onPorts]
@[simp] theorem onPorts_lanes (f : PortsCfg → PortsCfg) : (d.onPorts f).lanes = d.lanes := by dsimp only [onPorts]
@[simp] theorem onPorts_combs (f : PortsCfg → PortsCfg) : (d.onPorts f).combs = d.combs := by dsimp only [onPorts]
@[simp] theorem onPorts_arb (f : PortsCfg → PortsCfg) : (d.onPorts f).arb = d.arb := by dsimp only [onPorts]
@[simp] theorem onPorts_hive (f : PortsCfg → PortsCfg) : (d.onPorts f).hive = d.hive := by dsimp only [onPorts]
@[simp] theorem onPorts_receipts (f : PortsCfg → PortsCfg) : (d.onPorts f).receipts = d.receipts := by dsimp only [onPorts]
@[simp] theorem onPorts_wag (f : PortsCfg → PortsCfg) : (d.onPorts f).wag = d.wag := by dsimp only [onPorts]
@[simp] theorem onPorts_wagEps (f : PortsCfg → PortsCfg) : (d.onPorts f).wagEps = d.wagEps := by dsimp only [onPorts]
@[simp] theorem onPorts_time (f : PortsCfg → PortsCfg) : (d.onPorts f).time = d.time := by dsimp only [onPorts]
@[simp] theorem onPorts_store (f : PortsCfg → PortsCfg) : (d.onPorts f).store = d.store := by dsimp only [onPorts]
@[simp] theorem onPorts_staging (f : PortsCfg → PortsCfg) : (d.onPorts f).staging = d.staging := by dsimp only [onPorts]
@[simp] theorem onPorts_power (f : PortsCfg → PortsCfg) : (d.onPorts f).power = d.power := by dsimp only [onPorts]
@[simp] theorem onPorts_close (f : PortsCfg → PortsCfg) : (d.onPorts f).close = d.close := by dsimp only [onPorts]
@[simp] theorem onPorts_ports (f : PortsCfg → PortsCfg) : (d.onPorts f).ports = d.ports := by dsimp only [onPorts]
@[simp] theorem onPorts_waits (f : PortsCfg → PortsCfg) : (d.onPorts f).waits = d.waits := by dsimp only [onPorts]
@[simp] theorem onPorts_exports (f : PortsCfg → PortsCfg) : (d.onPorts f).exports = d.exports := by dsimp only [onPorts]
@[simp] theorem onPorts_tiles (f : PortsCfg → PortsCfg) : (d.onPorts f).tiles = d.tiles := by dsimp only [onPorts]
@[simp] theorem onPorts_keys (f : PortsCfg → PortsCfg) : (d.onPorts f).keys = d.keys := by dsimp only [onPorts]
@[simp] theorem onPorts_rng (f : PortsCfg → PortsCfg) : (d.onPorts f).rng = d.rng := by dsimp only [onPorts]
@[simp] theorem onPorts_tamper (f : PortsCfg → PortsCfg) : (d.onPorts f).tamper = d.tamper := by dsimp only [onPorts]
@[simp] theorem onPorts_aon (f : PortsCfg → PortsCfg) : (d.onPorts f).aon = d.aon := by dsimp only [onPorts]
@[simp] theorem onPorts_log (f : PortsCfg → PortsCfg) : (d.onPorts f).log = d.log := by dsimp only [onPorts]
@[simp] theorem onPorts_life (f : PortsCfg → PortsCfg) : (d.onPorts f).life = d.life := by dsimp only [onPorts]
@[simp] theorem onPorts_debug (f : PortsCfg → PortsCfg) : (d.onPorts f).dbg = d.dbg := by dsimp only [onPorts]
@[simp] theorem onPorts_cores (f : PortsCfg → PortsCfg) : (d.onPorts f).cores = d.cores := by dsimp only [onPorts]
@[simp] theorem onPorts_flash (f : PortsCfg → PortsCfg) : (d.onPorts f).flash = d.flash := by dsimp only [onPorts]
@[simp] theorem onPorts_settings (f : PortsCfg → PortsCfg) : (d.onPorts f).settings = d.settings := by dsimp only [onPorts]
@[simp] theorem onPorts_field (f : PortsCfg → PortsCfg) : (d.onPorts f).field = d.field := by dsimp only [onPorts]
@[simp] theorem onPorts_out (f : PortsCfg → PortsCfg) : (d.onPorts f).out = d.out := by dsimp only [onPorts]

@[simp] theorem onStore_store (f : Store → Store) : (d.onStore f).store = f d.store := by dsimp only [onStore]
@[simp] theorem onStore_variant (f : Store → Store) : (d.onStore f).variant = d.variant := by dsimp only [onStore]
@[simp] theorem onStore_clk (f : Store → Store) : (d.onStore f).clk = d.clk := by dsimp only [onStore]
@[simp] theorem onStore_ctr (f : Store → Store) : (d.onStore f).ctr = d.ctr := by dsimp only [onStore]
@[simp] theorem onStore_supply (f : Store → Store) : (d.onStore f).supply = d.supply := by dsimp only [onStore]
@[simp] theorem onStore_lanes (f : Store → Store) : (d.onStore f).lanes = d.lanes := by dsimp only [onStore]
@[simp] theorem onStore_combs (f : Store → Store) : (d.onStore f).combs = d.combs := by dsimp only [onStore]
@[simp] theorem onStore_arb (f : Store → Store) : (d.onStore f).arb = d.arb := by dsimp only [onStore]
@[simp] theorem onStore_hive (f : Store → Store) : (d.onStore f).hive = d.hive := by dsimp only [onStore]
@[simp] theorem onStore_receipts (f : Store → Store) : (d.onStore f).receipts = d.receipts := by dsimp only [onStore]
@[simp] theorem onStore_wag (f : Store → Store) : (d.onStore f).wag = d.wag := by dsimp only [onStore]
@[simp] theorem onStore_wagEps (f : Store → Store) : (d.onStore f).wagEps = d.wagEps := by dsimp only [onStore]
@[simp] theorem onStore_time (f : Store → Store) : (d.onStore f).time = d.time := by dsimp only [onStore]
@[simp] theorem onStore_staging (f : Store → Store) : (d.onStore f).staging = d.staging := by dsimp only [onStore]
@[simp] theorem onStore_power (f : Store → Store) : (d.onStore f).power = d.power := by dsimp only [onStore]
@[simp] theorem onStore_close (f : Store → Store) : (d.onStore f).close = d.close := by dsimp only [onStore]
@[simp] theorem onStore_ports (f : Store → Store) : (d.onStore f).ports = d.ports := by dsimp only [onStore]
@[simp] theorem onStore_portsCfg (f : Store → Store) : (d.onStore f).portsCfg = d.portsCfg := by dsimp only [onStore]
@[simp] theorem onStore_waits (f : Store → Store) : (d.onStore f).waits = d.waits := by dsimp only [onStore]
@[simp] theorem onStore_exports (f : Store → Store) : (d.onStore f).exports = d.exports := by dsimp only [onStore]
@[simp] theorem onStore_tiles (f : Store → Store) : (d.onStore f).tiles = d.tiles := by dsimp only [onStore]
@[simp] theorem onStore_keys (f : Store → Store) : (d.onStore f).keys = d.keys := by dsimp only [onStore]
@[simp] theorem onStore_rng (f : Store → Store) : (d.onStore f).rng = d.rng := by dsimp only [onStore]
@[simp] theorem onStore_tamper (f : Store → Store) : (d.onStore f).tamper = d.tamper := by dsimp only [onStore]
@[simp] theorem onStore_aon (f : Store → Store) : (d.onStore f).aon = d.aon := by dsimp only [onStore]
@[simp] theorem onStore_log (f : Store → Store) : (d.onStore f).log = d.log := by dsimp only [onStore]
@[simp] theorem onStore_life (f : Store → Store) : (d.onStore f).life = d.life := by dsimp only [onStore]
@[simp] theorem onStore_debug (f : Store → Store) : (d.onStore f).dbg = d.dbg := by dsimp only [onStore]
@[simp] theorem onStore_cores (f : Store → Store) : (d.onStore f).cores = d.cores := by dsimp only [onStore]
@[simp] theorem onStore_flash (f : Store → Store) : (d.onStore f).flash = d.flash := by dsimp only [onStore]
@[simp] theorem onStore_settings (f : Store → Store) : (d.onStore f).settings = d.settings := by dsimp only [onStore]
@[simp] theorem onStore_field (f : Store → Store) : (d.onStore f).field = d.field := by dsimp only [onStore]
@[simp] theorem onStore_out (f : Store → Store) : (d.onStore f).out = d.out := by dsimp only [onStore]

@[simp] theorem onTamper_tamper (f : Tamper → Tamper) : (d.onTamper f).tamper = f d.tamper := by dsimp only [onTamper]
@[simp] theorem onTamper_variant (f : Tamper → Tamper) : (d.onTamper f).variant = d.variant := by dsimp only [onTamper]
@[simp] theorem onTamper_clk (f : Tamper → Tamper) : (d.onTamper f).clk = d.clk := by dsimp only [onTamper]
@[simp] theorem onTamper_ctr (f : Tamper → Tamper) : (d.onTamper f).ctr = d.ctr := by dsimp only [onTamper]
@[simp] theorem onTamper_supply (f : Tamper → Tamper) : (d.onTamper f).supply = d.supply := by dsimp only [onTamper]
@[simp] theorem onTamper_lanes (f : Tamper → Tamper) : (d.onTamper f).lanes = d.lanes := by dsimp only [onTamper]
@[simp] theorem onTamper_combs (f : Tamper → Tamper) : (d.onTamper f).combs = d.combs := by dsimp only [onTamper]
@[simp] theorem onTamper_arb (f : Tamper → Tamper) : (d.onTamper f).arb = d.arb := by dsimp only [onTamper]
@[simp] theorem onTamper_hive (f : Tamper → Tamper) : (d.onTamper f).hive = d.hive := by dsimp only [onTamper]
@[simp] theorem onTamper_receipts (f : Tamper → Tamper) : (d.onTamper f).receipts = d.receipts := by dsimp only [onTamper]
@[simp] theorem onTamper_wag (f : Tamper → Tamper) : (d.onTamper f).wag = d.wag := by dsimp only [onTamper]
@[simp] theorem onTamper_wagEps (f : Tamper → Tamper) : (d.onTamper f).wagEps = d.wagEps := by dsimp only [onTamper]
@[simp] theorem onTamper_time (f : Tamper → Tamper) : (d.onTamper f).time = d.time := by dsimp only [onTamper]
@[simp] theorem onTamper_store (f : Tamper → Tamper) : (d.onTamper f).store = d.store := by dsimp only [onTamper]
@[simp] theorem onTamper_staging (f : Tamper → Tamper) : (d.onTamper f).staging = d.staging := by dsimp only [onTamper]
@[simp] theorem onTamper_power (f : Tamper → Tamper) : (d.onTamper f).power = d.power := by dsimp only [onTamper]
@[simp] theorem onTamper_close (f : Tamper → Tamper) : (d.onTamper f).close = d.close := by dsimp only [onTamper]
@[simp] theorem onTamper_ports (f : Tamper → Tamper) : (d.onTamper f).ports = d.ports := by dsimp only [onTamper]
@[simp] theorem onTamper_portsCfg (f : Tamper → Tamper) : (d.onTamper f).portsCfg = d.portsCfg := by dsimp only [onTamper]
@[simp] theorem onTamper_waits (f : Tamper → Tamper) : (d.onTamper f).waits = d.waits := by dsimp only [onTamper]
@[simp] theorem onTamper_exports (f : Tamper → Tamper) : (d.onTamper f).exports = d.exports := by dsimp only [onTamper]
@[simp] theorem onTamper_tiles (f : Tamper → Tamper) : (d.onTamper f).tiles = d.tiles := by dsimp only [onTamper]
@[simp] theorem onTamper_keys (f : Tamper → Tamper) : (d.onTamper f).keys = d.keys := by dsimp only [onTamper]
@[simp] theorem onTamper_rng (f : Tamper → Tamper) : (d.onTamper f).rng = d.rng := by dsimp only [onTamper]
@[simp] theorem onTamper_aon (f : Tamper → Tamper) : (d.onTamper f).aon = d.aon := by dsimp only [onTamper]
@[simp] theorem onTamper_log (f : Tamper → Tamper) : (d.onTamper f).log = d.log := by dsimp only [onTamper]
@[simp] theorem onTamper_life (f : Tamper → Tamper) : (d.onTamper f).life = d.life := by dsimp only [onTamper]
@[simp] theorem onTamper_debug (f : Tamper → Tamper) : (d.onTamper f).dbg = d.dbg := by dsimp only [onTamper]
@[simp] theorem onTamper_cores (f : Tamper → Tamper) : (d.onTamper f).cores = d.cores := by dsimp only [onTamper]
@[simp] theorem onTamper_flash (f : Tamper → Tamper) : (d.onTamper f).flash = d.flash := by dsimp only [onTamper]
@[simp] theorem onTamper_settings (f : Tamper → Tamper) : (d.onTamper f).settings = d.settings := by dsimp only [onTamper]
@[simp] theorem onTamper_field (f : Tamper → Tamper) : (d.onTamper f).field = d.field := by dsimp only [onTamper]
@[simp] theorem onTamper_out (f : Tamper → Tamper) : (d.onTamper f).out = d.out := by dsimp only [onTamper]

@[simp] theorem onAon_aon (f : AonTamper → AonTamper) : (d.onAon f).aon = f d.aon := by dsimp only [onAon]
@[simp] theorem onAon_variant (f : AonTamper → AonTamper) : (d.onAon f).variant = d.variant := by dsimp only [onAon]
@[simp] theorem onAon_clk (f : AonTamper → AonTamper) : (d.onAon f).clk = d.clk := by dsimp only [onAon]
@[simp] theorem onAon_ctr (f : AonTamper → AonTamper) : (d.onAon f).ctr = d.ctr := by dsimp only [onAon]
@[simp] theorem onAon_supply (f : AonTamper → AonTamper) : (d.onAon f).supply = d.supply := by dsimp only [onAon]
@[simp] theorem onAon_lanes (f : AonTamper → AonTamper) : (d.onAon f).lanes = d.lanes := by dsimp only [onAon]
@[simp] theorem onAon_combs (f : AonTamper → AonTamper) : (d.onAon f).combs = d.combs := by dsimp only [onAon]
@[simp] theorem onAon_arb (f : AonTamper → AonTamper) : (d.onAon f).arb = d.arb := by dsimp only [onAon]
@[simp] theorem onAon_hive (f : AonTamper → AonTamper) : (d.onAon f).hive = d.hive := by dsimp only [onAon]
@[simp] theorem onAon_receipts (f : AonTamper → AonTamper) : (d.onAon f).receipts = d.receipts := by dsimp only [onAon]
@[simp] theorem onAon_wag (f : AonTamper → AonTamper) : (d.onAon f).wag = d.wag := by dsimp only [onAon]
@[simp] theorem onAon_wagEps (f : AonTamper → AonTamper) : (d.onAon f).wagEps = d.wagEps := by dsimp only [onAon]
@[simp] theorem onAon_time (f : AonTamper → AonTamper) : (d.onAon f).time = d.time := by dsimp only [onAon]
@[simp] theorem onAon_store (f : AonTamper → AonTamper) : (d.onAon f).store = d.store := by dsimp only [onAon]
@[simp] theorem onAon_staging (f : AonTamper → AonTamper) : (d.onAon f).staging = d.staging := by dsimp only [onAon]
@[simp] theorem onAon_power (f : AonTamper → AonTamper) : (d.onAon f).power = d.power := by dsimp only [onAon]
@[simp] theorem onAon_close (f : AonTamper → AonTamper) : (d.onAon f).close = d.close := by dsimp only [onAon]
@[simp] theorem onAon_ports (f : AonTamper → AonTamper) : (d.onAon f).ports = d.ports := by dsimp only [onAon]
@[simp] theorem onAon_portsCfg (f : AonTamper → AonTamper) : (d.onAon f).portsCfg = d.portsCfg := by dsimp only [onAon]
@[simp] theorem onAon_waits (f : AonTamper → AonTamper) : (d.onAon f).waits = d.waits := by dsimp only [onAon]
@[simp] theorem onAon_exports (f : AonTamper → AonTamper) : (d.onAon f).exports = d.exports := by dsimp only [onAon]
@[simp] theorem onAon_tiles (f : AonTamper → AonTamper) : (d.onAon f).tiles = d.tiles := by dsimp only [onAon]
@[simp] theorem onAon_keys (f : AonTamper → AonTamper) : (d.onAon f).keys = d.keys := by dsimp only [onAon]
@[simp] theorem onAon_rng (f : AonTamper → AonTamper) : (d.onAon f).rng = d.rng := by dsimp only [onAon]
@[simp] theorem onAon_tamper (f : AonTamper → AonTamper) : (d.onAon f).tamper = d.tamper := by dsimp only [onAon]
@[simp] theorem onAon_log (f : AonTamper → AonTamper) : (d.onAon f).log = d.log := by dsimp only [onAon]
@[simp] theorem onAon_life (f : AonTamper → AonTamper) : (d.onAon f).life = d.life := by dsimp only [onAon]
@[simp] theorem onAon_debug (f : AonTamper → AonTamper) : (d.onAon f).dbg = d.dbg := by dsimp only [onAon]
@[simp] theorem onAon_cores (f : AonTamper → AonTamper) : (d.onAon f).cores = d.cores := by dsimp only [onAon]
@[simp] theorem onAon_flash (f : AonTamper → AonTamper) : (d.onAon f).flash = d.flash := by dsimp only [onAon]
@[simp] theorem onAon_settings (f : AonTamper → AonTamper) : (d.onAon f).settings = d.settings := by dsimp only [onAon]
@[simp] theorem onAon_field (f : AonTamper → AonTamper) : (d.onAon f).field = d.field := by dsimp only [onAon]
@[simp] theorem onAon_out (f : AonTamper → AonTamper) : (d.onAon f).out = d.out := by dsimp only [onAon]

@[simp] theorem onTiles_tiles (f : Tiles → Tiles) : (d.onTiles f).tiles = f d.tiles := by dsimp only [onTiles]
@[simp] theorem onTiles_variant (f : Tiles → Tiles) : (d.onTiles f).variant = d.variant := by dsimp only [onTiles]
@[simp] theorem onTiles_clk (f : Tiles → Tiles) : (d.onTiles f).clk = d.clk := by dsimp only [onTiles]
@[simp] theorem onTiles_ctr (f : Tiles → Tiles) : (d.onTiles f).ctr = d.ctr := by dsimp only [onTiles]
@[simp] theorem onTiles_supply (f : Tiles → Tiles) : (d.onTiles f).supply = d.supply := by dsimp only [onTiles]
@[simp] theorem onTiles_lanes (f : Tiles → Tiles) : (d.onTiles f).lanes = d.lanes := by dsimp only [onTiles]
@[simp] theorem onTiles_combs (f : Tiles → Tiles) : (d.onTiles f).combs = d.combs := by dsimp only [onTiles]
@[simp] theorem onTiles_arb (f : Tiles → Tiles) : (d.onTiles f).arb = d.arb := by dsimp only [onTiles]
@[simp] theorem onTiles_hive (f : Tiles → Tiles) : (d.onTiles f).hive = d.hive := by dsimp only [onTiles]
@[simp] theorem onTiles_receipts (f : Tiles → Tiles) : (d.onTiles f).receipts = d.receipts := by dsimp only [onTiles]
@[simp] theorem onTiles_wag (f : Tiles → Tiles) : (d.onTiles f).wag = d.wag := by dsimp only [onTiles]
@[simp] theorem onTiles_wagEps (f : Tiles → Tiles) : (d.onTiles f).wagEps = d.wagEps := by dsimp only [onTiles]
@[simp] theorem onTiles_time (f : Tiles → Tiles) : (d.onTiles f).time = d.time := by dsimp only [onTiles]
@[simp] theorem onTiles_store (f : Tiles → Tiles) : (d.onTiles f).store = d.store := by dsimp only [onTiles]
@[simp] theorem onTiles_staging (f : Tiles → Tiles) : (d.onTiles f).staging = d.staging := by dsimp only [onTiles]
@[simp] theorem onTiles_power (f : Tiles → Tiles) : (d.onTiles f).power = d.power := by dsimp only [onTiles]
@[simp] theorem onTiles_close (f : Tiles → Tiles) : (d.onTiles f).close = d.close := by dsimp only [onTiles]
@[simp] theorem onTiles_ports (f : Tiles → Tiles) : (d.onTiles f).ports = d.ports := by dsimp only [onTiles]
@[simp] theorem onTiles_portsCfg (f : Tiles → Tiles) : (d.onTiles f).portsCfg = d.portsCfg := by dsimp only [onTiles]
@[simp] theorem onTiles_waits (f : Tiles → Tiles) : (d.onTiles f).waits = d.waits := by dsimp only [onTiles]
@[simp] theorem onTiles_exports (f : Tiles → Tiles) : (d.onTiles f).exports = d.exports := by dsimp only [onTiles]
@[simp] theorem onTiles_keys (f : Tiles → Tiles) : (d.onTiles f).keys = d.keys := by dsimp only [onTiles]
@[simp] theorem onTiles_rng (f : Tiles → Tiles) : (d.onTiles f).rng = d.rng := by dsimp only [onTiles]
@[simp] theorem onTiles_tamper (f : Tiles → Tiles) : (d.onTiles f).tamper = d.tamper := by dsimp only [onTiles]
@[simp] theorem onTiles_aon (f : Tiles → Tiles) : (d.onTiles f).aon = d.aon := by dsimp only [onTiles]
@[simp] theorem onTiles_log (f : Tiles → Tiles) : (d.onTiles f).log = d.log := by dsimp only [onTiles]
@[simp] theorem onTiles_life (f : Tiles → Tiles) : (d.onTiles f).life = d.life := by dsimp only [onTiles]
@[simp] theorem onTiles_debug (f : Tiles → Tiles) : (d.onTiles f).dbg = d.dbg := by dsimp only [onTiles]
@[simp] theorem onTiles_cores (f : Tiles → Tiles) : (d.onTiles f).cores = d.cores := by dsimp only [onTiles]
@[simp] theorem onTiles_flash (f : Tiles → Tiles) : (d.onTiles f).flash = d.flash := by dsimp only [onTiles]
@[simp] theorem onTiles_settings (f : Tiles → Tiles) : (d.onTiles f).settings = d.settings := by dsimp only [onTiles]
@[simp] theorem onTiles_field (f : Tiles → Tiles) : (d.onTiles f).field = d.field := by dsimp only [onTiles]
@[simp] theorem onTiles_out (f : Tiles → Tiles) : (d.onTiles f).out = d.out := by dsimp only [onTiles]

@[simp] theorem onServo_time (f : Servo → Servo) : (d.onServo f).time = { d.time with servo := f d.time.servo } := by dsimp only [onServo]
@[simp] theorem onServo_variant (f : Servo → Servo) : (d.onServo f).variant = d.variant := by dsimp only [onServo]
@[simp] theorem onServo_clk (f : Servo → Servo) : (d.onServo f).clk = d.clk := by dsimp only [onServo]
@[simp] theorem onServo_ctr (f : Servo → Servo) : (d.onServo f).ctr = d.ctr := by dsimp only [onServo]
@[simp] theorem onServo_supply (f : Servo → Servo) : (d.onServo f).supply = d.supply := by dsimp only [onServo]
@[simp] theorem onServo_lanes (f : Servo → Servo) : (d.onServo f).lanes = d.lanes := by dsimp only [onServo]
@[simp] theorem onServo_combs (f : Servo → Servo) : (d.onServo f).combs = d.combs := by dsimp only [onServo]
@[simp] theorem onServo_arb (f : Servo → Servo) : (d.onServo f).arb = d.arb := by dsimp only [onServo]
@[simp] theorem onServo_hive (f : Servo → Servo) : (d.onServo f).hive = d.hive := by dsimp only [onServo]
@[simp] theorem onServo_receipts (f : Servo → Servo) : (d.onServo f).receipts = d.receipts := by dsimp only [onServo]
@[simp] theorem onServo_wag (f : Servo → Servo) : (d.onServo f).wag = d.wag := by dsimp only [onServo]
@[simp] theorem onServo_wagEps (f : Servo → Servo) : (d.onServo f).wagEps = d.wagEps := by dsimp only [onServo]
@[simp] theorem onServo_store (f : Servo → Servo) : (d.onServo f).store = d.store := by dsimp only [onServo]
@[simp] theorem onServo_staging (f : Servo → Servo) : (d.onServo f).staging = d.staging := by dsimp only [onServo]
@[simp] theorem onServo_power (f : Servo → Servo) : (d.onServo f).power = d.power := by dsimp only [onServo]
@[simp] theorem onServo_close (f : Servo → Servo) : (d.onServo f).close = d.close := by dsimp only [onServo]
@[simp] theorem onServo_ports (f : Servo → Servo) : (d.onServo f).ports = d.ports := by dsimp only [onServo]
@[simp] theorem onServo_portsCfg (f : Servo → Servo) : (d.onServo f).portsCfg = d.portsCfg := by dsimp only [onServo]
@[simp] theorem onServo_waits (f : Servo → Servo) : (d.onServo f).waits = d.waits := by dsimp only [onServo]
@[simp] theorem onServo_exports (f : Servo → Servo) : (d.onServo f).exports = d.exports := by dsimp only [onServo]
@[simp] theorem onServo_tiles (f : Servo → Servo) : (d.onServo f).tiles = d.tiles := by dsimp only [onServo]
@[simp] theorem onServo_keys (f : Servo → Servo) : (d.onServo f).keys = d.keys := by dsimp only [onServo]
@[simp] theorem onServo_rng (f : Servo → Servo) : (d.onServo f).rng = d.rng := by dsimp only [onServo]
@[simp] theorem onServo_tamper (f : Servo → Servo) : (d.onServo f).tamper = d.tamper := by dsimp only [onServo]
@[simp] theorem onServo_aon (f : Servo → Servo) : (d.onServo f).aon = d.aon := by dsimp only [onServo]
@[simp] theorem onServo_log (f : Servo → Servo) : (d.onServo f).log = d.log := by dsimp only [onServo]
@[simp] theorem onServo_life (f : Servo → Servo) : (d.onServo f).life = d.life := by dsimp only [onServo]
@[simp] theorem onServo_debug (f : Servo → Servo) : (d.onServo f).dbg = d.dbg := by dsimp only [onServo]
@[simp] theorem onServo_cores (f : Servo → Servo) : (d.onServo f).cores = d.cores := by dsimp only [onServo]
@[simp] theorem onServo_flash (f : Servo → Servo) : (d.onServo f).flash = d.flash := by dsimp only [onServo]
@[simp] theorem onServo_settings (f : Servo → Servo) : (d.onServo f).settings = d.settings := by dsimp only [onServo]
@[simp] theorem onServo_field (f : Servo → Servo) : (d.onServo f).field = d.field := by dsimp only [onServo]
@[simp] theorem onServo_out (f : Servo → Servo) : (d.onServo f).out = d.out := by dsimp only [onServo]

@[simp] theorem onAonTime_time (f : AonTime → AonTime) : (d.onAonTime f).time = { d.time with aon := f d.time.aon } := by dsimp only [onAonTime]
@[simp] theorem onAonTime_variant (f : AonTime → AonTime) : (d.onAonTime f).variant = d.variant := by dsimp only [onAonTime]
@[simp] theorem onAonTime_clk (f : AonTime → AonTime) : (d.onAonTime f).clk = d.clk := by dsimp only [onAonTime]
@[simp] theorem onAonTime_ctr (f : AonTime → AonTime) : (d.onAonTime f).ctr = d.ctr := by dsimp only [onAonTime]
@[simp] theorem onAonTime_supply (f : AonTime → AonTime) : (d.onAonTime f).supply = d.supply := by dsimp only [onAonTime]
@[simp] theorem onAonTime_lanes (f : AonTime → AonTime) : (d.onAonTime f).lanes = d.lanes := by dsimp only [onAonTime]
@[simp] theorem onAonTime_combs (f : AonTime → AonTime) : (d.onAonTime f).combs = d.combs := by dsimp only [onAonTime]
@[simp] theorem onAonTime_arb (f : AonTime → AonTime) : (d.onAonTime f).arb = d.arb := by dsimp only [onAonTime]
@[simp] theorem onAonTime_hive (f : AonTime → AonTime) : (d.onAonTime f).hive = d.hive := by dsimp only [onAonTime]
@[simp] theorem onAonTime_receipts (f : AonTime → AonTime) : (d.onAonTime f).receipts = d.receipts := by dsimp only [onAonTime]
@[simp] theorem onAonTime_wag (f : AonTime → AonTime) : (d.onAonTime f).wag = d.wag := by dsimp only [onAonTime]
@[simp] theorem onAonTime_wagEps (f : AonTime → AonTime) : (d.onAonTime f).wagEps = d.wagEps := by dsimp only [onAonTime]
@[simp] theorem onAonTime_store (f : AonTime → AonTime) : (d.onAonTime f).store = d.store := by dsimp only [onAonTime]
@[simp] theorem onAonTime_staging (f : AonTime → AonTime) : (d.onAonTime f).staging = d.staging := by dsimp only [onAonTime]
@[simp] theorem onAonTime_power (f : AonTime → AonTime) : (d.onAonTime f).power = d.power := by dsimp only [onAonTime]
@[simp] theorem onAonTime_close (f : AonTime → AonTime) : (d.onAonTime f).close = d.close := by dsimp only [onAonTime]
@[simp] theorem onAonTime_ports (f : AonTime → AonTime) : (d.onAonTime f).ports = d.ports := by dsimp only [onAonTime]
@[simp] theorem onAonTime_portsCfg (f : AonTime → AonTime) : (d.onAonTime f).portsCfg = d.portsCfg := by dsimp only [onAonTime]
@[simp] theorem onAonTime_waits (f : AonTime → AonTime) : (d.onAonTime f).waits = d.waits := by dsimp only [onAonTime]
@[simp] theorem onAonTime_exports (f : AonTime → AonTime) : (d.onAonTime f).exports = d.exports := by dsimp only [onAonTime]
@[simp] theorem onAonTime_tiles (f : AonTime → AonTime) : (d.onAonTime f).tiles = d.tiles := by dsimp only [onAonTime]
@[simp] theorem onAonTime_keys (f : AonTime → AonTime) : (d.onAonTime f).keys = d.keys := by dsimp only [onAonTime]
@[simp] theorem onAonTime_rng (f : AonTime → AonTime) : (d.onAonTime f).rng = d.rng := by dsimp only [onAonTime]
@[simp] theorem onAonTime_tamper (f : AonTime → AonTime) : (d.onAonTime f).tamper = d.tamper := by dsimp only [onAonTime]
@[simp] theorem onAonTime_aon (f : AonTime → AonTime) : (d.onAonTime f).aon = d.aon := by dsimp only [onAonTime]
@[simp] theorem onAonTime_log (f : AonTime → AonTime) : (d.onAonTime f).log = d.log := by dsimp only [onAonTime]
@[simp] theorem onAonTime_life (f : AonTime → AonTime) : (d.onAonTime f).life = d.life := by dsimp only [onAonTime]
@[simp] theorem onAonTime_debug (f : AonTime → AonTime) : (d.onAonTime f).dbg = d.dbg := by dsimp only [onAonTime]
@[simp] theorem onAonTime_cores (f : AonTime → AonTime) : (d.onAonTime f).cores = d.cores := by dsimp only [onAonTime]
@[simp] theorem onAonTime_flash (f : AonTime → AonTime) : (d.onAonTime f).flash = d.flash := by dsimp only [onAonTime]
@[simp] theorem onAonTime_settings (f : AonTime → AonTime) : (d.onAonTime f).settings = d.settings := by dsimp only [onAonTime]
@[simp] theorem onAonTime_field (f : AonTime → AonTime) : (d.onAonTime f).field = d.field := by dsimp only [onAonTime]
@[simp] theorem onAonTime_out (f : AonTime → AonTime) : (d.onAonTime f).out = d.out := by dsimp only [onAonTime]

@[simp] theorem onWag_wag (f : Wag → Wag) : (d.onWag f).wag = f d.wag := by dsimp only [onWag]
@[simp] theorem onWag_variant (f : Wag → Wag) : (d.onWag f).variant = d.variant := by dsimp only [onWag]
@[simp] theorem onWag_clk (f : Wag → Wag) : (d.onWag f).clk = d.clk := by dsimp only [onWag]
@[simp] theorem onWag_ctr (f : Wag → Wag) : (d.onWag f).ctr = d.ctr := by dsimp only [onWag]
@[simp] theorem onWag_supply (f : Wag → Wag) : (d.onWag f).supply = d.supply := by dsimp only [onWag]
@[simp] theorem onWag_lanes (f : Wag → Wag) : (d.onWag f).lanes = d.lanes := by dsimp only [onWag]
@[simp] theorem onWag_combs (f : Wag → Wag) : (d.onWag f).combs = d.combs := by dsimp only [onWag]
@[simp] theorem onWag_arb (f : Wag → Wag) : (d.onWag f).arb = d.arb := by dsimp only [onWag]
@[simp] theorem onWag_hive (f : Wag → Wag) : (d.onWag f).hive = d.hive := by dsimp only [onWag]
@[simp] theorem onWag_receipts (f : Wag → Wag) : (d.onWag f).receipts = d.receipts := by dsimp only [onWag]
@[simp] theorem onWag_wagEps (f : Wag → Wag) : (d.onWag f).wagEps = d.wagEps := by dsimp only [onWag]
@[simp] theorem onWag_time (f : Wag → Wag) : (d.onWag f).time = d.time := by dsimp only [onWag]
@[simp] theorem onWag_store (f : Wag → Wag) : (d.onWag f).store = d.store := by dsimp only [onWag]
@[simp] theorem onWag_staging (f : Wag → Wag) : (d.onWag f).staging = d.staging := by dsimp only [onWag]
@[simp] theorem onWag_power (f : Wag → Wag) : (d.onWag f).power = d.power := by dsimp only [onWag]
@[simp] theorem onWag_close (f : Wag → Wag) : (d.onWag f).close = d.close := by dsimp only [onWag]
@[simp] theorem onWag_ports (f : Wag → Wag) : (d.onWag f).ports = d.ports := by dsimp only [onWag]
@[simp] theorem onWag_portsCfg (f : Wag → Wag) : (d.onWag f).portsCfg = d.portsCfg := by dsimp only [onWag]
@[simp] theorem onWag_waits (f : Wag → Wag) : (d.onWag f).waits = d.waits := by dsimp only [onWag]
@[simp] theorem onWag_exports (f : Wag → Wag) : (d.onWag f).exports = d.exports := by dsimp only [onWag]
@[simp] theorem onWag_tiles (f : Wag → Wag) : (d.onWag f).tiles = d.tiles := by dsimp only [onWag]
@[simp] theorem onWag_keys (f : Wag → Wag) : (d.onWag f).keys = d.keys := by dsimp only [onWag]
@[simp] theorem onWag_rng (f : Wag → Wag) : (d.onWag f).rng = d.rng := by dsimp only [onWag]
@[simp] theorem onWag_tamper (f : Wag → Wag) : (d.onWag f).tamper = d.tamper := by dsimp only [onWag]
@[simp] theorem onWag_aon (f : Wag → Wag) : (d.onWag f).aon = d.aon := by dsimp only [onWag]
@[simp] theorem onWag_log (f : Wag → Wag) : (d.onWag f).log = d.log := by dsimp only [onWag]
@[simp] theorem onWag_life (f : Wag → Wag) : (d.onWag f).life = d.life := by dsimp only [onWag]
@[simp] theorem onWag_debug (f : Wag → Wag) : (d.onWag f).dbg = d.dbg := by dsimp only [onWag]
@[simp] theorem onWag_cores (f : Wag → Wag) : (d.onWag f).cores = d.cores := by dsimp only [onWag]
@[simp] theorem onWag_flash (f : Wag → Wag) : (d.onWag f).flash = d.flash := by dsimp only [onWag]
@[simp] theorem onWag_settings (f : Wag → Wag) : (d.onWag f).settings = d.settings := by dsimp only [onWag]
@[simp] theorem onWag_field (f : Wag → Wag) : (d.onWag f).field = d.field := by dsimp only [onWag]
@[simp] theorem onWag_out (f : Wag → Wag) : (d.onWag f).out = d.out := by dsimp only [onWag]

end Sys2Proof.Machine.Dev
end

