-- ==== Sys2Proof/Laws/Cpu.lean ====
section
/-! SUPPORT. What the shared operations of the Kwaxon-48 instructions do: issue, the checks at issue, and the end of an
instruction. -/
namespace Sys2Proof.Machine

/-- Two changes of a core that agree on it are one. -/
theorem Dev.onCore_congr (d : Dev) (n : Nat) {f k : Core → Core} (h : f (d.core n) = k (d.core n)) : d.onCore n f = d.onCore n k := by
  have e : vupd d.cores n f = vupd d.cores n k := by
    ext i hi
    by_cases c : i = n
    · subst c
      simpa [vupd, Dev.core, vget, hi] using h
    · simp [vupd, c]
  simp only [Dev.onCore, e]

theorem Dev.onCore_stepped (d : Dev) (n m : Nat) (f : Core → Core) : (d.onCore n f).stepped m = (d.stepped m).onCore n f := by
  simp only [Dev.stepped, Dev.onCore]

@[simp] theorem Dev.stepped_core (d : Dev) (n m : Nat) : (d.stepped m).core n = d.core n := by
  simp only [Dev.stepped, Dev.core]

/-- An instruction issues on a core of the device only. -/
theorem Dev.mayIssue_lt {d : Dev} {n : Nat} (h : d.mayIssue n = true) : n < 9 := by
  have a : n ≤ d.nCombs := by
    simp only [Dev.mayIssue, Dev.coreRuns, Bool.and_eq_true, decide_eq_true_eq] at h
    exact h.1.1.1.1.1.1.2
  have b : d.nCombs ≤ 8 := by unfold Dev.nCombs; split <;> omega
  omega

theorem Starts.lt {s : State} {u : Issue} {d : Dev} (h : Starts s u d) : u.core < 9 := Dev.mayIssue_lt h.1
theorem Runs.lt {s : State} {u : Issue} {d : Dev} (h : Runs s u d) : u.core < 9 := h.1.lt

/-- Issue, once the fetch is served. -/
theorem Starts.issue {s : State} {u : Issue} {d : Dev} (h : Starts s u d) (a : Act) : s.dev.issue u a = d.execute u.core a := by
  obtain ⟨h1, e, h2, h3⟩ := h
  simp [Dev.issue, h1, h2, h3]

/-- The checks at issue pass: the instruction has its effect. -/
theorem Dev.execute_run {d : Dev} {n : Nat} {a : Act} (h : a.cause d (d.core n) = none)
    (hp : a.priv.code ≤ (d.core n).psw.priv.code) : d.execute n a = a.run d := by
  have hp' : ¬ (d.core n).psw.priv.code < a.priv.code := by omega
  simp only [Dev.execute, h, hp', if_false]

/-- The checks at issue fail. -/
theorem Dev.execute_illegal {d : Dev} {n : Nat} {a : Act} {k : Nat} (h : a.cause d (d.core n) = some k) :
    d.execute n a = d.raise n (illegal k) := by
  simp only [Dev.execute, h]

/-- The end of an instruction, when no earlier branch fails there. -/
theorem Dev.complete_eq {d : Dev} {n : Nat} (hs : (d.core n).slotSound) (sh : Option Psw) :
    d.complete n sh = (d.stepped n).onCore n fun c => c.after sh := by
  unfold Dev.complete Core.after
  dsimp only
  split
  · rename_i x hx
    have a := hs x hx
    have b : (x.taken && decide (2 ^ 24 ≤ x.target)) = false := by
      cases h : x.taken
      · rfl
      · have := a h
        simp
        omega
    rw [b]
    simp
  · rfl

/-- A change of the core that leaves its slot, then the end of the instruction. -/
theorem Dev.onCore_complete {d : Dev} {n : Nat} (hn : n < 9) (hs : (d.core n).slotSound) {f : Core → Core}
    (hf : (f (d.core n)).slot = (d.core n).slot) : (d.onCore n f).complete n = d.finishes n f := by
  have hs' : ((d.onCore n f).core n).slotSound := by
    rw [Dev.core_onCore_same _ _ _ hn]
    intro x hx
    rw [hf] at hx
    exact hs x hx
  rw [Dev.complete_eq hs', Dev.onCore_stepped, Dev.onCore_onCore]
  rfl

theorem Dev.finishes_congr (d : Dev) (n : Nat) {f k : Core → Core} (h : f (d.core n) = k (d.core n)) :
    d.finishes n f = d.finishes n k := by
  unfold Dev.finishes
  exact Dev.onCore_congr _ _ (by rw [Dev.stepped_core]; exact congrArg (Core.after · none) h)

theorem Dev.putD_eq {d : Dev} {n : Nat} (hn : n < 9) (hs : (d.core n).slotSound) (rd : BitVec 5) (g : Core → W48) :
    d.putD n rd g = d.finishes n fun c => c.setD rd (g (d.core n)) := by
  unfold Dev.putD
  rw [Dev.onCore_complete hn hs (by simp only [Core.setD])]
  exact Dev.finishes_congr d n rfl
theorem Dev.putA_eq {d : Dev} {n : Nat} (hn : n < 9) (hs : (d.core n).slotSound) (rd : BitVec 5) (g : Core → W48) :
    d.putA n rd g = d.finishes n fun c => c.setA rd.toNat (g (d.core n)) := by
  unfold Dev.putA
  rw [Dev.onCore_complete hn hs (by simp only [Core.setA])]
  exact Dev.finishes_congr d n rfl
theorem Dev.putAc_eq {d : Dev} {n : Nat} (hn : n < 9) (hs : (d.core n).slotSound) (rd : BitVec 5) (g : Core → Acc) :
    d.putAc n rd g = d.finishes n fun c => c.setAc rd (g (d.core n)) := by
  unfold Dev.putAc
  rw [Dev.onCore_complete hn hs (by simp only [Core.setAc])]
  exact Dev.finishes_congr d n rfl

/-- A U-level instruction that is no control transfer and whose word is sound has its effect. -/
theorem Starts.plain {s : State} {u : Issue} {d : Dev} (h : Starts s u d) {a : Act} (h1 : a.undef = false) (h2 : a.resv = false)
    (h3 : a.ctl = false) (h4 : a.late d (d.core u.core) = none) (h5 : a.priv = .user) : s.dev.issue u a = a.run d := by
  rw [h.issue, Dev.execute_run]
  · simp [Act.cause, h1, h2, h3, Core.loopEnd, h4]
  · rw [h5]; exact Nat.zero_le _

end Sys2Proof.Machine
end

