-- ==== Sys2Proof/Laws/FrameBase.lean ====
section
/-! SUPPORT. Parts of the device by name, and how a part passes through updates, conditionals and iterations. The Frame files
say of each shared operation which parts it leaves as they were: for every part but those named, reading it after gives what
reading it before gave. -/
namespace Sys2Proof.Machine

/-- The parts of the device: the fields of Dev. -/
inductive DevPart where
  | variant | clk | ctr | supply | lanes | combs | arb | hive | receipts | wag | wagEps | time | store | staging
  | power | close | ports | portsCfg | waits | exports | tiles | keys | rng | tamper | aon | log | life | dbg | cores
  | flash | settings | field | out
  deriving DecidableEq

/-- What a part holds. -/
def DevPart.Holds : DevPart → Type
  | .variant => Variant
  | .clk => Nat
  | .ctr => Nat
  | .supply => Supply
  | .lanes => Vector Lane 64
  | .combs => Vector Comb 8
  | .arb => Arbiter
  | .hive => Hive
  | .receipts => Receipts
  | .wag => Wag
  | .wagEps => Vector WagEp 8
  | .time => Time
  | .store => Store
  | .staging => Staging
  | .power => Power
  | .close => CloseSeq
  | .ports => Vector Port 5
  | .portsCfg => PortsCfg
  | .waits => List CmdWait
  | .exports => List Export
  | .tiles => Tiles
  | .keys => Keys
  | .rng => Rng
  | .tamper => Tamper
  | .aon => AonTamper
  | .log => Log
  | .life => Life
  | .dbg => Debug
  | .cores => Vector Core 9
  | .flash => CodeFlash
  | .settings => Settings
  | .field => FieldLink
  | .out => List Output

/-- What the device holds in one of its parts. -/
def Dev.get (d : Dev) : (p : DevPart) → p.Holds
  | .variant => d.variant
  | .clk => d.clk
  | .ctr => d.ctr
  | .supply => d.supply
  | .lanes => d.lanes
  | .combs => d.combs
  | .arb => d.arb
  | .hive => d.hive
  | .receipts => d.receipts
  | .wag => d.wag
  | .wagEps => d.wagEps
  | .time => d.time
  | .store => d.store
  | .staging => d.staging
  | .power => d.power
  | .close => d.close
  | .ports => d.ports
  | .portsCfg => d.portsCfg
  | .waits => d.waits
  | .exports => d.exports
  | .tiles => d.tiles
  | .keys => d.keys
  | .rng => d.rng
  | .tamper => d.tamper
  | .aon => d.aon
  | .log => d.log
  | .life => d.life
  | .dbg => d.dbg
  | .cores => d.cores
  | .flash => d.flash
  | .settings => d.settings
  | .field => d.field
  | .out => d.out

theorem Dev.get_variant (d : Dev) : d.get .variant = d.variant := rfl
theorem Dev.get_clk (d : Dev) : d.get .clk = d.clk := rfl
theorem Dev.get_ctr (d : Dev) : d.get .ctr = d.ctr := rfl
theorem Dev.get_supply (d : Dev) : d.get .supply = d.supply := rfl
theorem Dev.get_lanes (d : Dev) : d.get .lanes = d.lanes := rfl
theorem Dev.get_combs (d : Dev) : d.get .combs = d.combs := rfl
theorem Dev.get_arb (d : Dev) : d.get .arb = d.arb := rfl
theorem Dev.get_hive (d : Dev) : d.get .hive = d.hive := rfl
theorem Dev.get_receipts (d : Dev) : d.get .receipts = d.receipts := rfl
theorem Dev.get_wag (d : Dev) : d.get .wag = d.wag := rfl
theorem Dev.get_wagEps (d : Dev) : d.get .wagEps = d.wagEps := rfl
theorem Dev.get_time (d : Dev) : d.get .time = d.time := rfl
theorem Dev.get_store (d : Dev) : d.get .store = d.store := rfl
theorem Dev.get_staging (d : Dev) : d.get .staging = d.staging := rfl
theorem Dev.get_power (d : Dev) : d.get .power = d.power := rfl
theorem Dev.get_close (d : Dev) : d.get .close = d.close := rfl
theorem Dev.get_ports (d : Dev) : d.get .ports = d.ports := rfl
theorem Dev.get_portsCfg (d : Dev) : d.get .portsCfg = d.portsCfg := rfl
theorem Dev.get_waits (d : Dev) : d.get .waits = d.waits := rfl
theorem Dev.get_exports (d : Dev) : d.get .exports = d.exports := rfl
theorem Dev.get_tiles (d : Dev) : d.get .tiles = d.tiles := rfl
theorem Dev.get_keys (d : Dev) : d.get .keys = d.keys := rfl
theorem Dev.get_rng (d : Dev) : d.get .rng = d.rng := rfl
theorem Dev.get_tamper (d : Dev) : d.get .tamper = d.tamper := rfl
theorem Dev.get_aon (d : Dev) : d.get .aon = d.aon := rfl
theorem Dev.get_log (d : Dev) : d.get .log = d.log := rfl
theorem Dev.get_life (d : Dev) : d.get .life = d.life := rfl
theorem Dev.get_dbg (d : Dev) : d.get .dbg = d.dbg := rfl
theorem Dev.get_cores (d : Dev) : d.get .cores = d.cores := rfl
theorem Dev.get_flash (d : Dev) : d.get .flash = d.flash := rfl
theorem Dev.get_settings (d : Dev) : d.get .settings = d.settings := rfl
theorem Dev.get_field (d : Dev) : d.get .field = d.field := rfl
theorem Dev.get_out (d : Dev) : d.get .out = d.out := rfl

/-- Two devices that agree in every part are the same. -/
theorem Dev.ext_get {d e : Dev} (h : ∀ p, e.get p = d.get p) : e = d := by
  cases d; cases e
  simp only [Dev.mk.injEq]
  exact ⟨h .variant, h .clk, h .ctr, h .supply, h .lanes, h .combs, h .arb, h .hive, h .receipts, h .wag, h .wagEps,
    h .time, h .store, h .staging, h .power, h .close, h .ports, h .portsCfg, h .waits, h .exports, h .tiles, h .keys,
    h .rng, h .tamper, h .aon, h .log, h .life, h .dbg, h .cores, h .flash, h .settings, h .field, h .out⟩

/-- An update leaves every part to which it gives no new value. -/
@[simp] theorem Dev.get_update (d : Dev) {p : DevPart} {a1} {a2} {a3} {a4} {a5} {a6} {a7} {a8} {a9} {a10} {a11} {a12}
    {a13} {a14} {a15} {a16} {a17} {a18} {a19} {a20} {a21} {a22} {a23} {a24} {a25} {a26} {a27} {a28} {a29} {a30} {a31}
    {a32}
    (h_clk : p = .clk → a1 = d.clk)
    (h_ctr : p = .ctr → a2 = d.ctr)
    (h_supply : p = .supply → a3 = d.supply)
    (h_lanes : p = .lanes → a4 = d.lanes)
    (h_combs : p = .combs → a5 = d.combs)
    (h_arb : p = .arb → a6 = d.arb)
    (h_hive : p = .hive → a7 = d.hive)
    (h_receipts : p = .receipts → a8 = d.receipts)
    (h_wag : p = .wag → a9 = d.wag)
    (h_wagEps : p = .wagEps → a10 = d.wagEps)
    (h_time : p = .time → a11 = d.time)
    (h_store : p = .store → a12 = d.store)
    (h_staging : p = .staging → a13 = d.staging)
    (h_power : p = .power → a14 = d.power)
    (h_close : p = .close → a15 = d.close)
    (h_ports : p = .ports → a16 = d.ports)
    (h_portsCfg : p = .portsCfg → a17 = d.portsCfg)
    (h_waits : p = .waits → a18 = d.waits)
    (h_exports : p = .exports → a19 = d.exports)
    (h_tiles : p = .tiles → a20 = d.tiles)
    (h_keys : p = .keys → a21 = d.keys)
    (h_rng : p = .rng → a22 = d.rng)
    (h_tamper : p = .tamper → a23 = d.tamper)
    (h_aon : p = .aon → a24 = d.aon)
    (h_log : p = .log → a25 = d.log)
    (h_life : p = .life → a26 = d.life)
    (h_dbg : p = .dbg → a27 = d.dbg)
    (h_cores : p = .cores → a28 = d.cores)
    (h_flash : p = .flash → a29 = d.flash)
    (h_settings : p = .settings → a30 = d.settings)
    (h_field : p = .field → a31 = d.field)
    (h_out : p = .out → a32 = d.out)
    : (Dev.mk d.variant a1 a2 a3 a4 a5 a6 a7 a8 a9 a10 a11 a12 a13 a14 a15 a16 a17 a18 a19 a20 a21 a22 a23 a24 a25 a26
    a27 a28 a29 a30 a31 a32).get p = d.get p := by
  cases p
  · rfl
  · exact h_clk rfl
  · exact h_ctr rfl
  · exact h_supply rfl
  · exact h_lanes rfl
  · exact h_combs rfl
  · exact h_arb rfl
  · exact h_hive rfl
  · exact h_receipts rfl
  · exact h_wag rfl
  · exact h_wagEps rfl
  · exact h_time rfl
  · exact h_store rfl
  · exact h_staging rfl
  · exact h_power rfl
  · exact h_close rfl
  · exact h_ports rfl
  · exact h_portsCfg rfl
  · exact h_waits rfl
  · exact h_exports rfl
  · exact h_tiles rfl
  · exact h_keys rfl
  · exact h_rng rfl
  · exact h_tamper rfl
  · exact h_aon rfl
  · exact h_log rfl
  · exact h_life rfl
  · exact h_dbg rfl
  · exact h_cores rfl
  · exact h_flash rfl
  · exact h_settings rfl
  · exact h_field rfl
  · exact h_out rfl

@[simp] theorem Dev.get_ite (c : Prop) [Decidable c] (a b : Dev) (p : DevPart) :
    (if c then a else b).get p = if c then a.get p else b.get p := by
  split <;> rfl
@[simp] theorem Dev.ite_snd {β α : Type} (c : Prop) [Decidable c] (a b : α × β) : (if c then a else b).2 = if c then a.2 else b.2 := by
  split <;> rfl
@[simp] theorem Dev.get_foldl {α : Type} (d : Dev) (xs : List α) (g : Dev → α → Dev) {p : DevPart}
    (hf : ∀ y0 y1, (g y0 y1).get p = y0.get p) : (xs.foldl g d).get p = d.get p := by
  induction xs generalizing d with
  | nil => rfl
  | cons x xs ih => simp only [List.foldl, ih, hf]
@[simp] theorem Dev.get_foldlPair {β α : Type} (z : β × Dev) (xs : List α) (g : β × Dev → α → β × Dev) {p : DevPart}
    (hf : ∀ y0 y1, (g y0 y1).2.get p = y0.2.get p) : (xs.foldl g z).2.get p = z.2.get p := by
  induction xs generalizing z with
  | nil => rfl
  | cons x xs ih => simp only [List.foldl, ih, hf]
@[simp] theorem Dev.get_each {α : Type} (d : Dev) (xs : List α) (g : Dev → α → Dev) {p : DevPart}
    (hf : ∀ y0 y1, (g y0 y1).get p = y0.get p) : (d.each xs g).get p = d.get p := Dev.get_foldl d xs g hf

end Sys2Proof.Machine
end

