-- ==== Sys2Proof/Laws/FrameOps.lean ====
section
/-! SUPPORT. The parts of the device that each operation of Machine/Ops.lean leaves as they were: all but those named. -/
namespace Sys2Proof.Machine

@[simp] theorem Dev.free_frame (d : Dev) {π : DevPart} (hπ : π ∉ [DevPart.ctr]) : (Dev.free d).2.get π = d.get π := by
  simp at hπ
  unfold Dev.free; simp [hπ]
@[simp] theorem Dev.draw_frame (d : Dev) (n : Nat) {π : DevPart}
    (hπ : π ∉ [DevPart.ctr]) : (Dev.draw d n).2.get π = d.get π := by
  simp at hπ
  unfold Dev.draw; simp [hπ]
@[simp] theorem Dev.send_frame (d : Dev) (o : Output) {π : DevPart}
    (hπ : π ∉ [DevPart.out]) : (Dev.send d o).get π = d.get π := by
  simp at hπ
  unfold Dev.send; simp [hπ]
@[simp] theorem Dev.onLane_frame (d : Dev) (n : Nat) (f : Lane → Lane) {π : DevPart}
    (hπ : π ∉ [DevPart.lanes]) : (Dev.onLane d n f).get π = d.get π := by
  simp at hπ
  unfold Dev.onLane; simp [hπ]
@[simp] theorem Dev.onComb_frame (d : Dev) (n : Nat) (f : Comb → Comb) {π : DevPart}
    (hπ : π ∉ [DevPart.combs]) : (Dev.onComb d n f).get π = d.get π := by
  simp at hπ
  unfold Dev.onComb; simp [hπ]
@[simp] theorem Dev.onPort_frame (d : Dev) (n : Nat) (f : Port → Port) {π : DevPart}
    (hπ : π ∉ [DevPart.ports]) : (Dev.onPort d n f).get π = d.get π := by
  simp at hπ
  unfold Dev.onPort; simp [hπ]
@[simp] theorem Dev.onCore_frame (d : Dev) (n : Nat) (f : Core → Core) {π : DevPart}
    (hπ : π ∉ [DevPart.cores]) : (Dev.onCore d n f).get π = d.get π := by
  simp at hπ
  unfold Dev.onCore; simp [hπ]
@[simp] theorem Dev.onTile_frame (d : Dev) (n : Nat) (f : Tile → Tile) {π : DevPart}
    (hπ : π ∉ [DevPart.tiles]) : (Dev.onTile d n f).get π = d.get π := by
  simp at hπ
  unfold Dev.onTile; simp [hπ]
@[simp] theorem Dev.setKey_frame (d : Dev) (n : Nat) (k : KeySlot) {π : DevPart}
    (hπ : π ∉ [DevPart.keys]) : (Dev.setKey d n k).get π = d.get π := by
  simp at hπ
  unfold Dev.setKey; simp [hπ]
@[simp] theorem Dev.onSess_frame (d : Dev) (p i : Nat) (f : Session → Session) {π : DevPart}
    (hπ : π ∉ [DevPart.ports]) : (Dev.onSess d p i f).get π = d.get π := by
  simp at hπ
  unfold Dev.onSess; simp [hπ]
@[simp] theorem Dev.onMbx_frame (d : Dev) (p : Nat) (f : Mailbox → Mailbox) {π : DevPart}
    (hπ : π ∉ [DevPart.ports]) : (Dev.onMbx d p f).get π = d.get π := by
  simp at hπ
  unfold Dev.onMbx; simp [hπ]
@[simp] theorem Dev.onSlot_frame (d : Dev) (p i : Nat) (f : Slot → Slot) {π : DevPart}
    (hπ : π ∉ [DevPart.ports]) : (Dev.onSlot d p i f).get π = d.get π := by
  simp at hπ
  unfold Dev.onSlot; simp [hπ]
@[simp] theorem Dev.msix_frame (d : Dev) (p v : Nat) {π : DevPart}
    (hπ : π ∉ [DevPart.ports, .out]) : (Dev.msix d p v).get π = d.get π := by
  simp at hπ
  unfold Dev.msix; simp [hπ]

end Sys2Proof.Machine
end

