-- ==== Sys2Proof/Laws/FramePortOps.lean ====
section
/-! SUPPORT. The parts of the device that each operation of Machine/PortOps.lean leaves as they were: all but those named. -/
namespace Sys2Proof.Machine

@[simp] theorem Dev.putWindow_frame (d : Dev) (p off : Nat) (bs : List Byte) {π : DevPart}
    (hπ : π ∉ [DevPart.ports]) : (Dev.putWindow d p off bs).get π = d.get π := by
  simp at hπ
  unfold Dev.putWindow; simp [hπ]
@[simp] theorem Dev.sendUdp_frame (d : Dev) (p i typ seq : Nat) (body : List Byte) {π : DevPart}
    (hπ : π ∉ [DevPart.out]) : (Dev.sendUdp d p i typ seq body).get π = d.get π := by
  simp at hπ
  unfold Dev.sendUdp; simp [hπ]
@[simp] theorem Dev.sendNumbered_frame (d : Dev) (p i typ : Nat) (body : List Byte) {π : DevPart}
    (hπ : π ∉ [DevPart.ports, .out]) : (Dev.sendNumbered d p i typ body).get π = d.get π := by
  simp at hπ
  unfold Dev.sendNumbered; simp [hπ]
@[simp] theorem Dev.sendPlain_frame (d : Dev) (p i typ sid : Nat) (body : List Byte) {π : DevPart}
    (hπ : π ∉ [DevPart.out]) : (Dev.sendPlain d p i typ sid body).get π = d.get π := by
  simp at hπ
  unfold Dev.sendPlain; simp [hπ]
@[simp] theorem Dev.ringNotice_frame (d : Dev) (p kind lane : Nat) (body : List Byte) {π : DevPart}
    (hπ : π ∉ [DevPart.ports, .out]) : (Dev.ringNotice d p kind lane body).2.get π = d.get π := by
  simp at hπ
  unfold Dev.ringNotice; simp [hπ]
@[simp] theorem Dev.noticeTo_frame (d : Dev) (cls sev kind lane : Nat) (body : List Byte) {π : DevPart}
    (hπ : π ∉ [DevPart.ports, .out]) : (Dev.noticeTo d cls sev kind lane body).2.get π = d.get π := by
  simp at hπ
  unfold Dev.noticeTo; simp (maxDischargeDepth := 8) [hπ, -List.foldl_cons, -List.foldl_nil]
@[simp] theorem Dev.fillSlot_frame (d : Dev) (p s : Nat) (frame : List Byte) {π : DevPart}
    (hπ : π ∉ [DevPart.ports, .out]) : (Dev.fillSlot d p s frame).get π = d.get π := by
  simp at hπ
  unfold Dev.fillSlot; simp [hπ]
@[simp] theorem Dev.deliver_frame (d : Dev) (p s : Nat) (frame : List Byte) {π : DevPart}
    (hπ : π ∉ [DevPart.ports, .out]) : (Dev.deliver d p s frame).get π = d.get π := by
  simp at hπ
  unfold Dev.deliver; simp [hπ]
@[simp] theorem Dev.answer_frame (d : Dev) (p s status : Nat) (body : List Byte) {π : DevPart}
    (hπ : π ∉ [DevPart.ports, .out]) : (Dev.answer d p s status body).get π = d.get π := by
  simp at hπ
  unfold Dev.answer; simp [hπ]
@[simp] theorem Dev.reply_frame (d : Dev) (p s : Nat) (st : Status) (body : List Byte) {π : DevPart}
    (hπ : π ∉ [DevPart.ports, .out]) : (Dev.reply d p s st body).get π = d.get π := by
  simp at hπ
  unfold Dev.reply; simp [hπ]
@[simp] theorem Dev.refuse_frame (d : Dev) (p s : Nat) (st : Status) {π : DevPart}
    (hπ : π ∉ [DevPart.ports, .out]) : (Dev.refuse d p s st).get π = d.get π := by
  simp at hπ
  unfold Dev.refuse; simp [hπ]
@[simp] theorem Dev.bufPut_frame (d : Dev) (p s off : Nat) (bs : List Byte) {π : DevPart}
    (hπ : π ∉ [DevPart.ports]) : (Dev.bufPut d p s off bs).get π = d.get π := by
  simp at hπ
  unfold Dev.bufPut; simp [hπ]
@[simp] theorem Dev.memPut_frame (d : Dev) (core addr : Nat) (bs : List Byte) {π : DevPart}
    (hπ : π ∉ [DevPart.cores]) : (Dev.memPut d core addr bs).get π = d.get π := by
  simp at hπ
  unfold Dev.memPut; simp [hπ]
@[simp] theorem Dev.finish_frame (d : Dev) (w : WaitFor) (body : List Byte → List Byte) {π : DevPart}
    (hπ : π ∉ [DevPart.ports, .waits, .out]) : (Dev.finish d w body).get π = d.get π := by
  simp at hπ
  unfold Dev.finish; simp [hπ]
@[simp] theorem Dev.finishBad_frame (d : Dev) (w : WaitFor) (status : Nat) {π : DevPart}
    (hπ : π ∉ [DevPart.ports, .waits, .out]) : (Dev.finishBad d w status).get π = d.get π := by
  simp at hπ
  unfold Dev.finishBad; simp [hπ]

end Sys2Proof.Machine
end

