-- ==== Sys2Proof/Laws/FrameLogOps.lean ====
section
/-! SUPPORT. The parts of the device that each operation of Machine/LogOps.lean leaves as they were: all but those named. -/
namespace Sys2Proof.Machine

@[simp] theorem Dev.logFull_frame (d : Dev) (r : LogRec) {π : DevPart}
    (hπ : π ∉ [DevPart.aon, .log]) : (Dev.logFull d r).get π = d.get π := by
  simp at hπ
  unfold Dev.logFull; simp [hπ]
@[simp] theorem Dev.logNew_frame (d : Dev) (r : LogRec) {π : DevPart}
    (hπ : π ∉ [DevPart.aon, .log]) : (Dev.logNew d r).get π = d.get π := by
  simp at hπ
  unfold Dev.logNew; simp [hπ]
@[simp] theorem Dev.logPut_frame (d : Dev) (r : LogRec) {π : DevPart}
    (hπ : π ∉ [DevPart.aon, .log]) : (Dev.logPut d r).2.get π = d.get π := by
  simp at hπ
  generalize h : Dev.logPut d r = r
  unfold Dev.logPut at h
  (repeat' split at h) <;> subst h <;> simp [hπ]
@[simp] theorem Dev.logNotice_frame (d : Dev) (r : LogRec) {π : DevPart}
    (hπ : π ∉ [DevPart.ports, .aon, .log, .out]) : (Dev.logNotice d r).get π = d.get π := by
  simp at hπ
  unfold Dev.logNotice; simp [hπ]
@[simp] theorem Dev.logWith_frame (d : Dev) (typ sev : Nat) (data : List Byte) (injected : Bool) {π : DevPart}
    (hπ : π ∉ [DevPart.ports, .aon, .log, .out]) : (Dev.logWith d typ sev data injected).get π = d.get π := by
  simp at hπ
  unfold Dev.logWith; simp [hπ]
@[simp] theorem Dev.logEvent_frame (d : Dev) (typ sev : Nat) (data : List Byte) {π : DevPart}
    (hπ : π ∉ [DevPart.ports, .aon, .log, .out]) : (Dev.logEvent d typ sev data).get π = d.get π := by
  simp at hπ
  unfold Dev.logEvent; simp [hπ]
@[simp] theorem Dev.notice_frame (d : Dev) (cls kind lane : Nat) (body : List Byte) {π : DevPart}
    (hπ : π ∉ [DevPart.ports, .aon, .log, .out]) : (Dev.notice d cls kind lane body).get π = d.get π := by
  simp at hπ
  unfold Dev.notice; simp [hπ]
@[simp] theorem Dev.logCleared_frame (d : Dev) (idx : Nat) {π : DevPart}
    (hπ : π ∉ [DevPart.aon, .log]) : (Dev.logCleared d idx).get π = d.get π := by
  simp at hπ
  unfold Dev.logCleared; simp [hπ]
@[simp] theorem Dev.logPageDone_frame (d : Dev) (ok : Bool) {π : DevPart}
    (hπ : π ∉ [DevPart.aon, .log]) : (Dev.logPageDone d ok).get π = d.get π := by
  simp at hπ
  generalize h : Dev.logPageDone d ok = r
  unfold Dev.logPageDone at h
  (repeat' split at h) <;> subst h <;> simp [hπ]
@[simp] theorem Dev.logBlockErased_frame (d : Dev) {π : DevPart}
    (hπ : π ∉ [DevPart.log]) : (Dev.logBlockErased d).get π = d.get π := by
  simp at hπ
  unfold Dev.logBlockErased; simp [hπ]
@[simp] theorem Dev.logFlushExpiry_frame (d : Dev) {π : DevPart}
    (hπ : π ∉ [DevPart.log]) : (Dev.logFlushExpiry d).get π = d.get π := by
  simp at hπ
  generalize h : Dev.logFlushExpiry d = r
  unfold Dev.logFlushExpiry at h
  (repeat' split at h) <;> subst h <;> simp [hπ]
@[simp] theorem Dev.logStandby_frame (d : Dev) {π : DevPart}
    (hπ : π ∉ [DevPart.log]) : (Dev.logStandby d).get π = d.get π := by
  simp at hπ
  unfold Dev.logStandby; simp [hπ]
@[simp] theorem Dev.logHandOff_frame (d : Dev) {π : DevPart}
    (hπ : π ∉ [DevPart.aon, .log]) : (Dev.logHandOff d).get π = d.get π := by
  simp at hπ
  unfold Dev.logHandOff; simp [hπ]
@[simp] theorem Dev.logFreeze_frame (d : Dev) (p s : Nat) {π : DevPart}
    (hπ : π ∉ [DevPart.log]) : (Dev.logFreeze d p s).get π = d.get π := by
  simp at hπ
  unfold Dev.logFreeze; simp [hπ]
@[simp] theorem Dev.logUnfreeze_frame (d : Dev) {π : DevPart}
    (hπ : π ∉ [DevPart.log]) : (Dev.logUnfreeze d).get π = d.get π := by
  simp at hπ
  unfold Dev.logUnfreeze; simp [hπ]
@[simp] theorem Dev.logCloseBegin_frame (d : Dev) {π : DevPart}
    (hπ : π ∉ [DevPart.log]) : (Dev.logCloseBegin d).get π = d.get π := by
  simp at hπ
  unfold Dev.logCloseBegin; simp [hπ]
@[simp] theorem Dev.logCloseEnd_frame (d : Dev) {π : DevPart}
    (hπ : π ∉ [DevPart.log]) : (Dev.logCloseEnd d).get π = d.get π := by
  simp at hπ
  unfold Dev.logCloseEnd; simp [hπ]
@[simp] theorem Dev.logClear_frame (d : Dev) (port role : Nat) {π : DevPart}
    (hπ : π ∉ [DevPart.ports, .aon, .log, .out]) : (Dev.logClear d port role).get π = d.get π := by
  simp at hπ
  unfold Dev.logClear; simp [hπ]
@[simp] theorem Dev.logSw_frame (d : Dev) (typ : Nat) {π : DevPart}
    (hπ : π ∉ [DevPart.ports, .aon, .log, .out]) : (Dev.logSw d typ).get π = d.get π := by
  simp at hπ
  unfold Dev.logSw; simp [hπ]

end Sys2Proof.Machine
end

