-- ==== Sys2Proof/Laws/FrameRngOps.lean ====
section
/-! SUPPORT. The parts of the device that each operation of Machine/RngOps.lean leaves as they were: all but those named. -/
namespace Sys2Proof.Machine

@[simp] theorem Dev.onRng_frame (d : Dev) (f : Rng → Rng) {π : DevPart}
    (hπ : π ∉ [DevPart.rng]) : (Dev.onRng d f).get π = d.get π := by
  simp at hπ
  unfold Dev.onRng; simp [hπ]
@[simp] theorem Dev.onInst_frame (d : Dev) (i : Nat) (f : Instance → Instance) {π : DevPart}
    (hπ : π ∉ [DevPart.rng]) : (Dev.onInst d i f).get π = d.get π := by
  simp at hπ
  unfold Dev.onInst; simp [hπ]
@[simp] theorem Dev.takePool_frame (d : Dev) (n : Nat) {π : DevPart}
    (hπ : π ∉ [DevPart.rng]) : (Dev.takePool d n).get π = d.get π := by
  simp at hπ
  unfold Dev.takePool; simp [hπ]
@[simp] theorem Dev.reseed_frame (d : Dev) (i : Nat) {π : DevPart}
    (hπ : π ∉ [DevPart.rng]) : (Dev.reseed d i).get π = d.get π := by
  simp at hπ
  unfold Dev.reseed; simp [hπ]
@[simp] theorem Dev.instantiate_frame (d : Dev) (i : Nat) {π : DevPart}
    (hπ : π ∉ [DevPart.rng]) : (Dev.instantiate d i).get π = d.get π := by
  simp at hπ
  unfold Dev.instantiate; simp [hπ]
@[simp] theorem Dev.randDraw_frame (d : Dev) (i n : Nat) (fresh : Bool) {π : DevPart}
    (hπ : π ∉ [DevPart.ctr, .rng]) : (Dev.randDraw d i n fresh).2.get π = d.get π := by
  simp at hπ
  unfold Dev.randDraw; simp [hπ]
@[simp] theorem Dev.fillClosePool_frame (d : Dev) {π : DevPart}
    (hπ : π ∉ [DevPart.ctr, .rng]) : (Dev.fillClosePool d).get π = d.get π := by
  simp at hπ
  unfold Dev.fillClosePool; simp [hπ]
@[simp] theorem Dev.closeDraw_frame (d : Dev) (n : Nat) {π : DevPart}
    (hπ : π ∉ [DevPart.ctr, .rng]) : (Dev.closeDraw d n).2.get π = d.get π := by
  simp at hπ
  unfold Dev.closeDraw; simp [hπ]
@[simp] theorem Dev.rngStop_frame (d : Dev) {π : DevPart}
    (hπ : π ∉ [DevPart.rng]) : (Dev.rngStop d).get π = d.get π := by
  simp at hπ
  unfold Dev.rngStop; simp [hπ]
@[simp] theorem Dev.sourceFail_frame (d : Dev) (b : Bool) (test : Nat) {π : DevPart}
    (hπ : π ∉ [DevPart.ports, .rng, .aon, .log, .out]) : (Dev.sourceFail d b test).2.get π = d.get π := by
  simp at hπ
  unfold Dev.sourceFail; simp [hπ]
@[simp] theorem Dev.sourceOk_frame (d : Dev) (b : Bool) {π : DevPart}
    (hπ : π ∉ [DevPart.rng]) : (Dev.sourceOk d b).get π = d.get π := by
  simp at hπ
  unfold Dev.sourceOk; simp [hπ]
@[simp] theorem Dev.retest_frame (d : Dev) (b : Bool) {π : DevPart}
    (hπ : π ∉ [DevPart.rng]) : (Dev.retest d b).get π = d.get π := by
  simp at hπ
  unfold Dev.retest; simp [hπ]
@[simp] theorem Dev.servePool_frame (d : Dev) (i : Nat) {π : DevPart}
    (hπ : π ∉ [DevPart.rng]) : (Dev.servePool d i).get π = d.get π := by
  simp at hπ
  generalize h : Dev.servePool d i = r
  unfold Dev.servePool at h
  (repeat' split at h) <;> subst h <;> simp [hπ]
@[simp] theorem Dev.hostStep_frame (d : Dev) (f : HostFill) {π : DevPart}
    (hπ : π ∉ [DevPart.ctr, .rng]) : (Dev.hostStep d f).2.get π = d.get π := by
  simp at hπ
  unfold Dev.hostStep; simp [hπ]
@[simp] theorem Dev.hostSteps_frame (d : Dev) (f : HostFill) {π : DevPart}
    (hπ : π ∉ [DevPart.ctr, .rng]) : (Dev.hostSteps d f).2.get π = d.get π := by
  simp at hπ
  unfold Dev.hostSteps; simp [hπ]
@[simp] theorem Dev.hostAnswer_frame (d : Dev) (f : HostFill) {π : DevPart}
    (hπ : π ∉ [DevPart.ports, .rng, .out]) : (Dev.hostAnswer d f).get π = d.get π := by
  simp at hπ
  unfold Dev.hostAnswer; simp [hπ]
@[simp] theorem Dev.serveHost_frame (d : Dev) {π : DevPart}
    (hπ : π ∉ [DevPart.ctr, .ports, .rng, .out]) : (Dev.serveHost d).get π = d.get π := by
  simp at hπ
  unfold Dev.serveHost; simp [hπ]
@[simp] theorem Dev.conditionerBlock_frame (d : Dev) {π : DevPart}
    (hπ : π ∉ [DevPart.ctr, .ports, .rng, .out]) : (Dev.conditionerBlock d).get π = d.get π := by
  simp at hπ
  unfold Dev.conditionerBlock; simp [hπ]
@[simp] theorem Dev.randomReady_frame (d : Dev) {π : DevPart}
    (hπ : π ∉ [DevPart.ctr, .rng]) : (Dev.randomReady d).get π = d.get π := by
  simp at hπ
  unfold Dev.randomReady; simp [hπ]
@[simp] theorem Dev.ictrlReseed_frame (d : Dev) (i : Nat) {π : DevPart}
    (hπ : π ∉ [DevPart.rng]) : (Dev.ictrlReseed d i).get π = d.get π := by
  simp at hπ
  unfold Dev.ictrlReseed; simp [hπ]
@[simp] theorem Dev.ictrlReinst_frame (d : Dev) (i : Nat) {π : DevPart}
    (hπ : π ∉ [DevPart.rng]) : (Dev.ictrlReinst d i).get π = d.get π := by
  simp at hπ
  unfold Dev.ictrlReinst; simp [hπ]
@[simp] theorem Dev.knownAnswer_frame (d : Dev) (bad : Nat) {π : DevPart}
    (hπ : π ∉ [DevPart.ports, .rng, .aon, .log, .out]) : (Dev.knownAnswer d bad).2.get π = d.get π := by
  simp at hπ
  unfold Dev.knownAnswer; simp [hπ]
@[simp] theorem Dev.rngPurge_frame (d : Dev) (destroy : Bool) {π : DevPart}
    (hπ : π ∉ [DevPart.rng]) : (Dev.rngPurge d destroy).get π = d.get π := by
  simp at hπ
  unfold Dev.rngPurge; simp [hπ]
@[simp] theorem Dev.rngWake_frame (d : Dev) {π : DevPart}
    (hπ : π ∉ [DevPart.rng]) : (Dev.rngWake d).get π = d.get π := by
  simp at hπ
  unfold Dev.rngWake; simp [hπ]

end Sys2Proof.Machine
end

