-- ==== Sys2Proof/Laws/FrameKeyOps.lean ====
section
/-! SUPPORT. The parts of the device that each operation of Machine/KeyOps.lean leaves as they were: all but those named. -/
namespace Sys2Proof.Machine

@[simp] theorem Dev.onKeys_frame (d : Dev) (f : Keys → Keys) {π : DevPart}
    (hπ : π ∉ [DevPart.keys]) : (Dev.onKeys d f).get π = d.get π := by
  simp at hπ
  unfold Dev.onKeys; simp [hπ]
@[simp] theorem Dev.makeStatement_frame (d : Dev) (n : Nat) (k : KeySlot) {π : DevPart}
    (hπ : π ∉ [DevPart.ctr, .rng]) : (Dev.makeStatement d n k).2.get π = d.get π := by
  simp at hπ
  unfold Dev.makeStatement; simp [hπ]
@[simp] theorem Dev.generate_frame (d : Dev) (n attr inst : Nat) {π : DevPart}
    (hπ : π ∉ [DevPart.ctr, .rng]) : (Dev.generate d n attr inst).2.get π = d.get π := by
  simp at hπ
  unfold Dev.generate; simp [hπ]
@[simp] theorem Dev.keyWrite_frame (d : Dev) (r : KeyRec) (p : KeyPending) {π : DevPart}
    (hπ : π ∉ [DevPart.keys]) : (Dev.keyWrite d r p).get π = d.get π := by
  simp at hπ
  unfold Dev.keyWrite; simp [hπ]
@[simp] theorem Dev.keyRecord_frame (d : Dev) (r : KeyRec) {π : DevPart}
    (hπ : π ∉ [DevPart.keys]) : (Dev.keyRecord d r).get π = d.get π := by
  simp at hπ
  unfold Dev.keyRecord; simp [hπ]
@[simp] theorem Dev.clearSlot_frame (d : Dev) (n : Nat) {π : DevPart}
    (hπ : π ∉ [DevPart.keys]) : (Dev.clearSlot d n).get π = d.get π := by
  simp at hπ
  unfold Dev.clearSlot; simp [hπ]
@[simp] theorem Dev.clearSlots_frame (d : Dev) (p : Nat → KeySlot → Bool) {π : DevPart}
    (hπ : π ∉ [DevPart.keys]) : (Dev.clearSlots d p).get π = d.get π := by
  simp at hπ
  unfold Dev.clearSlots; simp [hπ]
@[simp] theorem Dev.zeroiseSlots_frame (d : Dev) (p : Nat → Bool) {π : DevPart}
    (hπ : π ∉ [DevPart.keys]) : (Dev.zeroiseSlots d p).get π = d.get π := by
  simp at hπ
  unfold Dev.zeroiseSlots; simp [hπ]
@[simp] theorem Dev.onKeyOp_frame (d : Dev) (who : Nat) (f : KeyOpRegs → KeyOpRegs) {π : DevPart}
    (hπ : π ∉ [DevPart.keys]) : (Dev.onKeyOp d who f).get π = d.get π := by
  simp at hπ
  unfold Dev.onKeyOp; simp [hπ]
@[simp] theorem Dev.keyOpEnd_frame (d : Dev) (who : Nat) (st : Status) {π : DevPart}
    (hπ : π ∉ [DevPart.keys]) : (Dev.keyOpEnd d who st).get π = d.get π := by
  simp at hπ
  unfold Dev.keyOpEnd; simp [hπ]
@[simp] theorem Dev.keyRecDone_frame (d : Dev) (ok : Bool) {π : DevPart}
    (hπ : π ∉ [DevPart.keys]) : (Dev.keyRecDone d ok).2.get π = d.get π := by
  simp at hπ
  generalize h : Dev.keyRecDone d ok = r
  unfold Dev.keyRecDone at h
  (repeat' split at h) <;> subst h <;> simp [hπ]
@[simp] theorem Dev.clearStale_frame (d : Dev) (mine : Nat → Bool) {π : DevPart}
    (hπ : π ∉ [DevPart.ports, .keys, .aon, .log, .out]) : (Dev.clearStale d mine).get π = d.get π := by
  simp at hπ
  unfold Dev.clearStale; simp [hπ]
@[simp] theorem Dev.putSlot_frame (d : Dev) (who n : Nat) (k : KeySlot) {π : DevPart}
    (hπ : π ∉ [DevPart.keys]) : (Dev.putSlot d who n k).get π = d.get π := by
  simp at hπ
  unfold Dev.putSlot; simp [hπ]
@[simp] theorem Dev.keyGenerate_frame (d : Dev) (who : Nat) (resv : Bool) {π : DevPart}
    (hπ : π ∉ [DevPart.ctr, .keys, .rng]) : (Dev.keyGenerate d who resv).get π = d.get π := by
  simp at hπ
  unfold Dev.keyGenerate
  dsimp only
  (repeat' split) <;> simp [hπ]
@[simp] theorem Dev.keyDerive_frame (d : Dev) (who flavour : Nat) (kek resv : Bool) {π : DevPart}
    (hπ : π ∉ [DevPart.keys]) : (Dev.keyDerive d who flavour kek resv).get π = d.get π := by
  simp at hπ
  unfold Dev.keyDerive
  dsimp only
  (repeat' split) <;> simp [hπ]
@[simp] theorem Dev.keyWrap_frame (d : Dev) (who : Nat) (resv : Bool) {π : DevPart}
    (hπ : π ∉ [DevPart.keys, .cores]) : (Dev.keyWrap d who resv).get π = d.get π := by
  simp at hπ
  unfold Dev.keyWrap
  dsimp only
  (repeat' split) <;> simp [hπ]
@[simp] theorem Dev.keyUnwrap_frame (d : Dev) (who : Nat) (resv : Bool) {π : DevPart}
    (hπ : π ∉ [DevPart.keys]) : (Dev.keyUnwrap d who resv).get π = d.get π := by
  simp at hπ
  unfold Dev.keyUnwrap
  dsimp only
  (repeat' split) <;> simp [hπ]
@[simp] theorem Dev.keyOpenDst_frame (d : Dev) (who : Nat) (resv : Bool) {π : DevPart}
    (hπ : π ∉ [DevPart.keys]) : (Dev.keyOpenDst d who resv).get π = d.get π := by
  simp at hπ
  unfold Dev.keyOpenDst
  dsimp only
  (repeat' split) <;> simp [hπ]
@[simp] theorem Dev.keyClear_frame (d : Dev) (who : Nat) (resv : Bool) {π : DevPart}
    (hπ : π ∉ [DevPart.keys]) : (Dev.keyClear d who resv).get π = d.get π := by
  simp at hπ
  unfold Dev.keyClear
  dsimp only
  (repeat' split) <;> simp [hπ]
@[simp] theorem Dev.keyInfo_frame (d : Dev) (who : Nat) (resv : Bool) {π : DevPart}
    (hπ : π ∉ [DevPart.keys]) : (Dev.keyInfo d who resv).get π = d.get π := by
  simp at hπ
  unfold Dev.keyInfo
  dsimp only
  (repeat' split) <;> simp [hπ]
@[simp] theorem Dev.keyLoadLane_frame (d : Dev) (who : Nat) (resv : Bool) {π : DevPart}
    (hπ : π ∉ [DevPart.lanes, .keys]) : (Dev.keyLoadLane d who resv).get π = d.get π := by
  simp at hπ
  unfold Dev.keyLoadLane
  dsimp only
  (repeat' split) <;> simp [hπ]
@[simp] theorem Dev.encapsKek_frame (d : Dev) (epoch : Nat) {π : DevPart}
    (hπ : π ∉ [DevPart.ctr, .rng, .keys]) : (Dev.encapsKek d epoch).2.get π = d.get π := by
  simp at hπ
  generalize h : Dev.encapsKek d epoch = r
  unfold Dev.encapsKek at h
  (repeat' split at h) <;> subst h <;> simp [hπ]
@[simp] theorem Dev.putKek_frame (d : Dev) (k : Kek) {π : DevPart}
    (hπ : π ∉ [DevPart.keys]) : (Dev.putKek d k).get π = d.get π := by
  simp at hπ
  unfold Dev.putKek; simp [hπ]
@[simp] theorem Dev.retireKek_frame (d : Dev) (e : Nat) {π : DevPart}
    (hπ : π ∉ [DevPart.keys]) : (Dev.retireKek d e).get π = d.get π := by
  simp at hπ
  unfold Dev.retireKek; simp [hπ]
@[simp] theorem Dev.kekPrepare_frame (d : Dev) (ok : Bool) {π : DevPart}
    (hπ : π ∉ [DevPart.ctr, .keys, .rng]) : (Dev.kekPrepare d ok).get π = d.get π := by
  simp at hπ
  unfold Dev.kekPrepare
  dsimp only
  (repeat' split) <;> simp [hπ]
@[simp] theorem Dev.keyEpochBoundary_frame (d : Dev) (period : Nat) {π : DevPart}
    (hπ : π ∉ [DevPart.keys]) : (Dev.keyEpochBoundary d period).get π = d.get π := by
  simp at hπ
  generalize h : Dev.keyEpochBoundary d period = r
  unfold Dev.keyEpochBoundary at h
  (repeat' split at h) <;> subst h <;> simp [hπ]
@[simp] theorem Dev.clearPrevKek_frame (d : Dev) (next : Nat → Nat) {π : DevPart}
    (hπ : π ∉ [DevPart.keys]) : (Dev.clearPrevKek d next).get π = d.get π := by
  simp at hπ
  generalize h : Dev.clearPrevKek d next = r
  unfold Dev.clearPrevKek at h
  (repeat' split at h) <;> subst h <;> simp [hπ]

end Sys2Proof.Machine
end

