-- ==== Sys2Proof/Laws/FrameLaneOps.lean ====
section
/-! SUPPORT. The parts of the device that each operation of Machine/LaneOps.lean leaves as they were: all but those named. -/
namespace Sys2Proof.Machine

@[simp] theorem Dev.onCtx_frame (d : Dev) (n x : Nat) (f : Ctx → Ctx) {π : DevPart}
    (hπ : π ∉ [DevPart.lanes]) : (Dev.onCtx d n x f).get π = d.get π := by
  simp at hπ
  unfold Dev.onCtx; simp [hπ]
@[simp] theorem Dev.onRing_frame (d : Dev) (n x : Nat) (f : RingPair → RingPair) {π : DevPart}
    (hπ : π ∉ [DevPart.lanes]) : (Dev.onRing d n x f).get π = d.get π := by
  simp at hπ
  unfold Dev.onRing; simp [hπ]
@[simp] theorem Dev.onRegs_frame (d : Dev) (n : Nat) (f : LaneRegs → LaneRegs) {π : DevPart}
    (hπ : π ∉ [DevPart.lanes]) : (Dev.onRegs d n f).get π = d.get π := by
  simp at hπ
  unfold Dev.onRegs; simp [hπ]
@[simp] theorem Dev.laneErr_frame (d : Dev) (n b : Nat) {π : DevPart}
    (hπ : π ∉ [DevPart.lanes]) : (Dev.laneErr d n b).get π = d.get π := by
  simp at hπ
  unfold Dev.laneErr; simp [hπ]
@[simp] theorem Dev.laneIrq_frame (d : Dev) (n b : Nat) {π : DevPart}
    (hπ : π ∉ [DevPart.lanes]) : (Dev.laneIrq d n b).get π = d.get π := by
  simp at hπ
  unfold Dev.laneIrq; simp [hπ]
@[simp] theorem Dev.laneNotice_frame (d : Dev) (n x : Nat) {π : DevPart}
    (hπ : π ∉ [DevPart.ports, .aon, .log, .out]) : (Dev.laneNotice d n x).get π = d.get π := by
  simp at hπ
  unfold Dev.laneNotice; simp [hπ]
@[simp] theorem Dev.ringErr_frame (d : Dev) (n x b : Nat) {π : DevPart}
    (hπ : π ∉ [DevPart.lanes, .ports, .aon, .log, .out]) : (Dev.ringErr d n x b).get π = d.get π := by
  simp at hπ
  unfold Dev.ringErr; simp [hπ]
@[simp] theorem Dev.laneFault_frame (d : Dev) (n x : Nat) {π : DevPart}
    (hπ : π ∉ [DevPart.ports, .aon, .log, .out]) : (Dev.laneFault d n x).get π = d.get π := by
  simp at hπ
  unfold Dev.laneFault; simp [hπ]
@[simp] theorem Dev.readRequests_frame (d : Dev) (port addr len : Nat) {π : DevPart}
    (hπ : π ∉ [DevPart.out]) : (Dev.readRequests d port addr len).get π = d.get π := by
  simp at hπ
  unfold Dev.readRequests; simp [hπ]
@[simp] theorem Dev.startReads_frame (d : Dev) (n x : Nat) {π : DevPart}
    (hπ : π ∉ [DevPart.lanes, .out]) : (Dev.startReads d n x).get π = d.get π := by
  simp at hπ
  unfold Dev.startReads
  dsimp only
  (repeat' split) <;> simp [hπ]
@[simp] theorem Dev.settle_frame (d : Dev) (n : Nat) {π : DevPart}
    (hπ : π ∉ [DevPart.lanes, .out]) : (Dev.settle d n).get π = d.get π := by
  simp at hπ
  unfold Dev.settle; simp [hπ]
@[simp] theorem Dev.queuePost_frame (d : Dev) (n x : Nat) (p : Post) {π : DevPart}
    (hπ : π ∉ [DevPart.lanes]) : (Dev.queuePost d n x p).get π = d.get π := by
  simp at hπ
  unfold Dev.queuePost; simp [hπ]
@[simp] theorem Dev.postError_frame (d : Dev) (n x : Nat) (c : Desc) (st : Status) {π : DevPart}
    (hπ : π ∉ [DevPart.lanes]) : (Dev.postError d n x c st).get π = d.get π := by
  simp at hπ
  unfold Dev.postError; simp [hπ]
@[simp] theorem Dev.postElement_frame (d : Dev) (n : Nat) (e : List Byte) (ends : Option WaitFor) {π : DevPart}
    (hπ : π ∉ [DevPart.lanes]) : (Dev.postElement d n e ends).get π = d.get π := by
  simp at hπ
  unfold Dev.postElement; simp [hπ]
@[simp] theorem Dev.storeTakes_frame (d : Dev) (n seq : Nat) {π : DevPart}
    (hπ : π ∉ [DevPart.lanes, .out]) : (Dev.storeTakes d n seq).get π = d.get π := by
  simp at hπ
  unfold Dev.storeTakes; simp [hπ]
@[simp] theorem Dev.sealClosed_frame (d : Dev) (n : Nat) {π : DevPart}
    (hπ : π ∉ [DevPart.lanes, .store]) : (Dev.sealClosed d n).get π = d.get π := by
  simp at hπ
  unfold Dev.sealClosed; simp [hπ]
@[simp] theorem Dev.verifyEnded_frame (d : Dev) (n x : Nat) {π : DevPart}
    (hπ : π ∉ [DevPart.lanes, .ports, .waits, .out]) : (Dev.verifyEnded d n x).get π = d.get π := by
  simp at hπ
  unfold Dev.verifyEnded; simp [hπ]
@[simp] theorem Dev.redelivered_frame (d : Dev) (n seq : Nat) {π : DevPart}
    (hπ : π ∉ [DevPart.lanes, .ports, .waits, .out]) : (Dev.redelivered d n seq).get π = d.get π := by
  simp at hπ
  unfold Dev.redelivered; simp [hπ]
@[simp] theorem Dev.writeSegment_frame (d : Dev) (n seq : Nat) {π : DevPart}
    (hπ : π ∉ [DevPart.out, .lanes]) : (Dev.writeSegment d n seq).get π = d.get π := by
  simp at hπ
  unfold Dev.writeSegment
  dsimp only
  split <;> simp [hπ]
@[simp] theorem Dev.postEntry_frame (d : Dev) (n x : Nat) {π : DevPart}
    (hπ : π ∉ [DevPart.lanes, .store, .ports, .waits, .out]) : (Dev.postEntry d n x).get π = d.get π := by
  simp at hπ
  unfold Dev.postEntry
  extract_lets l r slot
  split
  · rfl
  · split
    · rfl
    · extract_lets typ e0 e1 e e2 e3 e4 e5 e7 tail
      have h0 : e0.get π = d.get π := by simp only [e0]; split <;> simp [hπ]
      have h3 : e3.get π = d.get π := by simp only [e3]; split <;> simp [e2, e1, h0, hπ]
      have h5 : e5.get π = d.get π := by simp only [e5, e4]; (repeat' split) <;> simp [h3, hπ]
      have h7 : e7.get π = d.get π := by simp only [e7]; simp [h5, hπ]
      split
      · extract_lets e6
        have h6 : e6.get π = d.get π := by simp only [e6]; split <;> simp [h7, hπ]
        simp [h6, hπ]
      · exact h7
@[simp] theorem Dev.coalExpiry_frame (d : Dev) (n x : Nat) {π : DevPart}
    (hπ : π ∉ [DevPart.lanes, .ports, .out]) : (Dev.coalExpiry d n x).get π = d.get π := by
  simp at hπ
  unfold Dev.coalExpiry
  dsimp only
  (repeat' split) <;> simp [hπ]
@[simp] theorem Dev.readDesc_frame (d : Dev) (n x : Nat) (bytes : List Byte) (ok : Bool) {π : DevPart}
    (hπ : π ∉ [DevPart.lanes, .ports, .aon, .log, .out]) : (Dev.readDesc d n x bytes ok).get π = d.get π := by
  simp at hπ
  unfold Dev.readDesc
  dsimp only
  (repeat' split) <;> simp [hπ]
@[simp] theorem Dev.fetchStart_frame (d : Dev) (n : Nat) {π : DevPart}
    (hπ : π ∉ [DevPart.lanes, .out]) : (Dev.fetchStart d n).get π = d.get π := by
  simp at hπ
  unfold Dev.fetchStart
  dsimp only
  (repeat' split) <;> simp [hπ]
@[simp] theorem Dev.fetchDone_frame (d : Dev) (n : Nat) (data : List Byte) (ok : Bool) {π : DevPart}
    (hπ : π ∉ [DevPart.lanes, .out]) : (Dev.fetchDone d n data ok).get π = d.get π := by
  simp at hπ
  unfold Dev.fetchDone
  dsimp only
  (repeat' split) <;> simp [hπ]
@[simp] theorem Dev.fetchTimeout_frame (d : Dev) (n x : Nat) {π : DevPart}
    (hπ : π ∉ [DevPart.lanes]) : (Dev.fetchTimeout d n x).get π = d.get π := by
  simp at hπ
  unfold Dev.fetchTimeout; simp [hπ]
@[simp] theorem Dev.promote_frame (d : Dev) (n : Nat) {π : DevPart}
    (hπ : π ∉ [DevPart.lanes, .arb]) : (Dev.promote d n).get π = d.get π := by
  simp at hπ
  generalize h : Dev.promote d n = r
  unfold Dev.promote at h
  (repeat' split at h) <;> subst h <;> simp [hπ]
@[simp] theorem Dev.ringWrite_frame (d : Dev) (p n x : Nat) {π : DevPart}
    (hπ : π ∉ [DevPart.lanes, .ports, .aon, .log, .out]) : (Dev.ringWrite d p n x).2.get π = d.get π := by
  simp at hπ
  unfold Dev.ringWrite; simp [hπ]
@[simp] theorem Dev.ringTail_frame (d : Dev) (p n x v : Nat) {π : DevPart}
    (hπ : π ∉ [DevPart.lanes, .ports, .aon, .log, .out]) : (Dev.ringTail d p n x v).get π = d.get π := by
  simp at hπ
  unfold Dev.ringTail; simp [hπ]
@[simp] theorem Dev.cmpHeadWrite_frame (d : Dev) (p n x v : Nat) {π : DevPart}
    (hπ : π ∉ [DevPart.lanes, .ports, .aon, .log, .out]) : (Dev.cmpHeadWrite d p n x v).get π = d.get π := by
  simp at hπ
  unfold Dev.cmpHeadWrite; simp [hπ]
@[simp] theorem Dev.outFault_frame (d : Dev) (n x : Nat) {π : DevPart}
    (hπ : π ∉ [DevPart.lanes, .ports, .aon, .log, .out]) : (Dev.outFault d n x).get π = d.get π := by
  simp at hπ
  unfold Dev.outFault; simp [hπ]
@[simp] theorem Dev.accept_frame (d : Dev) (n : Nat) {π : DevPart}
    (hπ : π ∉ [DevPart.lanes, .out]) : (Dev.accept d n).get π = d.get π := by
  simp at hπ
  unfold Dev.accept
  dsimp only
  (repeat' split) <;> simp [hπ]
@[simp] theorem Dev.engineStart_frame (d : Dev) (n : Nat) {π : DevPart}
    (hπ : π ∉ [DevPart.lanes]) : (Dev.engineStart d n).get π = d.get π := by
  simp at hπ
  unfold Dev.engineStart
  dsimp only
  (repeat' split) <;> simp [hπ]
@[simp] theorem Dev.formTag_frame (d : Dev) (n : Nat) {π : DevPart}
    (hπ : π ∉ [DevPart.lanes, .out]) : (Dev.formTag d n).get π = d.get π := by
  simp at hπ
  unfold Dev.formTag
  dsimp only
  (repeat' split) <;> simp [hπ]
@[simp] theorem Dev.stage_frame (d : Dev) (n : Nat) (u : MediaUnit) {π : DevPart}
    (hπ : π ∉ [DevPart.lanes, .staging]) : (Dev.stage d n u).get π = d.get π := by
  simp at hπ
  unfold Dev.stage; simp [hπ]
@[simp] theorem Dev.queueStore_frame (d : Dev) (n kind seq : Nat) (body : List Byte) {π : DevPart}
    (hπ : π ∉ [DevPart.lanes]) : (Dev.queueStore d n kind seq body).get π = d.get π := by
  simp at hπ
  unfold Dev.queueStore; simp [hπ]
@[simp] theorem Dev.appendSegment_frame (d : Dev) (n : Nat) {π : DevPart}
    (hπ : π ∉ [DevPart.lanes, .staging, .out]) : (Dev.appendSegment d n).get π = d.get π := by
  simp at hπ
  unfold Dev.appendSegment
  dsimp only
  (repeat' split) <;> simp [hπ]
@[simp] theorem Dev.appendElement_frame (d : Dev) (n kind schuss time : Nat) (body : List Byte) (ends : Option WaitFor) {π :
    DevPart}
    (hπ : π ∉ [DevPart.lanes]) : (Dev.appendElement d n kind schuss time body ends).get π = d.get π := by
  simp at hπ
  unfold Dev.appendElement; simp [hπ]
@[simp] theorem Dev.appendWrapped_frame (d : Dev) (n : Nat) (k : ContentKey) (ends : Option WaitFor) (schuss : Nat) {π : DevPart}
    (hπ : π ∉ [DevPart.lanes, .ports, .aon, .log, .out]) : (Dev.appendWrapped d n k ends schuss).get π = d.get π := by
  simp at hπ
  unfold Dev.appendWrapped
  dsimp only
  (repeat' split) <;> simp [hπ]
@[simp] theorem Dev.contentSlot_frame (d : Dev) (n slot : Nat) (sealing : Bool) (key : List Byte) {π : DevPart}
    (hπ : π ∉ [DevPart.keys]) : (Dev.contentSlot d n slot sealing key).get π = d.get π := by
  simp at hπ
  unfold Dev.contentSlot; simp [hπ]
@[simp] theorem Dev.installKey_frame (d : Dev) (n epoch : Nat) {π : DevPart}
    (hπ : π ∉ [DevPart.ctr, .lanes, .rng, .keys]) : (Dev.installKey d n epoch).get π = d.get π := by
  simp at hπ
  unfold Dev.installKey; simp [hπ]
@[simp] theorem Dev.drain_frame (d : Dev) (n : Nat) {π : DevPart}
    (hπ : π ∉ [DevPart.lanes, .out]) : (Dev.drain d n).get π = d.get π := by
  simp at hπ
  unfold Dev.drain; simp [hπ]
@[simp] theorem Dev.appendClose_frame (d : Dev) (n reason schuss : Nat) {π : DevPart}
    (hπ : π ∉ [DevPart.lanes]) : (Dev.appendClose d n reason schuss).get π = d.get π := by
  simp at hπ
  unfold Dev.appendClose; simp [hπ]
@[simp] theorem Dev.setBody_frame (d : Dev) (w : WaitFor) (b : List Byte) {π : DevPart}
    (hπ : π ∉ [DevPart.waits]) : (Dev.setBody d w b).get π = d.get π := by
  simp at hπ
  unfold Dev.setBody; simp [hπ]
@[simp] theorem Dev.unwrappedSlot_frame (d : Dev) (n x : Nat) (old new : Option (Nat × List Byte)) {π : DevPart}
    (hπ : π ∉ [DevPart.keys]) : (Dev.unwrappedSlot d n x old new).get π = d.get π := by
  simp at hπ
  unfold Dev.unwrappedSlot
  (repeat' split) <;> simp [hπ]
@[simp] theorem Dev.verifyComplete_frame (d : Dev) (n x : Nat) (data : List Byte) (ok : Bool) {π : DevPart}
    (hπ : π ∉ [DevPart.lanes, .ports, .waits, .aon, .log, .out, .keys]) : (Dev.verifyComplete d n x data ok).get π = d.get π := by
  simp at hπ
  unfold Dev.verifyComplete
  extract_lets l k e0
  split
  · rfl
  · split
    · rfl
    · extract_lets bs r f1 f2 f3 f5 parsed e1 e2
      have h1 : e1.get π = d.get π := by simp only [e1]; (repeat' split) <;> simp [f5, f3, f2, e0, hπ]
      have h2 : e2.get π = d.get π := by simp only [e2]; (repeat' split) <;> simp [e0, h1, hπ]
      simp [h2, hπ]
@[simp] theorem Dev.park_frame (d : Dev) (n done : Nat) (freeze : Bool) {π : DevPart}
    (hπ : π ∉ [DevPart.ctr, .lanes]) : (Dev.park d n done freeze).get π = d.get π := by
  simp at hπ
  unfold Dev.park
  dsimp only
  (repeat' split) <;> simp [hπ]
@[simp] theorem Dev.suspend_frame (d : Dev) (n done : Nat) {π : DevPart}
    (hπ : π ∉ [DevPart.ctr, .lanes, .out]) : (Dev.suspend d n done).get π = d.get π := by
  simp at hπ
  unfold Dev.suspend
  dsimp only
  (repeat' split) <;> simp [hπ]
@[simp] theorem Dev.laneFaults_frame (d : Dev) (n : Nat) {π : DevPart}
    (hπ : π ∉ [DevPart.lanes, .ports, .aon, .log, .out]) : (Dev.laneFaults d n).get π = d.get π := by
  simp at hπ
  unfold Dev.laneFaults; simp [hπ]
@[simp] theorem Dev.resume_frame (d : Dev) (n : Nat) (crcOk : Bool) {π : DevPart}
    (hπ : π ∉ [DevPart.lanes, .ports, .aon, .log, .out]) : (Dev.resume d n crcOk).2.get π = d.get π := by
  simp at hπ
  unfold Dev.resume
  dsimp only
  (repeat' split) <;> simp [hπ]
@[simp] theorem Dev.suspExpiry_frame (d : Dev) (n : Nat) {π : DevPart}
    (hπ : π ∉ [DevPart.lanes]) : (Dev.suspExpiry d n).get π = d.get π := by
  simp at hπ
  unfold Dev.suspExpiry; simp [hπ]
@[simp] theorem Dev.combClock_frame (d : Dev) (c : Nat) (on : Bool) {π : DevPart}
    (hπ : π ∉ [DevPart.lanes, .combs]) : (Dev.combClock d c on).get π = d.get π := by
  simp at hπ
  unfold Dev.combClock; simp [hπ]
@[simp] theorem Dev.drainEnds_frame (d : Dev) (n : Nat) {π : DevPart}
    (hπ : π ∉ [DevPart.lanes]) : (Dev.drainEnds d n).get π = d.get π := by
  simp at hπ
  unfold Dev.drainEnds; simp [hπ]
@[simp] theorem Dev.drainComplete_frame (d : Dev) (n : Nat) {π : DevPart}
    (hπ : π ∉ [DevPart.lanes, .waits]) : (Dev.drainComplete d n).get π = d.get π := by
  simp at hπ
  unfold Dev.drainComplete; simp [hπ]
@[simp] theorem Dev.laneReset_frame (d : Dev) (n : Nat) {π : DevPart}
    (hπ : π ∉ [DevPart.lanes]) : (Dev.laneReset d n).get π = d.get π := by
  simp at hπ
  unfold Dev.laneReset; simp [hπ]
@[simp] theorem Dev.combWrite_frame (d : Dev) (c : Nat) (on : Bool) {π : DevPart}
    (hπ : π ∉ [DevPart.lanes, .combs]) : (Dev.combWrite d c on).get π = d.get π := by
  simp at hπ
  unfold Dev.combWrite; simp [hπ]
@[simp] theorem Dev.gateAll_frame (d : Dev) {π : DevPart}
    (hπ : π ∉ [DevPart.lanes, .combs]) : (Dev.gateAll d).get π = d.get π := by
  simp at hπ
  unfold Dev.gateAll; simp [hπ]

end Sys2Proof.Machine
end

