-- ==== Sys2Proof/Laws/FrameStoreOps.lean ====
section
/-! SUPPORT. The parts of the device that each operation of Machine/StoreOps.lean leaves as they were: all but those named. -/
namespace Sys2Proof.Machine

@[simp] theorem Dev.onStore_frame (d : Dev) (f : Store → Store) {π : DevPart}
    (hπ : π ∉ [DevPart.store]) : (Dev.onStore d f).get π = d.get π := by
  simp at hπ
  unfold Dev.onStore; simp [hπ]
@[simp] theorem Dev.onBlk_frame (d : Dev) (b : Nat) (f : Block → Block) {π : DevPart}
    (hπ : π ∉ [DevPart.store]) : (Dev.onBlk d b f).get π = d.get π := by
  simp at hπ
  unfold Dev.onBlk; simp [hπ]
@[simp] theorem Dev.serveDie_frame (d : Dev) (die : Nat) {π : DevPart}
    (hπ : π ∉ [DevPart.store]) : (Dev.serveDie d die).get π = d.get π := by
  simp at hπ
  unfold Dev.serveDie
  dsimp only
  (repeat' split) <;> simp [hπ]
@[simp] theorem Dev.serve_frame (d : Dev) {π : DevPart}
    (hπ : π ∉ [DevPart.store]) : (Dev.serve d).get π = d.get π := by
  simp at hπ
  unfold Dev.serve; simp [hπ]
@[simp] theorem Dev.enqueue_frame (d : Dev) (js : List PageJob) {π : DevPart}
    (hπ : π ∉ [DevPart.store]) : (Dev.enqueue d js).get π = d.get π := by
  simp at hπ
  unfold Dev.enqueue; simp [hπ]
@[simp] theorem Dev.unstall_frame (d : Dev) {π : DevPart}
    (hπ : π ∉ [DevPart.store]) : (Dev.unstall d).get π = d.get π := by
  simp at hπ
  unfold Dev.unstall; simp [hπ]
@[simp] theorem Dev.storeErr_frame (d : Dev) (n : Nat) {π : DevPart}
    (hπ : π ∉ [DevPart.store]) : (Dev.storeErr d n).get π = d.get π := by
  simp at hπ
  unfold Dev.storeErr; simp [hπ]
@[simp] theorem Dev.journal_frame (d : Dev) (kind : Nat) (body : List Byte) (persist : Bool) {π : DevPart}
    (hπ : π ∉ [DevPart.store]) : (Dev.journal d kind body persist).get π = d.get π := by
  simp at hπ
  unfold Dev.journal; simp [hπ]
@[simp] theorem Dev.eraseBlock_frame (d : Dev) (b : Nat) {π : DevPart}
    (hπ : π ∉ [DevPart.store]) : (Dev.eraseBlock d b).get π = d.get π := by
  simp at hπ
  unfold Dev.eraseBlock; simp [hπ]
@[simp] theorem Dev.journalAhead_frame (d : Dev) {π : DevPart}
    (hπ : π ∉ [DevPart.store]) : (Dev.journalAhead d).get π = d.get π := by
  simp at hπ
  unfold Dev.journalAhead
  dsimp only
  (repeat' split) <;> simp [hπ]
@[simp] theorem Dev.journalNext_frame (d : Dev) {π : DevPart}
    (hπ : π ∉ [DevPart.store]) : (Dev.journalNext d).get π = d.get π := by
  simp at hπ
  unfold Dev.journalNext
  dsimp only
  (repeat' split) <;> simp [hπ]
@[simp] theorem Dev.eraseCounted_frame (d : Dev) (b : Nat) (region : Region) (fast : Bool) {π : DevPart}
    (hπ : π ∉ [DevPart.store, .ports, .aon, .log, .out]) : (Dev.eraseCounted d b region fast).get π = d.get π := by
  simp at hπ
  unfold Dev.eraseCounted; simp [hπ]
@[simp] theorem Dev.ringShrinks_frame (d : Dev) {π : DevPart}
    (hπ : π ∉ [DevPart.store, .ports, .aon, .log, .out]) : (Dev.ringShrinks d).get π = d.get π := by
  simp at hπ
  unfold Dev.ringShrinks; simp [hπ]
@[simp] theorem Dev.replaceBlock_frame (d : Dev) (region : Region) {π : DevPart}
    (hπ : π ∉ [DevPart.store, .ports, .aon, .log, .out]) : (Dev.replaceBlock d region).get π = d.get π := by
  simp at hπ
  generalize h : Dev.replaceBlock d region = r
  unfold Dev.replaceBlock at h
  (repeat' split at h) <;> subst h <;> simp [hπ]
@[simp] theorem Dev.retireBlock_frame (d : Dev) (b cause : Nat) {π : DevPart}
    (hπ : π ∉ [DevPart.store, .ports, .aon, .log, .out]) : (Dev.retireBlock d b cause).get π = d.get π := by
  simp at hπ
  unfold Dev.retireBlock; simp [hπ]
@[simp] theorem Dev.journalDone_frame (d : Dev) (ok : Bool) {π : DevPart}
    (hπ : π ∉ [DevPart.store, .ports, .waits, .aon, .log, .out]) : (Dev.journalDone d ok).get π = d.get π := by
  simp at hπ
  unfold Dev.journalDone
  split
  · rfl
  · dsimp only
    split
    · rfl
    · split
      · simp [hπ]
      · refine (Dev.get_each _ _ _ ?_).trans (by simp [hπ])
        intro d r
        split <;> simp [hπ]
@[simp] theorem Dev.pin_frame (d : Dev) (b : Nat) {π : DevPart}
    (hπ : π ∉ [DevPart.store]) : (Dev.pin d b).get π = d.get π := by
  simp at hπ
  unfold Dev.pin; simp [hπ]
@[simp] theorem Dev.unpin_frame (d : Dev) (b : Nat) {π : DevPart}
    (hπ : π ∉ [DevPart.store]) : (Dev.unpin d b).get π = d.get π := by
  simp at hπ
  unfold Dev.unpin; simp [hπ]
@[simp] theorem Dev.pinAll_frame (d : Dev) (z1 : List Nat) {π : DevPart}
    (hπ : π ∉ [DevPart.store]) : (Dev.pinAll d z1).2.2.get π = d.get π := by
  simp at hπ
  induction z1 generalizing d <;> unfold Dev.pinAll <;> simp [*]
@[simp] theorem Dev.reviseHold_frame (d : Dev) (h : Hold) {π : DevPart}
    (hπ : π ∉ [DevPart.store]) : (Dev.reviseHold d h).get π = d.get π := by
  simp at hπ
  unfold Dev.reviseHold; simp [hπ]
@[simp] theorem Dev.nextHold_frame (d : Dev) {π : DevPart}
    (hπ : π ∉ [DevPart.store]) : (Dev.nextHold d).2.get π = d.get π := by
  simp at hπ
  unfold Dev.nextHold; simp [hπ]
@[simp] theorem Dev.triggerHold_frame (d : Dev) (line t pre post : Nat) {π : DevPart}
    (hπ : π ∉ [DevPart.store, .ports, .aon, .log, .out]) : (Dev.triggerHold d line t pre post).get π = d.get π := by
  simp at hπ
  unfold Dev.triggerHold; simp [hπ]
@[simp] theorem Dev.pinLater_frame (d : Dev) (b created : Nat) (h : Hold) {π : DevPart}
    (hπ : π ∉ [DevPart.store, .ports, .aon, .log, .out]) : (Dev.pinLater d b created h).get π = d.get π := by
  simp at hπ
  unfold Dev.pinLater
  dsimp only
  (repeat' split) <;> simp [hπ]
@[simp] theorem Dev.pinOpened_frame (d : Dev) (b created : Nat) {π : DevPart}
    (hπ : π ∉ [DevPart.store, .ports, .aon, .log, .out]) : (Dev.pinOpened d b created).get π = d.get π := by
  simp at hπ
  unfold Dev.pinOpened; simp [hπ]
@[simp] theorem Dev.releaseHold_frame (d : Dev) (h : Hold) (port role : Nat) {π : DevPart}
    (hπ : π ∉ [DevPart.store, .ports, .aon, .log, .out]) : (Dev.releaseHold d h port role).get π = d.get π := by
  simp at hπ
  unfold Dev.releaseHold; simp [hπ]
@[simp] theorem Dev.useRingBlock_frame (d : Dev) {π : DevPart}
    (hπ : π ∉ [DevPart.store]) : (Dev.useRingBlock d).get π = d.get π := by
  simp at hπ
  unfold Dev.useRingBlock; simp [hπ]
@[simp] theorem Dev.formPages_frame (d : Dev) {π : DevPart}
    (hπ : π ∉ [DevPart.store]) : (Dev.formPages d).get π = d.get π := by
  simp at hπ
  generalize h : Dev.formPages d = r
  unfold Dev.formPages at h
  (repeat' split at h) <;> subst h <;> simp [hπ]
@[simp] theorem Dev.recTaken_frame (d : Dev) (r : StoreRec) (start : Nat) {π : DevPart}
    (hπ : π ∉ [DevPart.store]) : (Dev.recTaken d r start).get π = d.get π := by
  simp at hπ
  generalize h : Dev.recTaken d r start = r
  unfold Dev.recTaken at h
  (repeat' split at h) <;> subst h <;> simp [hπ]
@[simp] theorem Dev.putRecord_frame (d : Dev) (r : StoreRec) {π : DevPart}
    (hπ : π ∉ [DevPart.store]) : (Dev.putRecord d r).get π = d.get π := by
  simp at hπ
  generalize h : Dev.putRecord d r = r
  unfold Dev.putRecord at h
  (repeat' split at h) <;> subst h <;> simp [hπ]
theorem Dev.openContainer_frame {d : Dev} {recon : Bool} {e : Dev} {π : DevPart} (h : Dev.openContainer d recon = some e)
    (hπ : π ∉ [DevPart.store, .ports, .aon, .log, .out]) : e.get π = d.get π := by
  simp at hπ
  unfold Dev.openContainer at h
  (repeat' split at h) <;> (cases h; repeat' (first | (simp [*]; done) | split))
@[simp] theorem Dev.journalContainer_frame (d : Dev) (c : OpenContainer) (dig : List Byte) {π : DevPart}
    (hπ : π ∉ [DevPart.store]) : (Dev.journalContainer d c dig).get π = d.get π := by
  simp at hπ
  unfold Dev.journalContainer; simp [hπ]
@[simp] theorem Dev.closeContainer_frame (d : Dev) {π : DevPart}
    (hπ : π ∉ [DevPart.store]) : (Dev.closeContainer d).get π = d.get π := by
  simp at hπ
  generalize h : Dev.closeContainer d = r
  unfold Dev.closeContainer at h
  (repeat' split at h) <;> subst h <;> simp [hπ]
@[simp] theorem Dev.noteCut_frame (d : Dev) (b : Nat) {π : DevPart}
    (hπ : π ∉ [DevPart.store, .ports, .aon, .log, .out]) : (Dev.noteCut d b).get π = d.get π := by
  simp at hπ
  unfold Dev.noteCut; simp [hπ]
theorem Dev.writerNext_frame {d : Dev} {e : StoreRec × Dev} {π : DevPart} (h : Dev.writerNext d = some e)
    (hπ : π ∉ [DevPart.lanes, .store]) : e.2.get π = d.get π := by
  simp at hπ
  unfold Dev.writerNext at h
  (repeat' split at h) <;> cases h <;> simp [hπ]
@[simp] theorem Dev.backToRing_frame (d : Dev) (b : Nat) {π : DevPart}
    (hπ : π ∉ [DevPart.store]) : (Dev.backToRing d b).get π = d.get π := by
  simp at hπ
  unfold Dev.backToRing; simp [hπ]
@[simp] theorem Dev.settleCuts_frame (d : Dev) {π : DevPart}
    (hπ : π ∉ [DevPart.store, .ports, .aon, .log, .out]) : (Dev.settleCuts d).get π = d.get π := by
  simp at hπ
  unfold Dev.settleCuts; simp [hπ]
@[simp] theorem Dev.noteFull_frame (d : Dev) {π : DevPart}
    (hπ : π ∉ [DevPart.lanes, .store, .ports, .aon, .log, .out]) : (Dev.noteFull d).get π = d.get π := by
  simp at hπ
  unfold Dev.noteFull; simp [hπ]
@[simp] theorem Dev.copyBytes_frame (d : Dev) (n : Nat) {π : DevPart}
    (hπ : π ∉ [DevPart.store]) : (Dev.copyBytes d n).get π = d.get π := by
  simp at hπ
  generalize h : Dev.copyBytes d n = r
  unfold Dev.copyBytes at h
  (repeat' split at h) <;> subst h <;> simp [hπ]
@[simp] theorem Dev.openEra_frame (d : Dev) (era : Nat) {π : DevPart}
    (hπ : π ∉ [DevPart.store, .ports, .aon, .log, .out]) : (Dev.openEra d era).get π = d.get π := by
  unfold Dev.openEra
  split
  · rename_i h
    have ho := Dev.openContainer_frame h hπ
    simp at hπ
    simp [hπ, ho]
  · rfl
@[simp] theorem Dev.writerRoom_frame (d : Dev) (r : StoreRec) {π : DevPart}
    (hπ : π ∉ [DevPart.store, .ports, .aon, .log, .out]) : (Dev.writerRoom d r).get π = d.get π := by
  simp at hπ
  unfold Dev.writerRoom
  dsimp only
  (repeat' split) <;> simp [hπ]
@[simp] theorem Dev.writerBegin_frame (d : Dev) (r : StoreRec) {π : DevPart}
    (hπ : π ∉ [DevPart.store]) : (Dev.writerBegin d r).get π = d.get π := by
  simp at hπ
  unfold Dev.writerBegin
  split <;> simp [hπ]
@[simp] theorem Dev.writerTake_frame (d : Dev) (n : Nat) {π : DevPart}
    (hπ : π ∉ [DevPart.lanes, .store, .ports, .aon, .log, .out]) : (Dev.writerTake d n).get π = d.get π := by
  simp at hπ
  unfold Dev.writerTake
  split
  · rfl
  · split
    · simp [hπ]
    · split
      · split <;> simp [hπ]
      · dsimp only
        split
        · rename_i h
          have h1 := Dev.writerNext_frame (π := π) h (by simp [hπ])
          simp_all
        · simp [hπ]
@[simp] theorem Dev.cutContainer_frame (d : Dev) (b page : Nat) (failed : Bool) {π : DevPart}
    (hπ : π ∉ [DevPart.store, .ports, .aon, .log, .out]) : (Dev.cutContainer d b page failed).get π = d.get π := by
  simp at hπ
  unfold Dev.cutContainer; simp [hπ]
@[simp] theorem Dev.countPages_frame (d : Dev) (b : Nat) (z1 : Nat) {π : DevPart}
    (hπ : π ∉ [DevPart.store]) : (Dev.countPages d b z1).get π = d.get π := by
  simp at hπ
  induction z1 generalizing d b <;> unfold Dev.countPages <;>
    repeat' (first | (simp [*]; done) | dsimp only | split)
@[simp] theorem Dev.settleTaken_frame (d : Dev) (b : Nat) {π : DevPart}
    (hπ : π ∉ [DevPart.lanes, .store, .out]) : (Dev.settleTaken d b).get π = d.get π := by
  simp at hπ
  unfold Dev.settleTaken; simp [hπ]
@[simp] theorem Dev.beginErase_frame (d : Dev) (b : Nat) {π : DevPart}
    (hπ : π ∉ [DevPart.store, .ports, .aon, .log, .out]) : (Dev.beginErase d b).get π = d.get π := by
  simp at hπ
  unfold Dev.beginErase; simp [hπ]
@[simp] theorem Dev.preErase_frame (d : Dev) {π : DevPart}
    (hπ : π ∉ [DevPart.store, .ports, .aon, .log, .out]) : (Dev.preErase d).get π = d.get π := by
  simp at hπ
  generalize h : Dev.preErase d = r
  unfold Dev.preErase at h
  (repeat' split at h) <;> subst h <;> simp [hπ]
@[simp] theorem Dev.eraseDone_frame (d : Dev) (b : Nat) (ok : Bool) {π : DevPart}
    (hπ : π ∉ [DevPart.store, .ports, .aon, .log, .out]) : (Dev.eraseDone d b ok).get π = d.get π := by
  simp at hπ
  unfold Dev.eraseDone
  dsimp only
  (repeat' split) <;> simp [hπ]
theorem Dev.reserveBlock_frame {d : Dev} {opening : List Byte} {e : Dev} {π : DevPart} (h : Dev.reserveBlock d opening = some
    e)
    (hπ : π ∉ [DevPart.store]) : e.get π = d.get π := by
  simp at hπ
  unfold Dev.reserveBlock at h
  split at h
  · cases h
  · cases h; simp [hπ]
@[simp] theorem Dev.reserveEmit_frame (d : Dev) {π : DevPart}
    (hπ : π ∉ [DevPart.store]) : (Dev.reserveEmit d).get π = d.get π := by
  simp at hπ
  unfold Dev.reserveEmit
  dsimp only
  (repeat' split) <;> simp [hπ]
theorem Dev.reserveRoom_frame {d : Dev} {opening : List Byte} {e : Dev} {π : DevPart} (h : Dev.reserveRoom d opening = some e)
    (hπ : π ∉ [DevPart.store]) : e.get π = d.get π := by
  unfold Dev.reserveRoom at h
  split at h
  · exact Dev.reserveBlock_frame h hπ
  · cases h; rfl
@[simp] theorem Dev.reserveFill_frame (d : Dev) (bs : List Byte) {π : DevPart}
    (hπ : π ∉ [DevPart.store]) : (Dev.reserveFill d bs).get π = d.get π := by
  simp at hπ
  unfold Dev.reserveFill; simp [hπ]
theorem Dev.reserveBytes_frame {d : Dev} {opening : List Byte} {z1 : Nat} {z2 : List Byte} {e : List (Nat × Nat) × Dev} {π :
    DevPart} (h : Dev.reserveBytes d opening z1 z2 = some e) (hπ : π ∉ [DevPart.store]) : e.2.get π = d.get π := by
  induction z1 generalizing d z2 e with
  | zero => unfold Dev.reserveBytes at h; simp at h; subst h; rfl
  | succ n ih =>
    unfold Dev.reserveBytes at h
    split at h
    · simp at h; subst h; rfl
    · split at h
      · simp at h
      · rename_i hr
        have h1 := Dev.reserveRoom_frame hr hπ
        dsimp only at h
        split at h
        · rename_i hb
          have h2 := ih hb
          simp at h; subst h
          simp_all
        · simp at h
@[simp] theorem Dev.abandonRec_frame (d : Dev) (r : ReserveRec) {π : DevPart}
    (hπ : π ∉ [DevPart.store]) : (Dev.abandonRec d r).get π = d.get π := by
  simp at hπ
  unfold Dev.abandonRec; simp [hπ]
@[simp] theorem Dev.reservePut_frame (d : Dev) (opening : List Byte) (r : ReserveRec) {π : DevPart}
    (hπ : π ∉ [DevPart.store]) : (Dev.reservePut d opening r).get π = d.get π := by
  unfold Dev.reservePut
  split
  · simp_all
  · dsimp only
    split
    · simp_all
    · rename_i hr
      have hh := Dev.reserveBytes_frame hr hπ
      split <;> simp_all
@[simp] theorem Dev.settleReserve_frame (d : Dev) {π : DevPart}
    (hπ : π ∉ [DevPart.lanes, .store]) : (Dev.settleReserve d).get π = d.get π := by
  simp at hπ
  unfold Dev.settleReserve; simp [hπ]
@[simp] theorem Dev.reserveFail_frame (d : Dev) (opening : List Byte) (b page : Nat) {π : DevPart}
    (hπ : π ∉ [DevPart.store, .ports, .aon, .log, .out]) : (Dev.reserveFail d opening b page).get π = d.get π := by
  simp at hπ
  unfold Dev.reserveFail
  simp [hπ]
@[simp] theorem Dev.queueFail_frame (d : Dev) (b page : Nat) {π : DevPart}
    (hπ : π ∉ [DevPart.store]) : (Dev.queueFail d b page).get π = d.get π := by
  simp at hπ
  unfold Dev.queueFail; simp [hπ]
@[simp] theorem Dev.pageProgrammed_frame (d : Dev) (opening : List Byte) (b page : Nat) (ok : Bool) {π : DevPart}
    (hπ : π ∉ [DevPart.lanes, .store, .ports, .aon, .log, .out]) : (Dev.pageProgrammed d opening b page ok).get π = d.get π :=
    by
  simp at hπ
  unfold Dev.pageProgrammed
  (repeat' split) <;> simp [hπ]
@[simp] theorem Dev.writerEnd_frame (d : Dev) {π : DevPart}
    (hπ : π ∉ [DevPart.aon, .log, .out, .ports, .store]) : (Dev.writerEnd d).get π = d.get π := by
  simp at hπ
  unfold Dev.writerEnd
  dsimp only
  (repeat' split) <;> simp [hπ]
@[simp] theorem Dev.writerFlush_frame (d : Dev) {π : DevPart}
    (hπ : π ∉ [DevPart.store, .ports, .aon, .log, .out]) : (Dev.writerFlush d).get π = d.get π := by
  simp at hπ
  generalize h : Dev.writerFlush d = r
  unfold Dev.writerFlush at h
  (repeat' split at h) <;> subst h <;> simp [hπ]
@[simp] theorem Dev.scanHold_frame (d : Dev) (i : Nat) {π : DevPart}
    (hπ : π ∉ [DevPart.store]) : (Dev.scanHold d i).get π = d.get π := by
  simp at hπ
  generalize h : Dev.scanHold d i = r
  unfold Dev.scanHold at h
  (repeat' split at h) <;> subst h <;> simp [hπ]
@[simp] theorem Dev.scanContainer_frame (d : Dev) {π : DevPart}
    (hπ : π ∉ [DevPart.store, .ports, .aon, .log, .out]) : (Dev.scanContainer d).get π = d.get π := by
  simp at hπ
  unfold Dev.scanContainer
  dsimp only
  (repeat' split) <;> simp [hπ]
@[simp] theorem Dev.scanReceipts_frame (d : Dev) {π : DevPart}
    (hπ : π ∉ [DevPart.hive, .receipts, .store]) : (Dev.scanReceipts d).get π = d.get π := by
  simp at hπ
  unfold Dev.scanReceipts
  dsimp only
  (repeat' split) <;> simp [hπ]
@[simp] theorem Dev.scanDone_frame (d : Dev) {π : DevPart}
    (hπ : π ∉ [DevPart.hive, .receipts, .store, .ports, .aon, .log, .out]) : (Dev.scanDone d).get π = d.get π := by
  simp at hπ
  unfold Dev.scanDone
  simp [hπ]
@[simp] theorem Dev.storeFaults_frame (d : Dev) {π : DevPart}
    (hπ : π ∉ [DevPart.store]) : (Dev.storeFaults d).get π = d.get π := by
  simp at hπ
  unfold Dev.storeFaults; simp [hπ]

end Sys2Proof.Machine
end

