-- ==== Sys2Proof/Laws/FrameTileOps.lean ====
section
/-! SUPPORT. The parts of the device that each operation of Machine/TileOps.lean leaves as they were: all but those named. -/
namespace Sys2Proof.Machine

@[simp] theorem Dev.onPkq_frame (d : Dev) (sub : Nat) (f : TileQueue → TileQueue) {π : DevPart}
    (hπ : π ∉ [DevPart.tiles]) : (Dev.onPkq d sub f).get π = d.get π := by
  simp at hπ
  unfold Dev.onPkq; simp [hπ]
@[simp] theorem Dev.onTiles_frame (d : Dev) (f : Tiles → Tiles) {π : DevPart}
    (hπ : π ∉ [DevPart.tiles]) : (Dev.onTiles d f).get π = d.get π := by
  simp at hπ
  unfold Dev.onTiles; simp [hπ]
@[simp] theorem Dev.pkErr_frame (d : Dev) (n : Nat) {π : DevPart}
    (hπ : π ∉ [DevPart.tiles]) : (Dev.pkErr d n).get π = d.get π := by
  simp at hπ
  unfold Dev.pkErr; simp [hπ]
@[simp] theorem Dev.jobComplete_frame (d : Dev) (j : Job) (status cause : Nat) (compared : Bool) (tile : Option Nat) (out dur
    : Nat) {π : DevPart}
    (hπ : π ∉ [DevPart.tiles, .cores]) : (Dev.jobComplete d j status cause compared tile out dur).get π = d.get π := by
  simp at hπ
  unfold Dev.jobComplete; simp [hπ]
@[simp] theorem Dev.jobCount_frame (d : Dev) {π : DevPart}
    (hπ : π ∉ [DevPart.tiles]) : (Dev.jobCount d).get π = d.get π := by
  simp at hπ
  unfold Dev.jobCount; simp [hπ]
@[simp] theorem Dev.jobOver_frame (d : Dev) (j : Job) (status : Status) (cause : Nat) (tile : Option Nat) (out dur : Nat) {π : DevPart}
    (hπ : π ∉ [DevPart.cores, .tiles]) : (Dev.jobOver d j status cause tile out dur).get π = d.get π := by
  simp at hπ
  unfold Dev.jobOver; simp [hπ]
@[simp] theorem Dev.takeJobs_frame (d : Dev) (sub z1 : Nat) {π : DevPart}
    (hπ : π ∉ [DevPart.tiles, .cores]) : (Dev.takeJobs d sub z1).get π = d.get π := by
  simp at hπ
  induction z1 generalizing d sub with
  | zero => simp [Dev.takeJobs]
  | succ n ih =>
    unfold Dev.takeJobs
    dsimp only
    (repeat' split) <;> simp [hπ, ih]
@[simp] theorem Dev.takeAll_frame (d : Dev) (sub : Nat) {π : DevPart}
    (hπ : π ∉ [DevPart.tiles, .cores]) : (Dev.takeAll d sub).get π = d.get π := by
  simp at hπ
  unfold Dev.takeAll; simp [hπ]
@[simp] theorem Dev.pkDoorbell_frame (d : Dev) (sub tail : Nat) {π : DevPart}
    (hπ : π ∉ [DevPart.tiles, .cores]) : (Dev.pkDoorbell d sub tail).get π = d.get π := by
  simp at hπ
  unfold Dev.pkDoorbell
  dsimp only
  (repeat' split) <;> simp [hπ]
@[simp] theorem Dev.seqJob_frame (d : Dev) (sub cls : Nat) (what : JobFor) (tried : List Nat) {π : DevPart}
    (hπ : π ∉ [DevPart.tiles]) : (Dev.seqJob d sub cls what tried).get π = d.get π := by
  simp at hπ
  unfold Dev.seqJob; simp [hπ]
@[simp] theorem Dev.nonceDraw_frame (d : Dev) (j : Job) (o : OpSpec) {π : DevPart}
    (hπ : π ∉ [DevPart.ctr, .rng]) : (Dev.nonceDraw d j o).2.get π = d.get π := by
  simp at hπ
  unfold Dev.nonceDraw; simp [hπ]
@[simp] theorem Dev.blindDraw_frame (d : Dev) (j : Job) (o : OpSpec) (cmp : Bool) {π : DevPart}
    (hπ : π ∉ [DevPart.ctr, .rng]) : (Dev.blindDraw d j o cmp).2.get π = d.get π := by
  simp at hπ
  unfold Dev.blindDraw; simp [hπ]
@[simp] theorem Dev.startJob_frame (d : Dev) (t op : Nat) {π : DevPart}
    (hπ : π ∉ [DevPart.tiles, .ctr, .rng]) : (Dev.startJob d t op).get π = d.get π := by
  simp at hπ
  unfold Dev.startJob
  dsimp only
  (repeat' split) <;> simp [hπ]
@[simp] theorem Dev.tileRest_frame (d : Dev) (t : Nat) {π : DevPart}
    (hπ : π ∉ [DevPart.tiles]) : (Dev.tileRest d t).get π = d.get π := by
  simp at hπ
  unfold Dev.tileRest; simp [hπ]
@[simp] theorem Dev.tileSettle_frame (d : Dev) (t : Nat) {π : DevPart}
    (hπ : π ∉ [DevPart.tiles]) : (Dev.tileSettle d t).get π = d.get π := by
  simp at hπ
  unfold Dev.tileSettle
  dsimp only
  (repeat' split) <;> simp [hπ]
@[simp] theorem Dev.dropRunning_frame (d : Dev) (t cause : Nat) {π : DevPart}
    (hπ : π ∉ [DevPart.tiles, .cores]) : (Dev.dropRunning d t cause).get π = d.get π := by
  simp at hπ
  generalize h : Dev.dropRunning d t cause = r
  unfold Dev.dropRunning at h
  (repeat' split at h) <;> subst h <;> simp [hπ]
@[simp] theorem Dev.yieldPoint_frame (d : Dev) (t : Nat) {π : DevPart}
    (hπ : π ∉ [DevPart.tiles, .cores]) : (Dev.yieldPoint d t).get π = d.get π := by
  simp at hπ
  unfold Dev.yieldPoint
  dsimp only
  (repeat' split) <;> simp [hπ]
@[simp] theorem Dev.mismatch_frame (d : Dev) (t : Nat) (j : Job) {π : DevPart}
    (hπ : π ∉ [DevPart.ports, .tiles, .aon, .log, .out]) : (Dev.mismatch d t j).get π = d.get π := by
  simp at hπ
  unfold Dev.mismatch; simp [hπ]
@[simp] theorem Dev.jobMismatch_frame (d : Dev) (t : Nat) (j : Job) (dur : Nat) {π : DevPart}
    (hπ : π ∉ [DevPart.ports, .tiles, .aon, .log, .cores, .out]) : (Dev.jobMismatch d t j dur).get π = d.get π := by
  simp at hπ
  unfold Dev.jobMismatch; simp [hπ]
@[simp] theorem Dev.jobGone_frame (d : Dev) (t cause : Nat) (j : Job) (ran : Nat) {π : DevPart}
    (hπ : π ∉ [DevPart.cores, .tiles]) : (Dev.jobGone d t cause j ran).get π = d.get π := by
  simp at hπ
  unfold Dev.jobGone; simp [hπ]
@[simp] theorem Dev.tileGone_frame (d : Dev) (t cause : Nat) (tile : Tile) {π : DevPart}
    (hπ : π ∉ [DevPart.cores, .tiles]) : (Dev.tileGone d t cause tile).get π = d.get π := by
  simp at hπ
  unfold Dev.tileGone; simp [hπ]
@[simp] theorem Dev.jobFault_frame (d : Dev) (t : Nat) {π : DevPart}
    (hπ : π ∉ [DevPart.tiles, .cores]) : (Dev.jobFault d t).get π = d.get π := by
  simp at hπ
  unfold Dev.jobFault; simp [hπ]
@[simp] theorem Dev.jobKey_frame (d : Dev) (dst : Nat) (secret pub : List Byte) {π : DevPart}
    (hπ : π ∉ [DevPart.keys]) : (Dev.jobKey d dst secret pub).get π = d.get π := by
  simp at hπ
  generalize h : Dev.jobKey d dst secret pub = r
  unfold Dev.jobKey at h
  (repeat' split at h) <;> subst h <;> simp [hπ]
@[simp] theorem Dev.jobResults_frame (d : Dev) (t : Nat) (j : Job) (dur : Nat) {π : DevPart}
    (hπ : π ∉ [DevPart.tiles, .keys, .cores]) : (Dev.jobResults d t j dur).get π = d.get π := by
  simp at hπ
  unfold Dev.jobResults
  dsimp only
  (repeat' split) <;> simp [hπ]
@[simp] theorem Dev.jobDone_frame (d : Dev) (t fault : Nat) {π : DevPart}
    (hπ : π ∉ [DevPart.ports, .tiles, .keys, .aon, .log, .cores, .out]) : (Dev.jobDone d t fault).2.get π
    = d.get π := by
  simp at hπ
  unfold Dev.jobDone
  dsimp only
  (repeat' split) <;> simp [hπ]
@[simp] theorem Dev.abortJobs_frame (d : Dev) (p : Job → Bool) {π : DevPart}
    (hπ : π ∉ [DevPart.tiles, .cores]) : (Dev.abortJobs d p).get π = d.get π := by
  simp at hπ
  unfold Dev.abortJobs; simp (maxDischargeDepth := 8) [hπ]
@[simp] theorem Dev.tilesStop_frame (d : Dev) {π : DevPart}
    (hπ : π ∉ [DevPart.tiles]) : (Dev.tilesStop d).get π = d.get π := by
  simp at hπ
  unfold Dev.tilesStop; simp [hπ]
@[simp] theorem Dev.tilePurge_frame (d : Dev) (t : Nat) {π : DevPart}
    (hπ : π ∉ [DevPart.tiles, .cores]) : (Dev.tilePurge d t).get π = d.get π := by
  simp at hπ
  unfold Dev.tilePurge
  dsimp only
  (repeat' split) <;> simp [hπ]
@[simp] theorem Dev.tilesPurge_frame (d : Dev) {π : DevPart}
    (hπ : π ∉ [DevPart.tiles, .cores]) : (Dev.tilesPurge d).get π = d.get π := by
  simp at hπ
  unfold Dev.tilesPurge
  simp [hπ]
@[simp] theorem Dev.tileReset_frame (d : Dev) (t : Nat) {π : DevPart}
    (hπ : π ∉ [DevPart.tiles, .cores]) : (Dev.tileReset d t).get π = d.get π := by
  simp at hπ
  unfold Dev.tileReset; simp [hπ]
@[simp] theorem Dev.tileEnable_frame (d : Dev) (en : Nat) {π : DevPart}
    (hπ : π ∉ [DevPart.tiles]) : (Dev.tileEnable d en).get π = d.get π := by
  simp at hπ
  unfold Dev.tileEnable; simp [hπ]

end Sys2Proof.Machine
end

