-- ==== Sys2Proof/Laws/FrameHiveOps.lean ====
section
/-! SUPPORT. The parts of the device that each operation of Machine/HiveOps.lean leaves as they were: all but those named. -/
namespace Sys2Proof.Machine

@[simp] theorem Dev.onHive_frame (d : Dev) (f : Hive → Hive) {π : DevPart}
    (hπ : π ∉ [DevPart.hive]) : (Dev.onHive d f).get π = d.get π := by
  simp at hπ
  unfold Dev.onHive; simp [hπ]
@[simp] theorem Dev.onReceipts_frame (d : Dev) (f : Receipts → Receipts) {π : DevPart}
    (hπ : π ∉ [DevPart.receipts]) : (Dev.onReceipts d f).get π = d.get π := by
  simp at hπ
  unfold Dev.onReceipts; simp [hπ]
@[simp] theorem Dev.hiveErr_frame (d : Dev) (n : Nat) {π : DevPart}
    (hπ : π ∉ [DevPart.hive]) : (Dev.hiveErr d n).get π = d.get π := by
  simp at hπ
  unfold Dev.hiveErr; simp [hπ]
@[simp] theorem Dev.dropJobs_frame (d : Dev) (hit : Job → Bool) {π : DevPart}
    (hπ : π ∉ [DevPart.tiles]) : (Dev.dropJobs d hit).get π = d.get π := by
  simp at hπ
  unfold Dev.dropJobs; simp [hπ]
@[simp] theorem Dev.withKey_frame (d : Dev) (k : Option KeySlot) {π : DevPart}
    (hπ : π ∉ [DevPart.keys]) : (Dev.withKey d k).get π = d.get π := by
  simp at hπ
  unfold Dev.withKey
  (repeat' split) <;> simp [hπ]
@[simp] theorem Dev.noteDrop_frame (d : Dev) (m : Making) (cause : Nat) {π : DevPart}
    (hπ : π ∉ [DevPart.hive, .ports, .aon, .log, .out]) : (Dev.noteDrop d m cause).get π = d.get π := by
  simp at hπ
  generalize h : Dev.noteDrop d m cause = r
  unfold Dev.noteDrop at h
  (repeat' split at h) <;> subst h <;> simp [hπ]
@[simp] theorem Dev.nextMaking_frame (d : Dev) {π : DevPart}
    (hπ : π ∉ [DevPart.hive, .receipts]) : (Dev.nextMaking d).get π = d.get π := by
  simp at hπ
  generalize h : Dev.nextMaking d = r
  unfold Dev.nextMaking at h
  (repeat' split at h) <;> subst h <;> simp [hπ]
@[simp] theorem Dev.issueEnds_frame (d : Dev) {π : DevPart}
    (hπ : π ∉ [DevPart.hive, .receipts]) : (Dev.issueEnds d).get π = d.get π := by
  simp at hπ
  unfold Dev.issueEnds; simp [hπ]
@[simp] theorem Dev.abandonReceipts_frame (d : Dev) (cause : Nat) {π : DevPart}
    (hπ : π ∉ [DevPart.hive, .receipts, .ports, .tiles, .aon, .log, .out]) : (Dev.abandonReceipts d cause).get π = d.get π :=
    by
  simp at hπ
  unfold Dev.abandonReceipts; simp [hπ]
@[simp] theorem Dev.lapseReceipts_frame (d : Dev) {π : DevPart}
    (hπ : π ∉ [DevPart.aon, .hive, .log, .out, .ports, .receipts, .tiles]) : (Dev.lapseReceipts d).get π = d.get π := by
  simp at hπ
  unfold Dev.lapseReceipts
  (repeat' split) <;> simp [hπ]
@[simp] theorem Dev.lapse_frame (d : Dev) {π : DevPart}
    (hπ : π ∉ [DevPart.aon, .hive, .log, .out, .ports, .receipts]) : (Dev.lapse d).get π = d.get π := by
  simp at hπ
  unfold Dev.lapse
  dsimp only
  (repeat' split) <;> simp [hπ]
@[simp] theorem Dev.unpend_frame (d : Dev) {π : DevPart}
    (hπ : π ∉ [DevPart.wag]) : (Dev.unpend d).get π = d.get π := by
  simp at hπ
  unfold Dev.unpend; simp [hπ]
@[simp] theorem Dev.dropDemand_frame (d : Dev) (st : Status) {π : DevPart}
    (hπ : π ∉ [DevPart.receipts, .wag, .ports, .out]) : (Dev.dropDemand d st).get π = d.get π := by
  simp at hπ
  unfold Dev.dropDemand; simp [hπ]
@[simp] theorem Dev.hiveStop_frame (d : Dev) (stopped : Bool) (cause : Nat) {π : DevPart}
    (hπ : π ∉ [DevPart.hive, .receipts, .wag, .ports, .tiles, .aon, .log, .out]) : (Dev.hiveStop d stopped cause).get π =
    d.get π := by
  simp at hπ
  unfold Dev.hiveStop; simp [hπ]
@[simp] theorem Dev.hiveSettle_frame (d : Dev) {π : DevPart}
    (hπ : π ∉ [DevPart.hive, .receipts, .wag, .ports, .tiles, .aon, .log, .out]) : (Dev.hiveSettle d).get π = d.get π := by
  simp at hπ
  unfold Dev.hiveSettle; simp [hπ]
@[simp] theorem Dev.latchShadows_frame (d : Dev) {π : DevPart}
    (hπ : π ∉ [DevPart.lanes, .wag]) : (Dev.latchShadows d).get π = d.get π := by
  simp at hπ
  unfold Dev.latchShadows; simp [hπ]
@[simp] theorem Dev.capture_frame (d : Dev) {π : DevPart}
    (hπ : π ∉ [DevPart.lanes, .hive, .wagEps, .wag]) : (Dev.capture d).get π = d.get π := by
  simp at hπ
  unfold Dev.capture; simp [hπ]
@[simp] theorem Dev.startMaking_frame (d : Dev) (kind : ReceiptKind) (boundary : Nat) (waiters : List (Nat × Nat)) {π :
    DevPart}
    (hπ : π ∉ [DevPart.lanes, .hive, .receipts, .wagEps]) : (Dev.startMaking d kind boundary waiters).get π = d.get π := by
  simp at hπ
  unfold Dev.startMaking; simp [hπ]
@[simp] theorem Dev.takeDemand_frame (d : Dev) {π : DevPart}
    (hπ : π ∉ [DevPart.receipts, .wag]) : (Dev.takeDemand d).2.get π = d.get π := by
  simp at hπ
  unfold Dev.takeDemand; simp [hπ]
@[simp] theorem Dev.newPeriod_frame (d : Dev) {π : DevPart}
    (hπ : π ∉ [DevPart.lanes, .ports]) : (Dev.newPeriod d).get π = d.get π := by
  simp at hπ
  unfold Dev.newPeriod; simp [hπ]
@[simp] theorem Dev.skipBoundaries_frame (d : Dev) (p : Nat) (z1 : Nat) (z2 : Nat) {π : DevPart}
    (hπ : π ∉ [DevPart.hive, .ports, .aon, .log, .out]) : (Dev.skipBoundaries d p z1 z2).get π = d.get π := by
  simp at hπ
  induction z1 generalizing d p z2 <;> unfold Dev.skipBoundaries <;> simp [*]
@[simp] theorem Dev.skipTo_frame (d : Dev) (b : Nat) {π : DevPart}
    (hπ : π ∉ [DevPart.hive, .ports, .aon, .log, .out]) : (Dev.skipTo d b).get π = d.get π := by
  have skip (e : Dev) (p z k : Nat) : (e.skipBoundaries p z k).get π = e.get π := Dev.skipBoundaries_frame e p z k hπ
  unfold Dev.skipTo
  extract_lets h k
  split
  · split
    · exact (skip ..).trans (skip ..)
    · exact skip ..
  · exact skip ..
@[simp] theorem Dev.unreadFor_frame (d : Dev) {π : DevPart}
    (hπ : π ∉ [DevPart.hive]) : (Dev.unreadFor d).get π = d.get π := by
  simp at hπ
  unfold Dev.unreadFor; simp [hπ]
@[simp] theorem Dev.hiveBoundary_frame (d : Dev) {π : DevPart}
    (hπ : π ∉ [DevPart.lanes, .hive, .receipts, .wag, .wagEps, .ports, .tiles, .aon, .log, .out]) : (Dev.hiveBoundary d).get π
    = d.get π := by
  simp at hπ
  unfold Dev.hiveBoundary; simp [hπ]
@[simp] theorem Dev.snapshotCapture_frame (d : Dev) {π : DevPart}
    (hπ : π ∉ [DevPart.lanes, .hive, .receipts, .wag, .wagEps]) : (Dev.snapshotCapture d).get π = d.get π := by
  simp at hπ
  generalize h : Dev.snapshotCapture d = r
  unfold Dev.snapshotCapture at h
  (repeat' split at h) <;> subst h <;> simp [hπ]
@[simp] theorem Dev.submitReceipt_frame (d : Dev) (tried : List Nat) {π : DevPart}
    (hπ : π ∉ [DevPart.tiles]) : (Dev.submitReceipt d tried).get π = d.get π := by
  simp at hπ
  unfold Dev.submitReceipt
  (repeat' split) <;> simp [hπ]
@[simp] theorem Dev.rootComputed_frame (d : Dev) {π : DevPart}
    (hπ : π ∉ [DevPart.lanes, .hive, .receipts, .wagEps, .tiles]) : (Dev.rootComputed d).get π = d.get π := by
  simp at hπ
  generalize h : Dev.rootComputed d = r
  unfold Dev.rootComputed at h
  (repeat' split at h) <;> subst h <;> simp [hπ]
@[simp] theorem Dev.queueSup_frame (d : Dev) (kind lane : Nat) (body : List Byte) {π : DevPart}
    (hπ : π ∉ [DevPart.store]) : (Dev.queueSup d kind lane body).get π = d.get π := by
  simp at hπ
  unfold Dev.queueSup; simp [hπ]
@[simp] theorem Dev.issueReceipt_frame (d : Dev) (m : Making) (body : List Byte) {π : DevPart}
    (hπ : π ∉ [DevPart.hive, .receipts, .store, .ports, .aon, .log, .out]) : (Dev.issueReceipt d m body).get π = d.get π := by
  simp at hπ
  unfold Dev.issueReceipt; simp [hπ]
@[simp] theorem Dev.signReceipt_frame (d : Dev) (m : Making) (e : JobEnd) (draw : List Byte) {π : DevPart}
    (hπ : π ∉ [DevPart.aon, .hive, .log, .out, .ports, .receipts, .store]) : (Dev.signReceipt d m e draw).get π = d.get π := by
  simp at hπ
  unfold Dev.signReceipt; simp [hπ]
@[simp] theorem Dev.receiptJobEnd_frame (d : Dev) (e : JobEnd) {π : DevPart}
    (hπ : π ∉ [DevPart.ctr, .hive, .receipts, .store, .ports, .tiles, .aon, .log, .out]) : (Dev.receiptJobEnd d e).get π =
    d.get π := by
  simp at hπ
  generalize h : Dev.receiptJobEnd d e = r
  unfold Dev.receiptJobEnd at h
  (repeat' split at h) <;> subst h <;> simp [hπ]
@[simp] theorem Dev.lapsedEnd_frame (d : Dev) (e : JobEnd) {π : DevPart}
    (hπ : π ∉ [DevPart.aon, .hive, .log, .out, .ports, .receipts, .store]) : (Dev.lapsedEnd d e).get π = d.get π := by
  simp at hπ
  unfold Dev.lapsedEnd
  (repeat' split) <;> simp [hπ]
@[simp] theorem Dev.receiptEnd_frame (d : Dev) (e : JobEnd) {π : DevPart}
    (hπ : π ∉ [DevPart.aon, .ctr, .hive, .log, .out, .ports, .receipts, .store, .tiles]) : (Dev.receiptEnd d e).get π = d.get π := by
  simp at hπ
  unfold Dev.receiptEnd; simp [hπ]
@[simp] theorem Dev.snapshotFailed_frame (d : Dev) (f : Flight) {π : DevPart}
    (hπ : π ∉ [DevPart.hive, .receipts, .ports, .aon, .log, .out]) : (Dev.snapshotFailed d f).get π = d.get π := by
  simp at hπ
  generalize h : Dev.snapshotFailed d f = r
  unfold Dev.snapshotFailed at h
  (repeat' split at h) <;> subst h <;> simp [hπ]
@[simp] theorem Dev.demand_frame (d : Dev) (waiter : Option (Nat × Nat)) {π : DevPart}
    (hπ : π ∉ [DevPart.hive, .receipts, .wag]) : (Dev.demand d waiter).get π = d.get π := by
  simp at hπ
  unfold Dev.demand; simp [hπ]
@[simp] theorem Dev.atArm_frame (d : Dev) {π : DevPart} (hπ : π ∉ [DevPart.hive]) : (Dev.atArm d).get π = d.get π := by
  simp at hπ
  unfold Dev.atArm; simp [hπ]
@[simp] theorem Dev.atCancel_frame (d : Dev) {π : DevPart}
    (hπ : π ∉ [DevPart.hive]) : (Dev.atCancel d).get π = d.get π := by
  simp at hπ
  unfold Dev.atCancel; simp [hπ]
@[simp] theorem Dev.passChanges_frame (d : Dev) {π : DevPart}
    (hπ : π ∉ [DevPart.hive]) : (Dev.passChanges d).get π = d.get π := by
  simp at hπ
  unfold Dev.passChanges; simp [hπ]
@[simp] theorem Dev.periodNext_frame (d : Dev) (p : Nat) {π : DevPart}
    (hπ : π ∉ [DevPart.hive]) : (Dev.periodNext d p).2.get π = d.get π := by
  simp at hπ
  unfold Dev.periodNext; simp [hπ]
@[simp] theorem Dev.epochNext_frame (d : Dev) (p : Nat) {π : DevPart}
    (hπ : π ∉ [DevPart.hive]) : (Dev.epochNext d p).2.get π = d.get π := by
  simp at hπ
  unfold Dev.epochNext; simp [hπ]
@[simp] theorem Dev.dropEpochSig_frame (d : Dev) (n : Nat) {π : DevPart}
    (hπ : π ∉ [DevPart.lanes, .ports, .tiles, .aon, .log, .out, .receipts]) : (Dev.dropEpochSig d n).get π = d.get π := by
  simp at hπ
  unfold Dev.dropEpochSig
  dsimp only
  (repeat' split) <;> simp [hπ]
@[simp] theorem Dev.epochKey_frame (d : Dev) (n b : Nat) {π : DevPart}
    (hπ : π ∉ [DevPart.ctr, .lanes, .rng, .keys]) : (Dev.epochKey d n b).get π = d.get π := by
  simp at hπ
  unfold Dev.epochKey; simp [hπ]
@[simp] theorem Dev.laneEpoch_frame (d : Dev) (n b : Nat) {π : DevPart}
    (hπ : π ∉ [DevPart.ctr, .lanes, .ports, .tiles, .rng, .aon, .log, .out, .keys, .receipts]) : (Dev.laneEpoch d n b).get π = d.get π := by
  simp at hπ
  unfold Dev.laneEpoch; simp [hπ]
@[simp] theorem Dev.laneEpochNow_frame (d : Dev) (n : Nat) {π : DevPart}
    (hπ : π ∉ [DevPart.ctr, .lanes, .ports, .tiles, .rng, .aon, .log, .out, .keys, .receipts]) : (Dev.laneEpochNow d n).get π = d.get π := by
  simp at hπ
  unfold Dev.laneEpochNow; simp [hπ]
@[simp] theorem Dev.epochBoundary_frame (d : Dev) {π : DevPart}
    (hπ : π ∉ [DevPart.ctr, .lanes, .hive, .ports, .tiles, .rng, .aon, .log, .out, .keys, .receipts]) : (Dev.epochBoundary d).get π = d.get π :=
    by
  simp at hπ
  unfold Dev.epochBoundary; simp [hπ]
@[simp] theorem Dev.submitSig_frame (d : Dev) (n b : Nat) (head : List Byte) {π : DevPart}
    (hπ : π ∉ [DevPart.aon, .lanes, .log, .out, .ports, .tiles]) : (Dev.submitSig d n b head).get π = d.get π := by
  simp at hπ
  unfold Dev.submitSig; simp [hπ]
@[simp] theorem Dev.linkAppend_frame (d : Dev) (n : Nat) {π : DevPart}
    (hπ : π ∉ [DevPart.lanes, .ports, .tiles, .aon, .log, .out]) : (Dev.linkAppend d n).get π = d.get π := by
  simp at hπ
  unfold Dev.linkAppend
  dsimp only
  (repeat' split) <;> simp [hπ]
@[simp] theorem Dev.linkLate_frame (d : Dev) (n : Nat) {π : DevPart}
    (hπ : π ∉ [DevPart.lanes, .hive, .ports, .aon, .log, .out]) : (Dev.linkLate d n).get π = d.get π := by
  simp at hπ
  unfold Dev.linkLate; simp [hπ]
@[simp] theorem Dev.epochSigned_frame (d : Dev) (n b : Nat) (pre draw : List Byte) (slot : KeySlot) {π : DevPart}
    (hπ : π ∉ [DevPart.lanes]) : (Dev.epochSigned d n b pre draw slot).get π = d.get π := by
  simp at hπ
  unfold Dev.epochSigned; simp [hπ]
@[simp] theorem Dev.epochJobEnd_frame (d : Dev) (n : Nat) (e : JobEnd) {π : DevPart}
    (hπ : π ∉ [DevPart.ctr, .lanes, .ports, .tiles, .aon, .log, .out, .receipts]) : (Dev.epochJobEnd d n e).get π = d.get π := by
  simp at hπ
  generalize h : Dev.epochJobEnd d n e = r
  unfold Dev.epochJobEnd at h
  (repeat' split at h) <;> subst h <;> simp [hπ]
@[simp] theorem Dev.signatureAppend_frame (d : Dev) (n : Nat) {π : DevPart}
    (hπ : π ∉ [DevPart.lanes]) : (Dev.signatureAppend d n).get π = d.get π := by
  simp at hπ
  unfold Dev.signatureAppend
  dsimp only
  (repeat' split) <;> simp [hπ]

end Sys2Proof.Machine
end

