-- ==== Sys2Proof/Laws/FrameCloseOps.lean ====
section
/-! SUPPORT. The parts of the device that each operation of Machine/CloseOps.lean leaves as they were: all but those named. -/
namespace Sys2Proof.Machine

@[simp] theorem Dev.onPower_frame (d : Dev) (f : Power → Power) {π : DevPart}
    (hπ : π ∉ [DevPart.power]) : (Dev.onPower d f).get π = d.get π := by
  simp at hπ
  unfold Dev.onPower; simp [hπ]
@[simp] theorem Dev.onClose_frame (d : Dev) (f : CloseSeq → CloseSeq) {π : DevPart}
    (hπ : π ∉ [DevPart.close]) : (Dev.onClose d f).get π = d.get π := by
  simp at hπ
  unfold Dev.onClose; simp [hπ]
@[simp] theorem Dev.powerErr_frame (d : Dev) (n : Nat) {π : DevPart}
    (hπ : π ∉ [DevPart.power]) : (Dev.powerErr d n).get π = d.get π := by
  simp at hπ
  unfold Dev.powerErr; simp [hπ]
@[simp] theorem Dev.setMode_frame (d : Dev) (m : Mode) {π : DevPart}
    (hπ : π ∉ [DevPart.power, .ports, .aon, .log, .out]) : (Dev.setMode d m).get π = d.get π := by
  simp at hπ
  unfold Dev.setMode; simp [hπ]
@[simp] theorem Dev.jobWritten_frame (d : Dev) (n x : Nat) (c : Desc) {π : DevPart}
    (hπ : π ∉ [DevPart.ctr]) : (Dev.jobWritten d n x c).2.get π = d.get π := by
  simp at hπ
  unfold Dev.jobWritten
  dsimp only
  (repeat' split) <;> (try split) <;> simp [hπ]
@[simp] theorem Dev.zeroFill_frame (d : Dev) (n x : Nat) {π : DevPart}
    (hπ : π ∉ [DevPart.ctr, .out]) : (Dev.zeroFill d n x).get π = d.get π := by
  simp at hπ
  unfold Dev.zeroFill
  dsimp only
  (repeat' split) <;> simp [hπ]
@[simp] theorem Dev.lanesStop_frame (d : Dev) {π : DevPart}
    (hπ : π ∉ [DevPart.ctr, .lanes, .combs, .close, .out]) : (Dev.lanesStop d).get π = d.get π := by
  simp at hπ
  unfold Dev.lanesStop; simp [hπ]
@[simp] theorem Dev.stagingOff_frame (d : Dev) {π : DevPart}
    (hπ : π ∉ [DevPart.staging]) : (Dev.stagingOff d).get π = d.get π := by
  simp at hπ
  unfold Dev.stagingOff; simp [hπ]
@[simp] theorem Dev.closeBegin_frame (d : Dev) (cause : CloseCause) (resp : Nat) {π : DevPart}
    (hπ : π ∉ [DevPart.ctr, .lanes, .combs, .hive, .receipts, .wag, .store, .staging, .power, .close, .ports, .tiles, .aon,
    .log, .out]) : (Dev.closeBegin d cause resp).get π = d.get π := by
  simp at hπ
  unfold Dev.closeBegin; simp [hπ]
@[simp] theorem Dev.closeJoin_frame (d : Dev) (a : AfterClose) {π : DevPart}
    (hπ : π ∉ [DevPart.close]) : (Dev.closeJoin d a).get π = d.get π := by
  simp at hπ
  unfold Dev.closeJoin; simp [hπ]
@[simp] theorem Dev.drainReserve_frame (d : Dev) {π : DevPart}
    (hπ : π ∉ [DevPart.lanes, .store]) : (Dev.drainReserve d).get π = d.get π := by
  simp at hπ
  unfold Dev.drainReserve
  (repeat' split) <;> simp (maxDischargeDepth := 8) [hπ]
@[simp] theorem Dev.flushDone_frame (d : Dev) {π : DevPart}
    (hπ : π ∉ [DevPart.lanes, .store, .power, .close]) : (Dev.flushDone d).get π = d.get π := by
  simp at hπ
  unfold Dev.flushDone
  simp [hπ]
@[simp] theorem Dev.flushExpiry_frame (d : Dev) {π : DevPart}
    (hπ : π ∉ [DevPart.store, .close, .ports, .aon, .log, .out]) : (Dev.flushExpiry d).get π = d.get π := by
  simp at hπ
  unfold Dev.flushExpiry
  dsimp only
  (repeat' split) <;> simp [hπ]
@[simp] theorem Dev.closeSign_frame (d : Dev) (which : Nat) (form : Dev → CloseDraw → Bool → Dev) {π : DevPart} (hf :
    ∀ y0 y1 y2, (form y0 y1 y2).get π = y0.get π)
    (hπ : π ∉ [DevPart.lanes, .staging, .close, .tiles]) : (Dev.closeSign d which form).get π = d.get π := by
  simp at hπ
  unfold Dev.closeSign; simp [hπ, hf]
@[simp] theorem Dev.formCloseRecord_frame (d : Dev) (draw : CloseDraw) (failed : Bool) {π : DevPart}
    (hπ : π ∉ [DevPart.ctr, .lanes, .store, .staging, .close]) : (Dev.formCloseRecord d draw failed).get π = d.get π := by
  simp at hπ
  unfold Dev.formCloseRecord
  simp [hπ]
@[simp] theorem Dev.formLoss_frame (d : Dev) (draw : CloseDraw) (failed : Bool) {π : DevPart}
    (hπ : π ∉ [DevPart.ctr, .lanes, .store, .staging, .close, .tiles]) : (Dev.formLoss d draw failed).get π = d.get π := by
  simp at hπ
  unfold Dev.formLoss
  simp [hπ]
@[simp] theorem Dev.closeStepNow_frame (d : Dev) {π : DevPart}
    (hπ : π ∉ [DevPart.power]) : (Dev.closeStepNow d).get π = d.get π := by
  simp at hπ
  unfold Dev.closeStepNow; simp [hπ]
@[simp] theorem Dev.formFinal_frame (d : Dev) (draw : CloseDraw) (failed : Bool) {π : DevPart}
    (hπ : π ∉ [DevPart.ctr, .lanes, .store, .staging, .power, .close, .tiles]) : (Dev.formFinal d draw failed).get π = d.get π
    := by
  simp at hπ
  unfold Dev.formFinal
  extract_lets c m body dig d1 d2 d3
  have h2 : d2.get π = d.get π := by simp [d2, d1, hπ]
  have h3 : d3.get π = d.get π := (Dev.get_each _ _ _ (by intros; split <;> simp [hπ])).trans h2
  simp [h3, hπ]
@[simp] theorem Dev.formStage_frame (d : Dev) (draw : CloseDraw) (failed : Bool) {π : DevPart}
    (hπ : π ∉ [DevPart.ctr, .lanes, .store, .staging, .power, .close, .tiles]) : (Dev.formStage d draw failed).get π = d.get π
    := by
  simp at hπ
  unfold Dev.formStage
  (repeat' split) <;> simp [hπ]
@[simp] theorem Dev.closeJobEnd_frame (d : Dev) (which : Nat) (e : JobEnd) {π : DevPart}
    (hπ : π ∉ [DevPart.ctr, .lanes, .store, .staging, .power, .close, .ports, .tiles, .aon, .log, .out]) : (Dev.closeJobEnd d
    which e).get π = d.get π := by
  simp at hπ
  unfold Dev.closeJobEnd
  (repeat' split) <;> simp [hπ]
@[simp] theorem Dev.closeUnsigned_frame (d : Dev) {π : DevPart}
    (hπ : π ∉ [DevPart.ctr, .lanes, .store, .staging, .power, .close, .tiles]) : (Dev.closeUnsigned d).get π = d.get π := by
  simp at hπ
  unfold Dev.closeUnsigned
  dsimp only
  (repeat' split) <;> simp [hπ]
@[simp] theorem Dev.jobEnded_frame (d : Dev) (e : JobEnd) {π : DevPart}
    (hπ : π ∉ [DevPart.ctr, .lanes, .hive, .receipts, .store, .staging, .power, .close, .ports, .tiles, .aon, .log, .out]) :
    (Dev.jobEnded d e).get π = d.get π := by
  simp at hπ
  unfold Dev.jobEnded
  (repeat' split) <;> simp [hπ]
@[simp] theorem Dev.linksAll_frame (d : Dev) (n : Nat) (z1 : Nat) {π : DevPart}
    (hπ : π ∉ [DevPart.lanes, .ports, .tiles, .aon, .log, .out]) : (Dev.linksAll d n z1).get π = d.get π := by
  simp at hπ
  induction z1 generalizing d n <;> unfold Dev.linksAll <;> simp [*]
@[simp] theorem Dev.sealOne_frame (d : Dev) (n : Nat) {π : DevPart}
    (hπ : π ∉ [DevPart.ctr, .lanes, .staging, .ports, .tiles, .rng, .aon, .log, .out, .receipts, .keys]) : (Dev.sealOne d n).get π = d.get π := by
  simp at hπ
  unfold Dev.sealOne; simp [hπ]
@[simp] theorem Dev.sealMany_frame (d : Dev) (n : Nat) (z1 : Nat) {π : DevPart}
    (hπ : π ∉ [DevPart.ctr, .lanes, .staging, .ports, .tiles, .rng, .aon, .log, .out, .receipts, .keys]) : (Dev.sealMany d n z1).get π = d.get π := by
  simp at hπ
  induction z1 generalizing d n <;> unfold Dev.sealMany <;> simp [*]
@[simp] theorem Dev.schussEnd_frame (d : Dev) (n : Nat) {π : DevPart}
    (hπ : π ∉ [DevPart.lanes, .ports, .tiles, .aon, .log, .out]) : (Dev.schussEnd d n).get π = d.get π := by
  simp at hπ
  unfold Dev.schussEnd; simp [hπ]
@[simp] theorem Dev.schussSlot_frame (d : Dev) (n k : Nat) {π : DevPart}
    (hπ : π ∉ [DevPart.ctr, .lanes, .store, .staging, .power, .ports, .tiles, .rng, .aon, .log, .out, .receipts, .keys]) : (Dev.schussSlot d n k).get π =
    d.get π := by
  simp at hπ
  unfold Dev.schussSlot
  simp [hπ]
@[simp] theorem Dev.cutLane_frame (d : Dev) (n done : Nat) {π : DevPart}
    (hπ : π ∉ [DevPart.ctr, .lanes, .staging, .ports, .tiles, .rng, .aon, .log, .out, .receipts, .keys]) : (Dev.cutLane d n done).get π = d.get π := by
  simp at hπ
  unfold Dev.cutLane; simp [hπ]
@[simp] theorem Dev.sealCutoff_frame (d : Dev) (done : List Nat) {π : DevPart}
    (hπ : π ∉ [DevPart.ctr, .lanes, .store, .staging, .power, .close, .ports, .tiles, .rng, .aon, .log, .out, .receipts, .keys]) : (Dev.sealCutoff d
    done).get π = d.get π := by
  simp at hπ
  unfold Dev.sealCutoff
  (repeat' split) <;> simp [hπ]
@[simp] theorem Dev.finalSnapshot_frame (d : Dev) {π : DevPart}
    (hπ : π ∉ [DevPart.ctr, .lanes, .hive, .wagEps, .store, .staging, .power, .close, .tiles, .wag]) : (Dev.finalSnapshot d).get π =
    d.get π := by
  simp at hπ
  unfold Dev.finalSnapshot
  (repeat' split) <;> simp [hπ]
@[simp] theorem Dev.openingProgrammed_frame (d : Dev) {π : DevPart}
    (hπ : π ∉ [DevPart.power, .close]) : (Dev.openingProgrammed d).get π = d.get π := by
  simp at hπ
  unfold Dev.openingProgrammed; simp [hπ]
@[simp] theorem Dev.closeDeadline_frame (d : Dev) {π : DevPart}
    (hπ : π ∉ [DevPart.power, .close]) : (Dev.closeDeadline d).get π = d.get π := by
  simp at hπ
  generalize h : Dev.closeDeadline d = r
  unfold Dev.closeDeadline at h
  (repeat' split at h) <;> subst h <;> simp [hπ]
@[simp] theorem Dev.closeRecordDone_frame (d : Dev) {π : DevPart}
    (hπ : π ∉ [DevPart.lanes, .store, .power, .close, .log]) : (Dev.closeRecordDone d).get π = d.get π := by
  simp at hπ
  unfold Dev.closeRecordDone; simp [hπ]
@[simp] theorem Dev.reservePageFail_frame (d : Dev) (b page : Nat) {π : DevPart}
    (hπ : π ∉ [DevPart.ctr, .lanes, .store, .staging, .close, .ports, .tiles, .aon, .log, .out]) : (Dev.reservePageFail d
    b page).get π = d.get π := by
  simp at hπ
  unfold Dev.reservePageFail
  simp [hπ]
@[simp] theorem Dev.storePageDone_frame (d : Dev) (b page : Nat) (ok : Bool) {π : DevPart}
    (hπ : π ∉ [DevPart.ctr, .lanes, .store, .staging, .power, .close, .ports, .tiles, .aon, .log, .out]) : (Dev.storePageDone d b page
    ok).get π = d.get π := by
  simp at hπ
  unfold Dev.storePageDone
  simp [hπ]
@[simp] theorem Dev.reconReport_frame (d : Dev) (opening : List Byte) (dig : List Byte) {π : DevPart}
    (hπ : π ∉ [DevPart.ctr, .store, .power, .rng]) : (Dev.reconReport d opening dig).get π = d.get π := by
  simp at hπ
  unfold Dev.reconReport; simp [hπ]
@[simp] theorem Dev.reconRetire_frame (d : Dev) (dig : List Byte) {π : DevPart}
    (hπ : π ∉ [DevPart.store, .power, .ports, .aon, .log, .out]) : (Dev.reconRetire d dig).get π = d.get π := by
  simp at hπ
  generalize h : Dev.reconRetire d dig = r
  unfold Dev.reconRetire at h
  (repeat' split at h) <;> subst h <;> simp [hπ]
theorem Dev.reconOpen_frame {d : Dev} {r : StoreRec} {e : Dev} {π : DevPart} (h : Dev.reconOpen d r = some e)
    (hπ : π ∉ [DevPart.store, .ports, .aon, .log, .out]) : e.get π = d.get π := by
  unfold Dev.reconOpen at h
  simp at hπ
  split at h
  · rename_i hr
    have h1 := Dev.openContainer_frame hr (π := π) (by simp [hπ])
    simp at h; subst h
    simp_all
  · simp at h
theorem Dev.reconPut_frame {d : Dev} {r : StoreRec} {e : Dev} {π : DevPart} (h : Dev.reconPut d r = some e)
    (hπ : π ∉ [DevPart.store, .ports, .aon, .log, .out]) : e.get π = d.get π := by
  unfold Dev.reconPut at h
  simp at hπ
  repeat' (split at h)
  all_goals first | (cases h; simp [hπ]) | (have hh := Dev.reconOpen_frame h (π := π) (by simp [hπ]); simp_all)
theorem Dev.reconPutAll_frame {d : Dev} {z1 : List StoreRec} {e : Dev} {π : DevPart} (h : Dev.reconPutAll d z1 = some e)
    (hπ : π ∉ [DevPart.store, .ports, .aon, .log, .out]) : e.get π = d.get π := by
  induction z1 generalizing d with
  | nil => unfold Dev.reconPutAll at h; simp at h; subst h; rfl
  | cons r rs ih =>
    unfold Dev.reconPutAll at h
    split at h
    · rename_i hr
      have h1 := Dev.reconPut_frame hr hπ
      have h2 := ih h
      simp_all
    · simp at h
@[simp] theorem Dev.reconWait_frame (d : Dev) {π : DevPart}
    (hπ : π ∉ [DevPart.store, .ports, .aon, .log, .out]) : (Dev.reconWait d).get π = d.get π := by
  simp at hπ
  unfold Dev.reconWait; simp [hπ]
@[simp] theorem Dev.reconBegin_frame (d : Dev) (opening dig : List Byte) {π : DevPart}
    (hπ : π ∉ [DevPart.ctr, .store, .power, .ports, .rng, .aon, .log, .out]) : (Dev.reconBegin d opening dig).get π = d.get π := by
  simp at hπ
  unfold Dev.reconBegin
  dsimp only
  split <;> simp [hπ]
@[simp] theorem Dev.reconCopy_frame (d : Dev) (opening : List Byte) {π : DevPart}
    (hπ : π ∉ [DevPart.ctr, .store, .power, .ports, .rng, .aon, .log, .out]) : (Dev.reconCopy d opening).get π = d.get π := by
  simp at hπ
  unfold Dev.reconCopy
  dsimp only
  repeat' (first | (simp [hπ]; done) | split)
  all_goals (rename_i hr; have h1 := Dev.reconPutAll_frame hr (π := π) (by simp [hπ]); simp_all)
@[simp] theorem Dev.reconHold_frame (d : Dev) (h : List Byte) {π : DevPart}
    (hπ : π ∉ [DevPart.aon, .log, .out, .ports, .store]) : (Dev.reconHold d h).get π = d.get π := by
  simp at hπ
  unfold Dev.reconHold; simp [hπ]
@[simp] theorem Dev.reconRecord_frame (d : Dev) (opening : List Byte) {π : DevPart}
    (hπ : π ∉ [DevPart.receipts, .store, .ports, .aon, .log, .out]) : (Dev.reconRecord d opening).get π = d.get π := by
  simp at hπ
  unfold Dev.reconRecord
  dsimp only
  (repeat' split) <;> simp [hπ]
@[simp] theorem Dev.reconcile_frame (d : Dev) {π : DevPart}
    (hπ : π ∉ [DevPart.ctr, .receipts, .store, .power, .ports, .rng, .aon, .log, .out]) : (Dev.reconcile d).get π = d.get π :=
    by
  simp at hπ
  unfold Dev.reconcile
  dsimp only
  (repeat' split) <;> simp [hπ]
@[simp] theorem Dev.reserveErase_frame (d : Dev) {π : DevPart}
    (hπ : π ∉ [DevPart.store, .ports, .aon, .log, .out]) : (Dev.reserveErase d).get π = d.get π := by
  simp at hπ
  unfold Dev.reserveErase; simp [hπ]
@[simp] theorem Dev.reconFinish_frame (d : Dev) {π : DevPart}
    (hπ : π ∉ [DevPart.store, .power, .ports, .aon, .log, .out]) : (Dev.reconFinish d).get π = d.get π := by
  simp at hπ
  generalize h : Dev.reconFinish d = r
  unfold Dev.reconFinish at h
  (repeat' split at h) <;> subst h <;> simp [hπ]
@[simp] theorem Dev.reconStop_frame (d : Dev) {π : DevPart}
    (hπ : π ∉ [DevPart.ctr, .receipts, .store, .power, .ports, .rng, .aon, .log, .out]) : (Dev.reconStop d).get π = d.get π :=
    by
  simp at hπ
  unfold Dev.reconStop; simp [hπ]

end Sys2Proof.Machine
end

