-- ==== Sys2Proof/Laws/FrameFieldOps.lean ====
section
/-! SUPPORT. The parts of the device that each operation of Machine/FieldOps.lean leaves as they were: all but those named. -/
namespace Sys2Proof.Machine

@[simp] theorem Dev.onField_frame (d : Dev) (f : FieldLink → FieldLink) {π : DevPart}
    (hπ : π ∉ [DevPart.field]) : (Dev.onField d f).get π = d.get π := by
  simp at hπ
  unfold Dev.onField; simp [hπ]
@[simp] theorem Dev.onFieldMem_frame (d : Dev) (f : FieldMem → FieldMem) {π : DevPart}
    (hπ : π ∉ [DevPart.field]) : (Dev.onFieldMem d f).get π = d.get π := by
  simp at hπ
  unfold Dev.onFieldMem; simp [hπ]
@[simp] theorem Dev.fieldErr_frame (d : Dev) (n : Nat) {π : DevPart}
    (hπ : π ∉ [DevPart.field]) : (Dev.fieldErr d n).get π = d.get π := by
  simp at hπ
  unfold Dev.fieldErr; simp [hπ]
@[simp] theorem Dev.fieldReply_frame (d : Dev) (bs : List Byte) {π : DevPart}
    (hπ : π ∉ [DevPart.out]) : (Dev.fieldReply d bs).get π = d.get π := by
  simp at hπ
  unfold Dev.fieldReply; simp [hπ]
@[simp] theorem Dev.takeIdent_frame (d : Dev) {π : DevPart}
    (hπ : π ∉ [DevPart.ctr, .rng, .field]) : (Dev.takeIdent d).get π = d.get π := by
  simp at hπ
  unfold Dev.takeIdent; simp [hπ]
@[simp] theorem Dev.doCommit_frame (d : Dev) (w : FieldWait) {π : DevPart}
    (hπ : π ∉ [DevPart.ports, .field, .out]) : (Dev.doCommit d w).get π = d.get π := by
  simp at hπ
  generalize h : Dev.doCommit d w = r
  unfold Dev.doCommit at h
  (repeat' split at h) <;> subst h <;> simp [hπ]
@[simp] theorem Dev.doPool_frame (d : Dev) (w : FieldWait) {π : DevPart}
    (hπ : π ∉ [DevPart.field]) : (Dev.doPool d w).get π = d.get π := by
  simp at hπ
  generalize h : Dev.doPool d w = r
  unfold Dev.doPool at h
  (repeat' split at h) <;> subst h <;> simp [hπ]
@[simp] theorem Dev.doWork_frame (d : Dev) (w : FieldWait) {π : DevPart}
    (hπ : π ∉ [DevPart.ports, .field, .out]) : (Dev.doWork d w).get π = d.get π := by
  simp at hπ
  unfold Dev.doWork; simp [hπ]
@[simp] theorem Dev.fieldCommits_frame (d : Dev) {π : DevPart}
    (hπ : π ∉ [DevPart.ports, .field, .out]) : (Dev.fieldCommits d).get π = d.get π := by
  simp at hπ
  unfold Dev.fieldCommits; simp [hπ]
@[simp] theorem Dev.fieldWork_frame (d : Dev) (w : FieldWait) {π : DevPart}
    (hπ : π ∉ [DevPart.ports, .field, .out]) : (Dev.fieldWork d w).get π = d.get π := by
  simp at hπ
  unfold Dev.fieldWork; simp [hπ]
@[simp] theorem Dev.fieldWorkFails_frame (d : Dev) (w : FieldWait) {π : DevPart}
    (hπ : π ∉ [DevPart.ports, .field, .out]) : (Dev.fieldWorkFails d w).get π = d.get π := by
  simp at hπ
  generalize h : Dev.fieldWorkFails d w = r
  unfold Dev.fieldWorkFails at h
  (repeat' split at h) <;> subst h <;> simp [hπ]
@[simp] theorem Dev.fieldWrite_frame (d : Dev) (pool : Bool) {π : DevPart}
    (hπ : π ∉ [DevPart.ports, .field, .out]) : (Dev.fieldWrite d pool).get π = d.get π := by
  simp at hπ
  unfold Dev.fieldWrite; simp [hπ]
@[simp] theorem Dev.standbyPool_frame (d : Dev) {π : DevPart}
    (hπ : π ∉ [DevPart.ctr, .ports, .rng, .field, .out]) : (Dev.standbyPool d).get π = d.get π := by
  simp at hπ
  unfold Dev.standbyPool; simp [hπ]
@[simp] theorem Dev.closeField_frame (d : Dev) {π : DevPart}
    (hπ : π ∉ [DevPart.ctr, .ports, .rng, .field, .out]) : (Dev.closeField d).get π = d.get π := by
  simp at hπ
  unfold Dev.closeField; simp [hπ]
@[simp] theorem Dev.sessionDone_frame (d : Dev) (outcome : Option Nat) (st : TagSt) {π : DevPart}
    (hπ : π ∉ [DevPart.ports, .aon, .log, .field, .out]) : (Dev.sessionDone d outcome st).get π = d.get π := by
  simp at hπ
  generalize h : Dev.sessionDone d outcome st = r
  unfold Dev.sessionDone at h
  (repeat' split at h) <;> subst h <;> simp [hπ]
@[simp] theorem Dev.tagSettle_frame (d : Dev) {π : DevPart}
    (hπ : π ∉ [DevPart.ports, .aon, .log, .field, .out]) : (Dev.tagSettle d).get π = d.get π := by
  simp at hπ
  unfold Dev.tagSettle; simp [hπ]
@[simp] theorem Dev.carrierRise_frame (d : Dev) {π : DevPart}
    (hπ : π ∉ [DevPart.ctr, .supply, .power, .rng, .field]) : (Dev.carrierRise d).get π = d.get π := by
  simp at hπ
  unfold Dev.carrierRise; simp [hπ]
@[simp] theorem Dev.carrierGone_frame (d : Dev) {π : DevPart}
    (hπ : π ∉ [DevPart.supply, .power, .ports, .aon, .log, .field, .out]) : (Dev.carrierGone d).get π = d.get π := by
  simp at hπ
  unfold Dev.carrierGone; simp [hπ]
@[simp] theorem Dev.tagCommand_frame (d : Dev) (crcOk : Bool) (valid : TagSt → Bool) (f : Dev → Dev) {π : DevPart} (hf : ∀ y0,
    (f y0).get π = y0.get π)
    (hπ : π ∉ [DevPart.field]) : (Dev.tagCommand d crcOk valid f).get π = d.get π := by
  simp at hπ
  unfold Dev.tagCommand; simp [hπ, hf]
@[simp] theorem Dev.tagBegin_frame (d : Dev) (crcOk : Bool) {π : DevPart}
    (hπ : π ∉ [DevPart.ports, .aon, .log, .field, .out]) : (Dev.tagBegin d crcOk).get π = d.get π := by
  simp at hπ
  unfold Dev.tagBegin; simp [hπ]
@[simp] theorem Dev.tagWalk_frame (d : Dev) (plen prefix_ : Nat) (crcOk : Bool) {π : DevPart}
    (hπ : π ∉ [DevPart.ctr, .rng, .field, .out]) : (Dev.tagWalk d plen prefix_ crcOk).get π = d.get π := by
  simp at hπ
  unfold Dev.tagWalk; simp [hπ]
@[simp] theorem Dev.tagSelect_frame (d : Dev) (id : Nat) (crcOk : Bool) {π : DevPart}
    (hπ : π ∉ [DevPart.field, .out]) : (Dev.tagSelect d id crcOk).get π = d.get π := by
  simp at hπ
  unfold Dev.tagSelect; simp [hπ]
@[simp] theorem Dev.tagReshuffle_frame (d : Dev) (id : Nat) (crcOk : Bool) {π : DevPart}
    (hπ : π ∉ [DevPart.ctr, .ports, .rng, .aon, .log, .field, .out]) : (Dev.tagReshuffle d id crcOk).get π = d.get π := by
  simp at hπ
  unfold Dev.tagReshuffle; simp [hπ]
@[simp] theorem Dev.tagSilence_frame (d : Dev) (id : Nat) (crcOk : Bool) {π : DevPart}
    (hπ : π ∉ [DevPart.field]) : (Dev.tagSilence d id crcOk).get π = d.get π := by
  simp at hπ
  unfold Dev.tagSilence; simp [hπ]
@[simp] theorem Dev.tagEnd_frame (d : Dev) (crcOk : Bool) {π : DevPart}
    (hπ : π ∉ [DevPart.ports, .aon, .log, .field, .out]) : (Dev.tagEnd d crcOk).get π = d.get π := by
  simp at hπ
  unfold Dev.tagEnd; simp [hπ]
@[simp] theorem Dev.tagAuth_frame (d : Dev) (keyId : Nat) (rr : List Byte) (crcOk : Bool) {π : DevPart}
    (hπ : π ∉ [DevPart.field, .out]) : (Dev.tagAuth d keyId rr crcOk).get π = d.get π := by
  simp at hπ
  unfold Dev.tagAuth Dev.tagCommand
  split
  · rfl
  · dsimp only
    repeat' (first | (simp [hπ]; done) | split)
@[simp] theorem Dev.proofFails_frame (d : Dev) {π : DevPart}
    (hπ : π ∉ [DevPart.ports, .aon, .log, .field, .out]) : (Dev.proofFails d).get π = d.get π := by
  simp at hπ
  unfold Dev.proofFails; simp [hπ]
@[simp] theorem Dev.tagProve_frame (d : Dev) (mr : List Byte) (crcOk : Bool) {π : DevPart}
    (hπ : π ∉ [DevPart.ports, .aon, .log, .field, .out]) : (Dev.tagProve d mr crcOk).2.get π = d.get π := by
  simp at hπ
  generalize h : Dev.tagProve d mr crcOk = r
  unfold Dev.tagProve at h
  (repeat' split at h) <;> subst h <;> simp [hπ]
@[simp] theorem Dev.tagRead_frame (d : Dev) (block : Nat) (crcOk : Bool) {π : DevPart}
    (hπ : π ∉ [DevPart.field, .out]) : (Dev.tagRead d block crcOk).get π = d.get π := by
  simp at hπ
  unfold Dev.tagRead Dev.tagCommand
  split
  · rfl
  · dsimp only
    repeat' (first | (simp [hπ]; done) | split)
@[simp] theorem Dev.tagPair_frame (d : Dev) (crcOk : Bool) {π : DevPart}
    (hπ : π ∉ [DevPart.field, .out]) : (Dev.tagPair d crcOk).get π = d.get π := by
  simp at hπ
  unfold Dev.tagPair; simp [hπ]
@[simp] theorem Dev.sessionIdle_frame (d : Dev) {π : DevPart}
    (hπ : π ∉ [DevPart.ports, .aon, .log, .field, .out]) : (Dev.sessionIdle d).get π = d.get π := by
  simp at hπ
  generalize h : Dev.sessionIdle d = r
  unfold Dev.sessionIdle at h
  (repeat' split at h) <;> subst h <;> simp [hπ]
@[simp] theorem Dev.authWindow_frame (d : Dev) {π : DevPart}
    (hπ : π ∉ [DevPart.ports, .aon, .log, .field, .out]) : (Dev.authWindow d).get π = d.get π := by
  simp at hπ
  generalize h : Dev.authWindow d = r
  unfold Dev.authWindow at h
  (repeat' split at h) <;> subst h <;> simp [hπ]
@[simp] theorem Dev.fieldUnlock_frame (d : Dev) {π : DevPart}
    (hπ : π ∉ [DevPart.field]) : (Dev.fieldUnlock d).get π = d.get π := by
  simp at hπ
  generalize h : Dev.fieldUnlock d = r
  unfold Dev.fieldUnlock at h
  (repeat' split at h) <;> subst h <;> simp [hπ]
@[simp] theorem Dev.setFieldKey_frame (d : Dev) (i : Nat) (k : FieldKey) {π : DevPart}
    (hπ : π ∉ [DevPart.field]) : (Dev.setFieldKey d i k).get π = d.get π := by
  simp at hπ
  unfold Dev.setFieldKey; simp [hπ]
@[simp] theorem Dev.fieldKeySet_frame (d : Dev) (slot keyId entry : Nat) {π : DevPart}
    (hπ : π ∉ [DevPart.field]) : (Dev.fieldKeySet d slot keyId entry).get π = d.get π := by
  simp at hπ
  unfold Dev.fieldKeySet; simp [hπ]
@[simp] theorem Dev.fieldKeyLoad_frame (d : Dev) {π : DevPart}
    (hπ : π ∉ [DevPart.field]) : (Dev.fieldKeyLoad d).get π = d.get π := by
  simp at hπ
  unfold Dev.fieldKeyLoad; simp [hπ]
@[simp] theorem Dev.fieldKeyClear_frame (d : Dev) {π : DevPart}
    (hπ : π ∉ [DevPart.field]) : (Dev.fieldKeyClear d).get π = d.get π := by
  simp at hπ
  unfold Dev.fieldKeyClear; simp [hπ]
@[simp] theorem Dev.fieldPowerUp_frame (d : Dev) {π : DevPart}
    (hπ : π ∉ [DevPart.ports, .aon, .log, .field, .out]) : (Dev.fieldPowerUp d).get π = d.get π := by
  simp at hπ
  unfold Dev.fieldPowerUp; simp [hπ]
@[simp] theorem Dev.readerAnswer_frame (d : Dev) (r : ReaderOp) {π : DevPart}
    (hπ : π ∉ [DevPart.field, .out, .ports]) : (Dev.readerAnswer d r).get π = d.get π := by
  simp at hπ
  unfold Dev.readerAnswer; simp [hπ]
@[simp] theorem Dev.readerOff_frame (d : Dev) {π : DevPart}
    (hπ : π ∉ [DevPart.field, .out, .ports]) : (Dev.readerOff d).get π = d.get π := by
  simp at hπ
  unfold Dev.readerOff
  dsimp only
  (repeat' split) <;> simp [hπ]
@[simp] theorem Dev.readerEnable_frame (d : Dev) (on : Bool) {π : DevPart}
    (hπ : π ∉ [DevPart.ports, .aon, .log, .field, .out]) : (Dev.readerEnable d on).get π = d.get π := by
  simp at hπ
  unfold Dev.readerEnable; simp [hπ]
@[simp] theorem Dev.readerSend_frame (d : Dev) (code : Nat) (fields : List Bool) {π : DevPart}
    (hπ : π ∉ [DevPart.out]) : (Dev.readerSend d code fields).get π = d.get π := by
  simp at hπ
  unfold Dev.readerSend; simp [hπ]
@[simp] theorem Dev.readerWalk_frame (d : Dev) (r : ReaderOp) {π : DevPart}
    (hπ : π ∉ [DevPart.field, .out]) : (Dev.readerWalk d r).get π = d.get π := by
  simp at hπ
  generalize h : Dev.readerWalk d r = r
  unfold Dev.readerWalk at h
  (repeat' split at h) <;> subst h <;> simp [hπ]
@[simp] theorem Dev.readerJudge_frame (d : Dev) (r : ReaderOp) (reply : List Bool × Bool) {π : DevPart}
    (hπ : π ∉ [DevPart.ports, .out]) : (Dev.readerJudge d r reply).2.get π = d.get π := by
  simp at hπ
  generalize h : Dev.readerJudge d r reply = r
  unfold Dev.readerJudge at h
  (repeat' split at h) <;> subst h <;> simp [hπ]
@[simp] theorem Dev.readerRun_frame (d : Dev) (z1 : List (List Bool × Bool)) {π : DevPart}
    (hπ : π ∉ [DevPart.ports, .field, .out]) : (Dev.readerRun d z1).get π = d.get π := by
  simp at hπ
  induction z1 generalizing d <;> unfold Dev.readerRun <;> (repeat' split) <;> simp [*]
@[simp] theorem Dev.readerStart_frame (d : Dev) (r : ReaderOp) (replies : List (List Bool × Bool)) {π : DevPart}
    (hπ : π ∉ [DevPart.ports, .field, .out]) : (Dev.readerStart d r replies).get π = d.get π := by
  simp at hπ
  unfold Dev.readerStart; simp [hπ]
@[simp] theorem Dev.readerSilence_frame (d : Dev) (replies : List (List Bool × Bool)) {π : DevPart}
    (hπ : π ∉ [DevPart.ports, .field, .out]) : (Dev.readerSilence d replies).get π = d.get π := by
  simp at hπ
  generalize h : Dev.readerSilence d replies = r
  unfold Dev.readerSilence at h
  (repeat' split at h) <;> subst h <;> simp [hπ]
@[simp] theorem Dev.readerEnd_frame (d : Dev) {π : DevPart}
    (hπ : π ∉ [DevPart.ports, .field, .out]) : (Dev.readerEnd d).get π = d.get π := by
  simp at hπ
  generalize h : Dev.readerEnd d = r
  unfold Dev.readerEnd at h
  (repeat' split at h) <;> subst h <;> simp [hπ]
@[simp] theorem Dev.readerStop_frame (d : Dev) {π : DevPart}
    (hπ : π ∉ [DevPart.ports, .aon, .log, .field, .out]) : (Dev.readerStop d).get π = d.get π := by
  simp at hπ
  unfold Dev.readerStop; simp [hπ]

end Sys2Proof.Machine
end

