-- ==== Sys2Proof/Laws/FrameFlashOps.lean ====
section
/-! SUPPORT. The parts of the device that each operation of Machine/FlashOps.lean leaves as they were: all but those named. -/
namespace Sys2Proof.Machine

@[simp] theorem Dev.onFlash_frame (d : Dev) (f : CodeFlash → CodeFlash) {π : DevPart}
    (hπ : π ∉ [DevPart.flash]) : (Dev.onFlash d f).get π = d.get π := by
  simp at hπ
  unfold Dev.onFlash; simp [hπ]
@[simp] theorem Dev.onBank_frame (d : Dev) (b : Nat) (f : Bank → Bank) {π : DevPart}
    (hπ : π ∉ [DevPart.flash]) : (Dev.onBank d b f).get π = d.get π := by
  simp at hπ
  unfold Dev.onBank; simp [hπ]
@[simp] theorem Dev.flashErr_frame (d : Dev) (n : Nat) {π : DevPart}
    (hπ : π ∉ [DevPart.flash]) : (Dev.flashErr d n).get π = d.get π := by
  simp at hπ
  unfold Dev.flashErr; simp [hπ]
@[simp] theorem Dev.flashRow_frame (d : Dev) (b row : Nat) {π : DevPart}
    (hπ : π ∉ [DevPart.ctr]) : (Dev.flashRow d b row).2.get π = d.get π := by
  simp at hπ
  unfold Dev.flashRow; simp [hπ]
@[simp] theorem Dev.flashRead_frame (d : Dev) (b off : Nat) {π : DevPart}
    (hπ : π ∉ [DevPart.ctr, .lanes, .flash]) : (Dev.flashRead d b off).2.get π = d.get π := by
  simp at hπ
  unfold Dev.flashRead
  dsimp only
  (repeat' split) <;> simp [hπ]
@[simp] theorem Dev.flashFetch_frame (d : Dev) (b off : Nat) (fetch branch : Bool) {π : DevPart}
    (hπ : π ∉ [DevPart.ctr, .lanes, .flash]) : (Dev.flashFetch d b off fetch branch).2.get π = d.get π := by
  simp at hπ
  unfold Dev.flashFetch; simp [hπ]
@[simp] theorem Dev.flashDiscard_frame (d : Dev) {π : DevPart}
    (hπ : π ∉ [DevPart.flash]) : (Dev.flashDiscard d).get π = d.get π := by
  simp at hπ
  unfold Dev.flashDiscard; simp [hπ]
@[simp] theorem Dev.eraseResume_frame (d : Dev) (b : Nat) {π : DevPart}
    (hπ : π ∉ [DevPart.flash]) : (Dev.eraseResume d b).get π = d.get π := by
  simp at hπ
  unfold Dev.eraseResume; simp [hπ]
@[simp] theorem Dev.flashSubmit_frame (d : Dev) (j : CflJob) {π : DevPart}
    (hπ : π ∉ [DevPart.flash]) : (Dev.flashSubmit d j).get π = d.get π := by
  simp at hπ
  unfold Dev.flashSubmit; simp [hπ]
@[simp] theorem Dev.cflComplete_frame (d : Dev) (tag status done : Nat) (irq : Bool) {π : DevPart}
    (hπ : π ∉ [DevPart.cores, .flash]) : (Dev.cflComplete d tag status done irq).get π = d.get π := by
  simp at hπ
  unfold Dev.cflComplete; simp [hπ]
@[simp] theorem Dev.flashJobEnd_frame (d : Dev) (j : CflJob) (st : Status) (done : Nat) {π : DevPart}
    (hπ : π ∉ [DevPart.cores, .flash]) : (Dev.flashJobEnd d j st done).2.get π = d.get π := by
  simp at hπ
  unfold Dev.flashJobEnd; simp [hπ]
@[simp] theorem Dev.readAct_frame (d : Dev) (b : Nat) {π : DevPart}
    (hπ : π ∉ [DevPart.flash]) : (Dev.readAct d b).get π = d.get π := by
  simp at hπ
  unfold Dev.readAct; simp [hπ]
@[simp] theorem Dev.flashRowDone_frame (d : Dev) (b : Nat) (ok : Bool) {π : DevPart}
    (hπ : π ∉ [DevPart.cores, .flash]) : (Dev.flashRowDone d b ok).2.get π = d.get π := by
  simp at hπ
  generalize h : Dev.flashRowDone d b ok = r
  unfold Dev.flashRowDone at h
  (repeat' split at h) <;> subst h <;> simp [hπ]
@[simp] theorem Dev.eraseSector_frame (d : Dev) (b off : Nat) {π : DevPart}
    (hπ : π ∉ [DevPart.flash]) : (Dev.eraseSector d b off).get π = d.get π := by
  simp at hπ
  unfold Dev.eraseSector; simp [hπ]
@[simp] theorem Dev.flashEraseDone_frame (d : Dev) (b : Nat) (ok : Bool) {π : DevPart}
    (hπ : π ∉ [DevPart.cores, .flash]) : (Dev.flashEraseDone d b ok).2.get π = d.get π := by
  simp at hπ
  generalize h : Dev.flashEraseDone d b ok = r
  unfold Dev.flashEraseDone at h
  (repeat' split at h) <;> subst h <;> simp [hπ]
@[simp] theorem Dev.flashDrop_frame (d : Dev) (tag : Nat) {π : DevPart}
    (hπ : π ∉ [DevPart.flash]) : (Dev.flashDrop d tag).get π = d.get π := by
  simp at hπ
  unfold Dev.flashDrop; simp [hπ]
@[simp] theorem Dev.flashAbort_frame (d : Dev) {π : DevPart}
    (hπ : π ∉ [DevPart.flash]) : (Dev.flashAbort d).get π = d.get π := by
  simp at hπ
  unfold Dev.flashAbort; simp [hπ]
@[simp] theorem Dev.cflDoorbell_frame (d : Dev) (v : Nat) {π : DevPart}
    (hπ : π ∉ [DevPart.flash]) : (Dev.cflDoorbell d v).get π = d.get π := by
  simp at hπ
  unfold Dev.cflDoorbell; simp [hπ]
@[simp] theorem Dev.flashRows_frame (d : Dev) (b off : Nat) (z1 : Nat) {π : DevPart}
    (hπ : π ∉ [DevPart.ctr]) : (Dev.flashRows d b off z1).2.get π = d.get π := by
  simp at hπ
  induction z1 generalizing d b off <;> unfold Dev.flashRows <;> simp_all
@[simp] theorem Dev.cflTake_frame (d : Dev) {π : DevPart}
    (hπ : π ∉ [DevPart.flash]) : (Dev.cflTake d).get π = d.get π := by
  simp at hπ
  unfold Dev.cflTake; simp [hπ]
@[simp] theorem Dev.cflExec_frame (d : Dev) (op : Nat) {π : DevPart}
    (hπ : π ∉ [DevPart.ctr, .lanes, .cores, .flash]) : (Dev.cflExec d op).get π = d.get π := by
  simp at hπ
  unfold Dev.cflExec
  dsimp only
  (repeat' split) <;> simp [hπ]
@[simp] theorem Dev.rdpSet_frame (d : Dev) (level : Nat) {π : DevPart}
    (hπ : π ∉ [DevPart.flash]) : (Dev.rdpSet d level).get π = d.get π := by
  simp at hπ
  unfold Dev.rdpSet; simp [hπ]
@[simp] theorem Dev.flashWipe_frame (d : Dev) {π : DevPart}
    (hπ : π ∉ [DevPart.flash]) : (Dev.flashWipe d).get π = d.get π := by
  simp at hπ
  unfold Dev.flashWipe; simp [hπ]
@[simp] theorem Dev.loadSettings_frame (d : Dev) {π : DevPart}
    (hπ : π ∉ [DevPart.settings]) : (Dev.loadSettings d).get π = d.get π := by
  simp at hπ
  generalize h : Dev.loadSettings d = r
  unfold Dev.loadSettings at h
  (repeat' split at h) <;> subst h <;> simp [hπ]

end Sys2Proof.Machine
end

