-- ==== Sys2Proof/Laws/FrameDescOps.lean ====
section
/-! SUPPORT. The parts of the device that each operation of Machine/DescOps.lean leaves as they were: all but those named. -/
namespace Sys2Proof.Machine

@[simp] theorem Dev.onStoreQueue_frame (d : Dev) (f : StoreQueue → StoreQueue) {π : DevPart}
    (hπ : π ∉ [DevPart.store]) : (Dev.onStoreQueue d f).get π = d.get π := by
  simp at hπ
  unfold Dev.onStoreQueue; simp [hπ]
@[simp] theorem Dev.storeDoorbell_frame (d : Dev) (tail : Nat) {π : DevPart}
    (hπ : π ∉ [DevPart.store]) : (Dev.storeDoorbell d tail).get π = d.get π := by
  simp at hπ
  unfold Dev.storeDoorbell; simp [hπ]
@[simp] theorem Dev.storeComplete_frame (d : Dev) (o : StoreOp) {π : DevPart}
    (hπ : π ∉ [DevPart.store, .cores]) : (Dev.storeComplete d o).get π = d.get π := by
  simp at hπ
  unfold Dev.storeComplete; simp [hπ]
@[simp] theorem Dev.storeExec_frame (d : Dev) (machine : Bool) (act : StoreOp → Dev → StoreOp × Dev) {π : DevPart} (hf : ∀ y0
    y1, (act y0 y1).2.get π = y1.get π)
    (hπ : π ∉ [DevPart.store, .cores]) : (Dev.storeExec d machine act).get π = d.get π := by
  simp at hπ
  unfold Dev.storeExec
  dsimp only
  (repeat' split) <;> simp [hπ, hf]
@[simp] theorem storeActRead_frame (o : StoreOp) (d : Dev) {π : DevPart}
    (hπ : π ∉ [DevPart.store]) : (storeActRead o d).2.get π = d.get π := by
  simp at hπ
  unfold storeActRead; simp [hπ]
@[simp] theorem storeActProgram_frame (data : List Byte) (ok : Bool) (o : StoreOp) (d : Dev) {π : DevPart}
    (hπ : π ∉ [DevPart.store]) : (storeActProgram data ok o d).2.get π = d.get π := by
  simp at hπ
  unfold storeActProgram; simp [hπ]
@[simp] theorem storeActErase_frame (o : StoreOp) (d : Dev) {π : DevPart}
    (hπ : π ∉ [DevPart.store, .ports, .aon, .log, .out]) : (storeActErase o d).2.get π = d.get π := by
  simp at hπ
  unfold storeActErase; simp [hπ]
@[simp] theorem storeActAppend_frame (data : List Byte) (ok : Bool) (o : StoreOp) (d : Dev) {π : DevPart}
    (hπ : π ∉ [DevPart.store]) : (storeActAppend data ok o d).2.get π = d.get π := by
  simp at hπ
  unfold storeActAppend; simp [hπ]
@[simp] theorem storeActPin_frame (o : StoreOp) (d : Dev) {π : DevPart}
    (hπ : π ∉ [DevPart.store]) : (storeActPin o d).2.get π = d.get π := by
  simp at hπ
  unfold storeActPin; simp [hπ]
@[simp] theorem storeActUnpin_frame (o : StoreOp) (d : Dev) {π : DevPart}
    (hπ : π ∉ [DevPart.store]) : (storeActUnpin o d).2.get π = d.get π := by
  simp at hπ
  unfold storeActUnpin; simp [hπ]
@[simp] theorem Dev.readUnpin_frame (d : Dev) (b : Nat) {π : DevPart}
    (hπ : π ∉ [DevPart.store, .aon, .log, .out, .ports]) : (Dev.readUnpin d b).get π = d.get π := by
  simp at hπ
  unfold Dev.readUnpin; simp [hπ]
@[simp] theorem Dev.readEnd_frame (d : Dev) (o : StoreOp) (bad : Option Nat) (hostOk : Bool) {π : DevPart}
    (hπ : π ∉ [DevPart.store, .cores, .out, .aon, .log, .ports]) : (Dev.readEnd d o bad hostOk).2.get π = d.get π := by
  simp at hπ
  unfold Dev.readEnd; simp [hπ]
@[simp] theorem Dev.storeDescComplete_frame (d : Dev) (i : Nat) (bad : Option Nat) (hostOk : Bool) {π : DevPart}
    (hπ : π ∉ [DevPart.store, .cores, .out, .aon, .log, .ports]) : (Dev.storeDescComplete d i bad hostOk).get π = d.get π := by
  simp at hπ
  generalize h : Dev.storeDescComplete d i bad hostOk = r
  unfold Dev.storeDescComplete at h
  (repeat' split at h) <;> subst h <;> simp [hπ]
@[simp] theorem Dev.trigRearm_frame (d : Dev) (line : Nat) {π : DevPart}
    (hπ : π ∉ [DevPart.store]) : (Dev.trigRearm d line).get π = d.get π := by
  simp at hπ
  unfold Dev.trigRearm; simp [hπ]
@[simp] theorem Dev.trigPop_frame (d : Dev) {π : DevPart}
    (hπ : π ∉ [DevPart.store]) : (Dev.trigPop d).get π = d.get π := by
  simp at hπ
  generalize h : Dev.trigPop d = r
  unfold Dev.trigPop at h
  (repeat' split at h) <;> subst h <;> simp [hπ]
@[simp] theorem Dev.trainDone_frame (d : Dev) (channels : Nat) (ok : Bool) {π : DevPart}
    (hπ : π ∉ [DevPart.ctr, .staging, .rng]) : (Dev.trainDone d channels ok).get π = d.get π := by
  simp at hπ
  unfold Dev.trainDone; simp [hπ]
@[simp] theorem Dev.drainDone_frame (d : Dev) {π : DevPart}
    (hπ : π ∉ [DevPart.lanes, .staging]) : (Dev.drainDone d).get π = d.get π := by
  simp at hπ
  unfold Dev.drainDone; simp [hπ]
@[simp] theorem Dev.dieSilent_frame (d : Dev) (die : Nat) {π : DevPart}
    (hπ : π ∉ [DevPart.store]) : (Dev.dieSilent d die).get π = d.get π := by
  simp at hπ
  unfold Dev.dieSilent; simp [hπ]

end Sys2Proof.Machine
end

