-- ==== Sys2Proof/Laws/FrameExportOps.lean ====
section
/-! SUPPORT. The parts of the device that each operation of Machine/ExportOps.lean leaves as they were: all but those named. -/
namespace Sys2Proof.Machine

@[simp] theorem Dev.readPin_frame (d : Dev) (b : Nat) {π : DevPart}
    (hπ : π ∉ [DevPart.store]) : (Dev.readPin d b).get π = d.get π := by
  simp at hπ
  unfold Dev.readPin; simp [hπ]
@[simp] theorem Dev.onExport_frame (d : Dev) (p i : Nat) (f : Export → Export) {π : DevPart}
    (hπ : π ∉ [DevPart.exports]) : (Dev.onExport d p i f).get π = d.get π := by
  simp at hπ
  unfold Dev.onExport; simp [hπ]
@[simp] theorem Dev.exportEnd_frame (d : Dev) (e : Export) {π : DevPart}
    (hπ : π ∉ [DevPart.store, .ports, .exports, .aon, .log, .out]) : (Dev.exportEnd d e).get π = d.get π := by
  simp at hπ
  generalize h : Dev.exportEnd d e = r
  unfold Dev.exportEnd at h
  (repeat' split at h) <;> subst h <;> simp [hπ]
@[simp] theorem Dev.exportSent_frame (d : Dev) (e : Export) {π : DevPart}
    (hπ : π ∉ [DevPart.aon, .exports, .log, .out, .ports, .store]) : (Dev.exportSent d e).get π = d.get π := by
  simp at hπ
  unfold Dev.exportSent
  dsimp only
  (repeat' split) <;> simp [hπ]
@[simp] theorem Dev.exportStep_frame (d : Dev) (e : Export) {π : DevPart}
    (hπ : π ∉ [DevPart.store, .ports, .exports, .out, .aon, .log]) : (Dev.exportStep d e).get π = d.get π := by
  simp at hπ
  generalize h : Dev.exportStep d e = r
  unfold Dev.exportStep at h
  (repeat' split at h) <;> subst h <;> simp [hπ]
@[simp] theorem Dev.exportPump_frame (d : Dev) (p i z1 : Nat) {π : DevPart}
    (hπ : π ∉ [DevPart.store, .ports, .exports, .out, .aon, .log]) : (Dev.exportPump d p i z1).get π = d.get π := by
  simp at hπ
  induction z1 generalizing d p i <;> unfold Dev.exportPump <;> (repeat' split) <;> simp [*]
@[simp] theorem Dev.exportGo_frame (d : Dev) (p i : Nat) {π : DevPart}
    (hπ : π ∉ [DevPart.store, .ports, .exports, .out, .aon, .log]) : (Dev.exportGo d p i).get π = d.get π := by
  simp at hπ
  generalize h : Dev.exportGo d p i = r
  unfold Dev.exportGo at h
  (repeat' split at h) <;> subst h <;> simp [hπ]
@[simp] theorem Dev.exportEdge_frame (d : Dev) {π : DevPart}
    (hπ : π ∉ [DevPart.aon, .exports, .log, .out, .ports, .store]) : (Dev.exportEdge d).get π = d.get π := by
  simp at hπ
  unfold Dev.exportEdge
  refine Dev.get_each _ _ _ fun e p => ?_
  (repeat' split) <;> simp [hπ]
@[simp] theorem Dev.exportTimeout_frame (d : Dev) (p i : Nat) {π : DevPart}
    (hπ : π ∉ [DevPart.store, .ports, .exports, .out, .aon, .log]) : (Dev.exportTimeout d p i).get π = d.get π := by
  simp at hπ
  generalize h : Dev.exportTimeout d p i = r
  unfold Dev.exportTimeout at h
  (repeat' split at h) <;> subst h <;> simp [hπ]

end Sys2Proof.Machine
end

