-- ==== Sys2Proof/Laws/FrameSessionOps.lean ====
section
/-! SUPPORT. The parts of the device that each operation of Machine/SessionOps.lean leaves as they were: all but those named. -/
namespace Sys2Proof.Machine

@[simp] theorem Dev.orphan_frame (d : Dev) (p i : Nat) {π : DevPart}
    (hπ : π ∉ [DevPart.receipts, .ports, .portsCfg, .waits, .keys, .rng, .life, .field, .out]) : (Dev.orphan d p i).get π =
    d.get π := by
  simp at hπ
  unfold Dev.orphan; simp [hπ]
@[simp] theorem Dev.dropShadow_frame (d : Dev) (p i : Nat) {π : DevPart}
    (hπ : π ∉ [DevPart.settings]) : (Dev.dropShadow d p i).get π = d.get π := by
  simp at hπ
  generalize h : Dev.dropShadow d p i = r
  unfold Dev.dropShadow at h
  (repeat' split at h) <;> subst h <;> simp [hπ]
@[simp] theorem Dev.endSession_frame (d : Dev) (p i : Nat) {π : DevPart}
    (hπ : π ∉ [DevPart.receipts, .store, .ports, .portsCfg, .waits, .exports, .keys, .rng, .log, .life, .settings, .field, .out, .aon]) : (Dev.endSession d p i).get π = d.get π := by
  simp at hπ
  unfold Dev.endSession
  dsimp only
  (repeat' split) <;> simp [hπ]
@[simp] theorem Dev.endPort_frame (d : Dev) (p : Nat) {π : DevPart}
    (hπ : π ∉ [DevPart.receipts, .store, .ports, .portsCfg, .waits, .exports, .keys, .rng, .log, .life, .settings, .field, .out, .aon]) : (Dev.endPort d p).get π = d.get π := by
  simp at hπ
  unfold Dev.endPort; simp [hπ]
@[simp] theorem Dev.endSessions_frame (d : Dev) {π : DevPart}
    (hπ : π ∉ [DevPart.receipts, .store, .ports, .portsCfg, .waits, .exports, .keys, .rng, .log, .life, .settings, .field, .out, .aon]) : (Dev.endSessions d).get π = d.get π := by
  simp at hπ
  unfold Dev.endSessions; simp [hπ]
@[simp] theorem Dev.mbxErr_frame (d : Dev) (p n : Nat) {π : DevPart}
    (hπ : π ∉ [DevPart.ports]) : (Dev.mbxErr d p n).get π = d.get π := by
  simp at hπ
  unfold Dev.mbxErr; simp [hπ]
@[simp] theorem Dev.authFail_frame (d : Dev) (p i role : Nat) {π : DevPart}
    (hπ : π ∉ [DevPart.receipts, .store, .ports, .portsCfg, .waits, .exports, .keys, .rng, .aon, .log, .life, .settings,
    .field, .out]) : (Dev.authFail d p i role).get π = d.get π := by
  simp at hπ
  unfold Dev.authFail; simp [hπ]
@[simp] theorem Dev.challenge_frame (d : Dev) (p i : Nat) (hello : List Byte) {π : DevPart}
    (hπ : π ∉ [DevPart.ctr, .ports, .rng]) : (Dev.challenge d p i hello).2.get π = d.get π := by
  simp at hπ
  unfold Dev.challenge; simp [hπ]
@[simp] theorem Dev.grant_frame (d : Dev) (p i : Nat) {π : DevPart}
    (hπ : π ∉ [DevPart.ctr, .ports, .rng]) : (Dev.grant d p i).2.get π = d.get π := by
  simp at hπ
  unfold Dev.grant; simp [hπ]
@[simp] theorem Dev.touch_frame (d : Dev) (p i : Nat) {π : DevPart}
    (hπ : π ∉ [DevPart.ports]) : (Dev.touch d p i).get π = d.get π := by
  simp at hπ
  unfold Dev.touch; simp [hπ]
@[simp] theorem Dev.onPorts_frame (d : Dev) (f : PortsCfg → PortsCfg) {π : DevPart}
    (hπ : π ∉ [DevPart.portsCfg]) : (Dev.onPorts d f).get π = d.get π := by
  simp at hπ
  unfold Dev.onPorts; simp [hπ]
@[simp] theorem Dev.answerShape_frame (d : Dev) (p s : Nat) {π : DevPart}
    (hπ : π ∉ [DevPart.ports, .out]) : (Dev.answerShape d p s).get π = d.get π := by
  simp at hπ
  unfold Dev.answerShape
  dsimp only
  (repeat' split) <;> simp [hπ]
@[simp] theorem Dev.answerShapes_frame (d : Dev) {π : DevPart}
    (hπ : π ∉ [DevPart.ports, .portsCfg, .out]) : (Dev.answerShapes d).get π = d.get π := by
  simp at hπ
  unfold Dev.answerShapes; simp [hπ]
@[simp] theorem Dev.arriveReq_frame (d : Dev) (p s : Nat) {π : DevPart}
    (hπ : π ∉ [DevPart.ports, .portsCfg, .out]) : (Dev.arriveReq d p s).get π = d.get π := by
  simp at hπ
  unfold Dev.arriveReq; simp [hπ]
@[simp] theorem Dev.doorbellFails_frame (d : Dev) (p s tag : Nat) (st : Status) {π : DevPart}
    (hπ : π ∉ [DevPart.out, .ports]) : (Dev.doorbellFails d p s tag st).get π = d.get π := by
  simp at hπ
  unfold Dev.doorbellFails; simp [hπ]
@[simp] theorem Dev.doorbell_frame (d : Dev) (p s len tag : Nat) {π : DevPart}
    (hπ : π ∉ [DevPart.ports, .portsCfg, .out]) : (Dev.doorbell d p s len tag).get π = d.get π := by
  simp at hπ
  unfold Dev.doorbell; simp [hπ]
@[simp] theorem Dev.attention_frame (d : Dev) {π : DevPart}
    (hπ : π ∉ [DevPart.store, .out]) : (Dev.attention d).get π = d.get π := by
  simp at hπ
  unfold Dev.attention; simp [hπ]
@[simp] theorem Dev.slotAck_frame (d : Dev) (p s : Nat) {π : DevPart}
    (hπ : π ∉ [DevPart.store, .ports, .out]) : (Dev.slotAck d p s).get π = d.get π := by
  simp at hπ
  unfold Dev.slotAck; simp [hπ]
@[simp] theorem Dev.noticeHead_frame (d : Dev) (p v : Nat) {π : DevPart}
    (hπ : π ∉ [DevPart.store, .ports, .out]) : (Dev.noticeHead d p v).get π = d.get π := by
  simp at hπ
  unfold Dev.noticeHead; simp [hπ]
@[simp] theorem Dev.dropUdp_frame (d : Dev) (p : Nat) {π : DevPart}
    (hπ : π ∉ [DevPart.ports]) : (Dev.dropUdp d p).get π = d.get π := by
  simp at hπ
  unfold Dev.dropUdp; simp [hπ]
@[simp] theorem Dev.rejectUdp_frame (d : Dev) (p sid : Nat) (st : Status) {π : DevPart}
    (hπ : π ∉ [DevPart.out]) : (Dev.rejectUdp d p sid st).get π = d.get π := by
  simp at hπ
  unfold Dev.rejectUdp; simp [hπ]
@[simp] theorem Dev.fragment_frame (d : Dev) (p i : Nat) (b text : List Byte) {π : DevPart}
    (hπ : π ∉ [DevPart.ports]) : (Dev.fragment d p i b text).2.get π = d.get π := by
  simp at hπ
  unfold Dev.fragment; simp [hπ]
@[simp] theorem Dev.helloFragment_frame (d : Dev) (p : Nat) (b : List Byte) {π : DevPart}
    (hπ : π ∉ [DevPart.ports]) : (Dev.helloFragment d p b).2.get π = d.get π := by
  simp at hπ
  unfold Dev.helloFragment; simp [hπ]
@[simp] theorem Dev.udpHello_frame (d : Dev) (p : Nat) (body : List Byte) {π : DevPart}
    (hπ : π ∉ [DevPart.ctr, .ports, .rng, .out]) : (Dev.udpHello d p body).get π = d.get π := by
  simp at hπ
  unfold Dev.udpHello
  dsimp only
  (repeat' split) <;> simp [hπ]
@[simp] theorem Dev.udpProve_frame (d : Dev) (p i : Nat) (body : List Byte) {π : DevPart}
    (hπ : π ∉ [DevPart.ctr, .receipts, .store, .ports, .portsCfg, .waits, .exports, .keys, .rng, .aon, .log, .life, .settings,
    .field, .out]) : (Dev.udpProve d p i body).get π = d.get π := by
  simp at hπ
  unfold Dev.udpProve; simp [hπ]
@[simp] theorem Dev.udpRequest_frame (d : Dev) (p i seq : Nat) (frame : List Byte) {π : DevPart}
    (hπ : π ∉ [DevPart.ports, .portsCfg, .out]) : (Dev.udpRequest d p i seq frame).get π = d.get π := by
  simp at hπ
  unfold Dev.udpRequest; simp [hπ]
@[simp] theorem Dev.udpAck_frame (d : Dev) (p i typ seq : Nat) {π : DevPart}
    (hπ : π ∉ [DevPart.store, .ports, .exports, .out, .aon, .log]) : (Dev.udpAck d p i typ seq).get π = d.get π := by
  simp at hπ
  unfold Dev.udpAck
  dsimp only
  (repeat' split) <;> simp [hπ]
@[simp] theorem Dev.udpMessage_frame (d : Dev) (p i typ seq : Nat) (m : List Byte) {π : DevPart}
    (hπ : π ∉ [DevPart.ctr, .receipts, .store, .ports, .portsCfg, .waits, .exports, .keys, .rng, .aon, .log, .life, .settings,
    .field, .out]) : (Dev.udpMessage d p i typ seq m).get π = d.get π := by
  simp at hπ
  generalize h : Dev.udpMessage d p i typ seq m = r
  unfold Dev.udpMessage at h
  (repeat' split at h) <;> subst h <;> simp [hπ]
@[simp] theorem Dev.udpHandshake_frame (d : Dev) (p : Nat) (b : List Byte) {π : DevPart}
    (hπ : π ∉ [DevPart.ctr, .receipts, .store, .ports, .portsCfg, .waits, .exports, .keys, .rng, .aon, .log, .life, .settings,
    .field, .out]) : (Dev.udpHandshake d p b).get π = d.get π := by
  simp at hπ
  unfold Dev.udpHandshake
  dsimp only
  (repeat' split) <;> simp [hπ]
@[simp] theorem Dev.udpEncrypted_frame (d : Dev) (p : Nat) (b : List Byte) {π : DevPart}
    (hπ : π ∉ [DevPart.ctr, .receipts, .store, .ports, .portsCfg, .waits, .exports, .keys, .rng, .aon, .log, .life, .settings,
    .field, .out]) : (Dev.udpEncrypted d p b).get π = d.get π := by
  simp at hπ
  unfold Dev.udpEncrypted
  dsimp only
  (repeat' split) <;> simp [hπ]
@[simp] theorem Dev.ethUp_frame (d : Dev) (p : Nat) {π : DevPart}
    (hπ : π ∉ [DevPart.ports]) : (Dev.ethUp d p).get π = d.get π := by
  simp at hπ
  unfold Dev.ethUp; simp [hπ]
@[simp] theorem Dev.datagram_frame (d : Dev) (p typ : Nat) (b : List Byte) {π : DevPart}
    (hπ : π ∉ [DevPart.ctr, .receipts, .store, .ports, .portsCfg, .waits, .exports, .keys, .rng, .aon, .log, .life, .settings,
    .field, .out]) : (Dev.datagram d p typ b).get π = d.get π := by
  simp at hπ
  unfold Dev.datagram
  (repeat' split) <;> simp [hπ]
@[simp] theorem Dev.reasmExpiry_frame (d : Dev) (p i : Nat) {π : DevPart}
    (hπ : π ∉ [DevPart.ports]) : (Dev.reasmExpiry d p i).get π = d.get π := by
  simp at hπ
  unfold Dev.reasmExpiry; simp [hπ]
@[simp] theorem Dev.noticeDropped_frame (d : Dev) (p : Nat) {π : DevPart}
    (hπ : π ∉ [DevPart.ports, .aon, .log, .out]) : (Dev.noticeDropped d p).get π = d.get π := by
  simp at hπ
  unfold Dev.noticeDropped; simp [hπ]
@[simp] theorem Dev.retxExpiry_frame (d : Dev) (p i : Nat) {π : DevPart}
    (hπ : π ∉ [DevPart.store, .ports, .exports, .aon, .log, .out]) : (Dev.retxExpiry d p i).get π = d.get π := by
  simp at hπ
  generalize h : Dev.retxExpiry d p i = r
  unfold Dev.retxExpiry at h
  (repeat' split at h) <;> subst h <;> simp [hπ]
@[simp] theorem Dev.challengeExpiry_frame (d : Dev) (p i : Nat) {π : DevPart}
    (hπ : π ∉ [DevPart.receipts, .store, .ports, .portsCfg, .waits, .exports, .keys, .rng, .aon, .log, .life, .settings,
    .field, .out]) : (Dev.challengeExpiry d p i).get π = d.get π := by
  simp at hπ
  unfold Dev.challengeExpiry; simp [hπ]
@[simp] theorem Dev.lockoutEnd_frame (d : Dev) (p : Nat) {π : DevPart}
    (hπ : π ∉ [DevPart.ports]) : (Dev.lockoutEnd d p).get π = d.get π := by
  simp at hπ
  generalize h : Dev.lockoutEnd d p = r
  unfold Dev.lockoutEnd at h
  (repeat' split at h) <;> subst h <;> simp [hπ]
@[simp] theorem Dev.idleExpiry_frame (d : Dev) (p i : Nat) {π : DevPart}
    (hπ : π ∉ [DevPart.receipts, .store, .ports, .portsCfg, .waits, .exports, .keys, .rng, .log, .life, .settings, .field, .out, .aon]) : (Dev.idleExpiry d p i).get π = d.get π := by
  simp at hπ
  generalize h : Dev.idleExpiry d p i = r
  unfold Dev.idleExpiry at h
  (repeat' split at h) <;> subst h <;> simp [hπ]
@[simp] theorem Dev.onOwned_frame (d : Dev) (p : Nat) (f : RingPair → RingPair) {π : DevPart}
    (hπ : π ∉ [DevPart.lanes]) : (Dev.onOwned d p f).get π = d.get π := by
  simp at hπ
  unfold Dev.onOwned; simp [hπ]
@[simp] theorem Dev.pcieReset_frame (d : Dev) (p : Nat) (down : Bool) (rate width : Nat) {π : DevPart}
    (hπ : π ∉ [DevPart.lanes, .receipts, .store, .ports, .portsCfg, .waits, .exports, .keys, .rng, .log, .life, .settings, .field, .out, .aon]) : (Dev.pcieReset d p down rate width).get π = d.get π := by
  simp at hπ
  unfold Dev.pcieReset
  dsimp only
  (repeat' split) <;> simp [hπ]
@[simp] theorem Dev.pcieD3_frame (d : Dev) (p : Nat) {π : DevPart}
    (hπ : π ∉ [DevPart.lanes, .ports]) : (Dev.pcieD3 d p).get π = d.get π := by
  simp at hπ
  unfold Dev.pcieD3; simp [hπ]
@[simp] theorem Dev.pcieD0_frame (d : Dev) (p : Nat) {π : DevPart}
    (hπ : π ∉ [DevPart.lanes, .ports, .out]) : (Dev.pcieD0 d p).get π = d.get π := by
  simp at hπ
  unfold Dev.pcieD0
  split
  · rfl
  · refine (Dev.get_each _ _ _ ?_).trans (by simp [hπ])
    intro d s
    (repeat' split) <;> simp [hπ]
@[simp] theorem Dev.ethDown_frame (d : Dev) (p : Nat) {π : DevPart}
    (hπ : π ∉ [DevPart.receipts, .store, .ports, .portsCfg, .waits, .exports, .keys, .rng, .log, .life, .settings, .field, .out, .aon]) : (Dev.ethDown d p).get π = d.get π := by
  simp at hπ
  unfold Dev.ethDown; simp [hπ]

end Sys2Proof.Machine
end

