-- ==== Sys2Proof/Laws/FrameTimeOps.lean ====
section
/-! SUPPORT. The parts of the device that each operation of Machine/TimeOps.lean leaves as they were: all but those named. -/
namespace Sys2Proof.Machine

@[simp] theorem Dev.onServo_frame (d : Dev) (f : Servo → Servo) {π : DevPart}
    (hπ : π ∉ [DevPart.time]) : (Dev.onServo d f).get π = d.get π := by
  simp at hπ
  unfold Dev.onServo; simp [hπ]
@[simp] theorem Dev.onAonTime_frame (d : Dev) (f : AonTime → AonTime) {π : DevPart}
    (hπ : π ∉ [DevPart.time]) : (Dev.onAonTime d f).get π = d.get π := by
  simp at hπ
  unfold Dev.onAonTime; simp [hπ]
@[simp] theorem Dev.timeErr_frame (d : Dev) (n : Nat) {π : DevPart}
    (hπ : π ∉ [DevPart.time]) : (Dev.timeErr d n).get π = d.get π := by
  simp at hπ
  unfold Dev.timeErr; simp [hπ]
@[simp] theorem Dev.refreshBound_frame (d : Dev) {π : DevPart}
    (hπ : π ∉ [DevPart.time]) : (Dev.refreshBound d).get π = d.get π := by
  simp at hπ
  unfold Dev.refreshBound; simp [hπ]
@[simp] theorem Dev.enterLocked_frame (d : Dev) {π : DevPart}
    (hπ : π ∉ [DevPart.time]) : (Dev.enterLocked d).get π = d.get π := by
  simp at hπ
  unfold Dev.enterLocked; simp [hπ]
@[simp] theorem Dev.enterAcquire_frame (d : Dev) {π : DevPart}
    (hπ : π ∉ [DevPart.time]) : (Dev.enterAcquire d).get π = d.get π := by
  simp at hπ
  unfold Dev.enterAcquire; simp [hπ]
@[simp] theorem Dev.setRate_frame (d : Dev) (r : Int) {π : DevPart}
    (hπ : π ∉ [DevPart.time]) : (Dev.setRate d r).get π = d.get π := by
  simp at hπ
  unfold Dev.setRate; simp [hπ]
@[simp] theorem Dev.enterHoldover_frame (d : Dev) (src : Nat) {π : DevPart}
    (hπ : π ∉ [DevPart.ctr, .time, .ports, .aon, .log, .out]) : (Dev.enterHoldover d src).get π = d.get π := by
  simp at hπ
  unfold Dev.enterHoldover; simp [hπ]
@[simp] theorem Dev.correct_frame (d : Dev) (src : Nat) (o : Int) {π : DevPart}
    (hπ : π ∉ [DevPart.time, .ports, .aon, .log, .out]) : (Dev.correct d src o).2.get π = d.get π := by
  simp at hπ
  unfold Dev.correct; simp [hπ]
@[simp] theorem Dev.countMeasure_frame (d : Dev) (src : Nat) (ns : Int) (pending : Bool) {π : DevPart}
    (hπ : π ∉ [DevPart.time]) : (Dev.countMeasure d src ns pending).get π = d.get π := by
  simp at hπ
  unfold Dev.countMeasure
  dsimp only
  (repeat' split) <;> simp [hπ]
@[simp] theorem Dev.noteSource_frame (d : Dev) (src : Nat) {π : DevPart}
    (hπ : π ∉ [DevPart.time]) : (Dev.noteSource d src).get π = d.get π := by
  simp at hπ
  unfold Dev.noteSource; simp [hπ]
@[simp] theorem Dev.noteOffset_frame (d : Dev) (src : Nat) (o : Int) {π : DevPart}
    (hπ : π ∉ [DevPart.time]) : (Dev.noteOffset d src o).get π = d.get π := by
  simp at hπ
  unfold Dev.noteOffset; simp [hπ]
@[simp] theorem Dev.measure_frame (d : Dev) (src : Nat) (o : Int) {π : DevPart}
    (hπ : π ∉ [DevPart.ctr, .time, .ports, .aon, .log, .out]) : (Dev.measure d src o).2.get π = d.get π := by
  simp at hπ
  unfold Dev.measure
  split
  · rfl
  · extract_lets e1 pending e2 e3 e4 c
    have h1 : e1.get π = d.get π := by simp [e1, hπ]
    split
    · simp [h1, hπ]
    · have h3 : e3.get π = d.get π := by simp only [e3]; split <;> simp [e2, h1, hπ]
      have h4 : e4.get π = d.get π := by simp only [e4]; split <;> simp [h3, hπ]
      simp [c, h4, hπ]
@[simp] theorem Dev.switchSource_frame (d : Dev) (l : Nat) {π : DevPart}
    (hπ : π ∉ [DevPart.time]) : (Dev.switchSource d l).get π = d.get π := by
  simp at hπ
  unfold Dev.switchSource; simp [hπ]
@[simp] theorem Dev.measureIdle_frame (d : Dev) (src : Nat) {π : DevPart}
    (hπ : π ∉ [DevPart.time]) : (Dev.measureIdle d src).get π = d.get π := by
  simp at hπ
  unfold Dev.measureIdle; simp [hπ]
@[simp] theorem Dev.timeLoad_frame (d : Dev) (value bound : Nat) (measured : Bool) {π : DevPart}
    (hπ : π ∉ [DevPart.ctr, .time]) : (Dev.timeLoad d value bound measured).get π = d.get π := by
  simp at hπ
  unfold Dev.timeLoad; simp [hπ]
@[simp] theorem Dev.timeLoadDefault_frame (d : Dev) {π : DevPart}
    (hπ : π ∉ [DevPart.ctr, .time]) : (Dev.timeLoadDefault d).get π = d.get π := by
  simp at hπ
  unfold Dev.timeLoadDefault; simp [hπ]
@[simp] theorem Dev.timeStart_frame (d : Dev) {π : DevPart}
    (hπ : π ∉ [DevPart.ctr, .time]) : (Dev.timeStart d).get π = d.get π := by
  simp at hπ
  unfold Dev.timeStart; simp [hπ]
@[simp] theorem Dev.timeLoadMeasured_frame (d : Dev) (src : Nat) (o : Int) {π : DevPart}
    (hπ : π ∉ [DevPart.ctr, .time]) : (Dev.timeLoadMeasured d src o).get π = d.get π := by
  simp at hπ
  unfold Dev.timeLoadMeasured; simp [hπ]
@[simp] theorem Dev.takeMeasure_frame (d : Dev) (src : Nat) (o : Int) {π : DevPart}
    (hπ : π ∉ [DevPart.ctr, .time, .ports, .aon, .log, .out]) : (Dev.takeMeasure d src o).2.get π = d.get π := by
  simp at hπ
  generalize h : Dev.takeMeasure d src o = r
  unfold Dev.takeMeasure at h
  (repeat' split at h) <;> subst h <;> simp [hπ]
@[simp] theorem Dev.breakRun_frame (d : Dev) (src : Nat) {π : DevPart}
    (hπ : π ∉ [DevPart.time]) : (Dev.breakRun d src).get π = d.get π := by
  simp at hπ
  unfold Dev.breakRun; simp [hπ]
@[simp] theorem Dev.ppsEdge_frame (d : Dev) {π : DevPart}
    (hπ : π ∉ [DevPart.ctr, .time, .ports, .aon, .log, .out]) : (Dev.ppsEdge d).2.get π = d.get π := by
  simp at hπ
  unfold Dev.ppsEdge; simp [hπ]
@[simp] theorem Dev.measSubmit_frame (d : Dev) (hi : Word) {π : DevPart}
    (hπ : π ∉ [DevPart.ctr, .time, .ports, .aon, .log, .out]) : (Dev.measSubmit d hi).2.get π = d.get π := by
  simp at hπ
  generalize h : Dev.measSubmit d hi = r
  unfold Dev.measSubmit at h
  (repeat' split at h) <;> subst h <;> simp [hπ]
@[simp] theorem Dev.measManual_frame (d : Dev) (o : Int) {π : DevPart}
    (hπ : π ∉ [DevPart.ctr, .time, .ports, .aon, .log, .out]) : (Dev.measManual d o).2.get π = d.get π := by
  simp at hπ
  unfold Dev.measManual; simp [hπ]
@[simp] theorem Dev.refTimeout_frame (d : Dev) {π : DevPart}
    (hπ : π ∉ [DevPart.ctr, .time, .ports, .aon, .log, .out]) : (Dev.refTimeout d).get π = d.get π := by
  simp at hπ
  unfold Dev.refTimeout
  dsimp only
  (repeat' split) <;> simp [hπ]
@[simp] theorem Dev.slewDone_frame (d : Dev) {π : DevPart}
    (hπ : π ∉ [DevPart.time]) : (Dev.slewDone d).get π = d.get π := by
  simp at hπ
  unfold Dev.slewDone; simp [hπ]
@[simp] theorem Dev.labelArm_frame (d : Dev) {π : DevPart}
    (hπ : π ∉ [DevPart.time]) : (Dev.labelArm d).get π = d.get π := by
  simp at hπ
  unfold Dev.labelArm; simp [hπ]
@[simp] theorem Dev.forceHold_frame (d : Dev) (on : Bool) {π : DevPart}
    (hπ : π ∉ [DevPart.ctr, .time, .ports, .aon, .log, .out]) : (Dev.forceHold d on).get π = d.get π := by
  simp at hπ
  unfold Dev.forceHold
  dsimp only
  (repeat' split) <;> simp [hπ]
@[simp] theorem Dev.compensate_frame (d : Dev) (temp : Int) {π : DevPart}
    (hπ : π ∉ [DevPart.time, .ctr]) : (Dev.compensate d temp).get π = d.get π := by
  simp at hπ
  unfold Dev.compensate; simp [hπ]
@[simp] theorem Dev.trimWindow_frame (d : Dev) {π : DevPart}
    (hπ : π ∉ [DevPart.time]) : (Dev.trimWindow d).get π = d.get π := by
  simp at hπ
  unfold Dev.trimWindow
  split
  · split <;> simp [hπ]
  · rfl
@[simp] theorem Dev.putRow_frame (d : Dev) (row : CounterRow) {π : DevPart}
    (hπ : π ∉ [DevPart.time, .ports, .aon, .log, .out]) : (Dev.putRow d row).get π = d.get π := by
  simp at hπ
  unfold Dev.putRow; simp [hπ]
@[simp] theorem Dev.checkpoint_frame (d : Dev) (ok : Bool) {π : DevPart}
    (hπ : π ∉ [DevPart.time, .ports, .aon, .log, .out]) : (Dev.checkpoint d ok).get π = d.get π := by
  simp at hπ
  unfold Dev.checkpoint; simp [hπ]
@[simp] theorem Dev.checkpointTries_frame (d : Dev) (n : Nat) {π : DevPart}
    (hπ : π ∉ [DevPart.time, .ports, .aon, .log, .out, .ctr]) : (Dev.checkpointTries d n).get π = d.get π := by
  simp at hπ
  induction n generalizing d with
  | zero => rfl
  | succ n ih =>
    unfold Dev.checkpointTries
    dsimp only
    split <;> simp [hπ, ih]
@[simp] theorem Dev.newPowerCycle_frame (d : Dev) {π : DevPart}
    (hπ : π ∉ [DevPart.time, .ports, .aon, .log, .out]) : (Dev.newPowerCycle d).get π = d.get π := by
  simp at hπ
  unfold Dev.newPowerCycle; simp [hπ]
@[simp] theorem Dev.powerCycleFails_frame (d : Dev) {π : DevPart}
    (hπ : π ∉ [DevPart.time, .ports, .aon, .log, .out]) : (Dev.powerCycleFails d).get π = d.get π := by
  simp at hπ
  unfold Dev.powerCycleFails; simp [hπ]
@[simp] theorem Dev.alarmFire_frame (d : Dev) (n : Nat) {π : DevPart}
    (hπ : π ∉ [DevPart.time]) : (Dev.alarmFire d n).get π = d.get π := by
  simp at hπ
  unfold Dev.alarmFire; simp [hπ]
@[simp] theorem Dev.timeStop_frame (d : Dev) {π : DevPart}
    (hπ : π ∉ [DevPart.time]) : (Dev.timeStop d).get π = d.get π := by
  simp at hπ
  unfold Dev.timeStop; simp [hπ]

end Sys2Proof.Machine
end

