-- ==== Sys2Proof/Laws/FrameWagOps.lean ====
section
/-! SUPPORT. The parts of the device that each operation of Machine/WagOps.lean leaves as they were: all but those named. -/
namespace Sys2Proof.Machine

@[simp] theorem Dev.onWag_frame (d : Dev) (f : Wag → Wag) {π : DevPart}
    (hπ : π ∉ [DevPart.wag]) : (Dev.onWag d f).get π = d.get π := by
  simp at hπ
  unfold Dev.onWag; simp [hπ]
@[simp] theorem Dev.onEp_frame (d : Dev) (c : Nat) (f : WagEp → WagEp) {π : DevPart}
    (hπ : π ∉ [DevPart.wagEps]) : (Dev.onEp d c f).get π = d.get π := by
  simp at hπ
  unfold Dev.onEp; simp [hπ]
@[simp] theorem Dev.wagRequest_frame (d : Dev) (op : WagOp) {π : DevPart}
    (hπ : π ∉ [DevPart.wag]) : (Dev.wagRequest d op).get π = d.get π := by
  simp at hπ
  unfold Dev.wagRequest; simp [hπ]
@[simp] theorem Dev.resetEndpoint_frame (d : Dev) (e : Nat) {π : DevPart}
    (hπ : π ∉ [DevPart.ctr, .lanes, .hive, .receipts, .wag, .wagEps, .store, .staging, .power, .close, .ports, .tiles, .aon, .log, .cores, .out]) : (Dev.resetEndpoint d e).get π = d.get π := by
  simp at hπ
  unfold Dev.resetEndpoint
  (repeat' split) <;> simp [hπ]
@[simp] theorem Dev.wagEdge_frame (d : Dev) (f : Flight) {π : DevPart}
    (hπ : π ∉ [DevPart.ctr, .lanes, .hive, .receipts, .wag, .wagEps, .store, .staging, .power, .close, .ports, .tiles, .aon, .log, .cores, .out]) : (Dev.wagEdge d f).get π = d.get π := by
  simp at hπ
  unfold Dev.wagEdge
  (repeat' split) <;> simp [hπ]
@[simp] theorem Dev.wagEdges_frame (d : Dev) {π : DevPart}
    (hπ : π ∉ [DevPart.ctr, .lanes, .hive, .receipts, .wag, .wagEps, .store, .staging, .power, .close, .ports, .tiles, .aon, .log, .cores, .out]) : (Dev.wagEdges d).get π = d.get π := by
  simp at hπ
  unfold Dev.wagEdges
  simp [hπ]
@[simp] theorem Dev.captures_frame (d : Dev) {π : DevPart}
    (hπ : π ∉ [DevPart.hive]) : (Dev.captures d).get π = d.get π := by
  simp at hπ
  unfold Dev.captures; simp [hπ]
@[simp] theorem Dev.barrierIssue_frame (d : Dev) {π : DevPart}
    (hπ : π ∉ [DevPart.wag]) : (Dev.barrierIssue d).get π = d.get π := by
  simp at hπ
  unfold Dev.barrierIssue; simp [hπ]
@[simp] theorem Dev.wagIssue_frame (d : Dev) {π : DevPart}
    (hπ : π ∉ [DevPart.hive, .receipts, .wag]) : (Dev.wagIssue d).get π = d.get π := by
  simp at hπ
  generalize h : Dev.wagIssue d = r
  unfold Dev.wagIssue at h
  (repeat' split at h) <;> subst h <;> simp [hπ]
@[simp] theorem Dev.snapshotIssue_frame (d : Dev) {π : DevPart}
    (hπ : π ∉ [DevPart.lanes, .hive, .wag, .wagEps]) : (Dev.snapshotIssue d).get π = d.get π := by
  simp at hπ
  unfold Dev.snapshotIssue; simp [hπ]
@[simp] theorem Dev.wagComplete_frame (d : Dev) {π : DevPart}
    (hπ : π ∉ [DevPart.ctr, .lanes, .hive, .receipts, .wag, .wagEps, .store, .staging, .power, .close, .ports, .tiles, .aon, .log, .cores, .out]) : (Dev.wagComplete d).get π = d.get π := by
  simp at hπ
  unfold Dev.wagComplete
  dsimp only
  (repeat' split) <;> simp [hπ]
@[simp] theorem Dev.ackLimit_frame (d : Dev) (ep : Nat) {π : DevPart}
    (hπ : π ∉ [DevPart.hive, .receipts, .wag, .ports, .aon, .log, .out]) : (Dev.ackLimit d ep).get π = d.get π := by
  simp at hπ
  generalize h : Dev.ackLimit d ep = r
  unfold Dev.ackLimit at h
  (repeat' split at h) <;> subst h <;> simp [hπ]
@[simp] theorem Dev.releaseAll_frame (d : Dev) (id : Nat) (timeout : Bool) {π : DevPart}
    (hπ : π ∉ [DevPart.wag, .wagEps]) : (Dev.releaseAll d id timeout).get π = d.get π := by
  simp at hπ
  unfold Dev.releaseAll; simp [hπ]
@[simp] theorem Dev.barrierRelease_frame (d : Dev) {π : DevPart}
    (hπ : π ∉ [DevPart.hive, .receipts, .wag, .wagEps]) : (Dev.barrierRelease d).get π = d.get π := by
  simp at hπ
  generalize h : Dev.barrierRelease d = r
  unfold Dev.barrierRelease at h
  (repeat' split at h) <;> subst h <;> simp [hπ]
@[simp] theorem Dev.barrierTimeout_frame (d : Dev) {π : DevPart}
    (hπ : π ∉ [DevPart.hive, .receipts, .wag, .wagEps]) : (Dev.barrierTimeout d).get π = d.get π := by
  simp at hπ
  generalize h : Dev.barrierTimeout d = r
  unfold Dev.barrierTimeout at h
  (repeat' split at h) <;> subst h <;> simp [hπ]
@[simp] theorem Dev.arrive_frame (d : Dev) (c id : Nat) {π : DevPart}
    (hπ : π ∉ [DevPart.wag, .wagEps]) : (Dev.arrive d c id).get π = d.get π := by
  simp at hπ
  unfold Dev.arrive
  dsimp only
  (repeat' split) <;> simp [hπ]

end Sys2Proof.Machine
end

