-- ==== Sys2Proof/Laws/FrameModeOps.lean ====
section
/-! SUPPORT. The parts of the device that each operation of Machine/ModeOps.lean leaves as they were: all but those named. -/
namespace Sys2Proof.Machine

@[simp] theorem Dev.onDebug_frame (d : Dev) (f : Debug → Debug) {π : DevPart}
    (hπ : π ∉ [DevPart.dbg]) : (Dev.onDebug d f).get π = d.get π := by
  simp at hπ
  unfold Dev.onDebug; simp [hπ]
@[simp] theorem Dev.debugClose_frame (d : Dev) {π : DevPart}
    (hπ : π ∉ [DevPart.hive, .receipts, .wag, .ports, .tiles, .aon, .log, .dbg, .out]) : (Dev.debugClose d).get π = d.get π :=
    by
  simp at hπ
  unfold Dev.debugClose; simp [hπ]
@[simp] theorem Dev.onTimeCfg_frame (d : Dev) (f : TimeCfg → TimeCfg) {π : DevPart}
    (hπ : π ∉ [DevPart.time]) : (Dev.onTimeCfg d f).get π = d.get π := by
  simp at hπ
  unfold Dev.onTimeCfg; simp [hπ]
@[simp] theorem Dev.onEth_frame (d : Dev) (p : Nat) (f : Eth → Eth) {π : DevPart}
    (hπ : π ∉ [DevPart.ports]) : (Dev.onEth d p f).get π = d.get π := by
  simp at hπ
  unfold Dev.onEth; simp [hπ]
@[simp] theorem Dev.loadSetting_frame (d : Dev) (boot : Bool) (id : Nat) {π : DevPart}
    (hπ : π ∉ [DevPart.hive, .time, .store, .staging, .power, .ports, .portsCfg, .keys]) : (Dev.loadSetting d boot id).get π =
    d.get π := by
  simp at hπ
  generalize h : Dev.loadSetting d boot id = r
  unfold Dev.loadSetting at h
  (repeat' split at h) <;> subst h <;> simp [hπ]
@[simp] theorem Dev.loadRegs_frame (d : Dev) {π : DevPart}
    (hπ : π ∉ [DevPart.hive, .time, .store, .staging, .power, .ports, .portsCfg, .keys, .settings]) : (Dev.loadRegs d).get π =
    d.get π := by
  simp at hπ
  unfold Dev.loadRegs; simp [hπ]
@[simp] theorem Dev.cutEntry_frame (d : Dev) {π : DevPart}
    (hπ : π ∉ [DevPart.ctr, .life]) : (Dev.cutEntry d).get π = d.get π := by
  simp at hπ
  generalize h : Dev.cutEntry d = r
  unfold Dev.cutEntry at h
  (repeat' split at h) <;> subst h <;> simp [hπ]
@[simp] theorem Dev.mainReset_frame (d : Dev) {π : DevPart}
    (hπ : π ∉ [DevPart.ctr, .supply, .lanes, .combs, .arb, .hive, .receipts, .wag, .wagEps, .time, .store, .staging, .power,
    .close, .ports, .portsCfg, .waits, .exports, .tiles, .keys, .rng, .tamper, .log, .life, .dbg, .cores, .flash, .settings,
    .field]) : (Dev.mainReset d).get π = d.get π := by
  simp at hπ
  unfold Dev.mainReset; simp [hπ]
@[simp] theorem Dev.powerUp_frame (d : Dev) {π : DevPart}
    (hπ : π ∉ [DevPart.ctr, .supply, .lanes, .combs, .arb, .hive, .receipts, .wag, .wagEps, .time, .store, .staging, .power,
    .close, .ports, .portsCfg, .waits, .exports, .tiles, .keys, .rng, .tamper, .log, .life, .dbg, .cores, .flash, .settings,
    .field]) : (Dev.powerUp d).get π = d.get π := by
  simp at hπ
  unfold Dev.powerUp; simp [hπ]
@[simp] theorem Dev.closeRestart_frame (d : Dev) {π : DevPart}
    (hπ : π ∉ [DevPart.ctr, .supply, .lanes, .combs, .arb, .hive, .receipts, .wag, .wagEps, .time, .store, .staging, .power,
    .close, .ports, .portsCfg, .waits, .exports, .tiles, .keys, .rng, .tamper, .log, .life, .dbg, .cores, .flash, .settings,
    .field]) : (Dev.closeRestart d).get π = d.get π := by
  simp at hπ
  unfold Dev.closeRestart; simp [hπ]
@[simp] theorem Dev.closeStart_frame (d : Dev) (cause : CloseCause) (resp : Nat) {π : DevPart}
    (hπ : π ∉ [DevPart.ctr, .lanes, .combs, .hive, .receipts, .wag, .store, .staging, .power, .close, .ports, .portsCfg,
    .waits, .exports, .tiles, .keys, .rng, .aon, .log, .life, .dbg, .flash, .settings, .field, .out]) : (Dev.closeStart d
    cause resp).get π = d.get π := by
  simp at hπ
  unfold Dev.closeStart; simp [hπ]
@[simp] theorem Dev.closeDone_frame (d : Dev) {π : DevPart}
    (hπ : π ∉ [DevPart.supply, .time, .power, .rng]) : (Dev.closeDone d).get π = d.get π := by
  simp at hπ
  unfold Dev.closeDone; simp [hπ]
@[simp] theorem Dev.safeOff_frame (d : Dev) {π : DevPart}
    (hπ : π ∉ [DevPart.supply, .store, .power, .out]) : (Dev.safeOff d).get π = d.get π := by
  simp at hπ
  unfold Dev.safeOff; simp [hπ]
@[simp] theorem Dev.quietAfter_frame (d : Dev) (a : AfterClose) {π : DevPart}
    (hπ : π ∉ [DevPart.ctr, .supply, .lanes, .combs, .arb, .hive, .receipts, .wag, .wagEps, .time, .store, .staging, .power,
    .close, .ports, .portsCfg, .waits, .exports, .tiles, .keys, .rng, .tamper, .aon, .log, .life, .dbg, .cores, .flash,
    .settings, .field, .out]) : (Dev.quietAfter d a).get π = d.get π := by
  simp at hπ
  generalize h : Dev.quietAfter d a = r
  unfold Dev.quietAfter at h
  (repeat' split at h) <;> subst h <;> simp [hπ]
@[simp] theorem Dev.closeTrigger_frame (d : Dev) (cause : CloseCause) (resp : Nat) {π : DevPart}
    (hπ : π ∉ [DevPart.ctr, .supply, .lanes, .combs, .arb, .hive, .receipts, .wag, .wagEps, .time, .store, .staging, .power,
    .close, .ports, .portsCfg, .waits, .exports, .tiles, .keys, .rng, .tamper, .aon, .log, .life, .dbg, .cores, .flash,
    .settings, .field, .out]) : (Dev.closeTrigger d cause resp).get π = d.get π := by
  simp at hπ
  generalize h : Dev.closeTrigger d cause resp = r
  unfold Dev.closeTrigger at h
  (repeat' split at h) <;> subst h <;> simp [hπ]
@[simp] theorem Dev.wakeStandby_frame (d : Dev) {π : DevPart}
    (hπ : π ∉ [DevPart.ctr, .supply, .time, .store, .power, .rng, .out]) : (Dev.wakeStandby d).get π = d.get π := by
  simp at hπ
  unfold Dev.wakeStandby; simp [hπ]
@[simp] theorem Dev.wakeVault_frame (d : Dev) {π : DevPart}
    (hπ : π ∉ [DevPart.supply, .store, .power, .out]) : (Dev.wakeVault d).get π = d.get π := by
  simp at hπ
  unfold Dev.wakeVault; simp [hπ]
@[simp] theorem Dev.wakeBy_frame (d : Dev) (src : Nat) (vault : Bool) {π : DevPart}
    (hπ : π ∉ [DevPart.ctr, .supply, .lanes, .combs, .arb, .hive, .receipts, .wag, .wagEps, .time, .store, .staging, .power,
    .close, .ports, .portsCfg, .waits, .exports, .tiles, .keys, .rng, .tamper, .log, .life, .dbg, .cores, .flash, .settings,
    .field, .out]) : (Dev.wakeBy d src vault).get π = d.get π := by
  simp at hπ
  generalize h : Dev.wakeBy d src vault = r
  unfold Dev.wakeBy at h
  (repeat' split at h) <;> subst h <;> simp [hπ]
@[simp] theorem Dev.wake_frame (d : Dev) (bit : Nat) {π : DevPart}
    (hπ : π ∉ [DevPart.ctr, .supply, .lanes, .combs, .arb, .hive, .receipts, .wag, .wagEps, .time, .store, .staging, .power,
    .close, .ports, .portsCfg, .waits, .exports, .tiles, .keys, .rng, .tamper, .log, .life, .dbg, .cores, .flash, .settings,
    .field, .out]) : (Dev.wake d bit).get π = d.get π := by
  simp at hπ
  unfold Dev.wake; simp [hπ]
@[simp] theorem Dev.wakeGpio_frame (d : Dev) (line : Nat) {π : DevPart}
    (hπ : π ∉ [DevPart.ctr, .supply, .lanes, .combs, .arb, .hive, .receipts, .wag, .wagEps, .time, .store, .staging, .power,
    .close, .ports, .portsCfg, .waits, .exports, .tiles, .keys, .rng, .tamper, .log, .life, .dbg, .cores, .flash, .settings,
    .field, .out]) : (Dev.wakeGpio d line).get π = d.get π := by
  simp at hπ
  unfold Dev.wakeGpio; simp [hπ]
@[simp] theorem Dev.askDrain_frame (d : Dev) (ok : Dev → Bool) {π : DevPart}
    (hπ : π ∉ [DevPart.staging]) : (Dev.askDrain d ok).get π = d.get π := by
  simp at hπ
  unfold Dev.askDrain; simp [hπ]
@[simp] theorem Dev.goStatus_frame (d : Dev) (st : Status) {π : DevPart}
    (hπ : π ∉ [DevPart.power]) : (Dev.goStatus d st).get π = d.get π := by
  simp at hπ
  unfold Dev.goStatus; simp [hπ]
@[simp] theorem Dev.modeRequest_frame (d : Dev) (req : Nat) {π : DevPart}
    (hπ : π ∉ [DevPart.staging, .power]) : (Dev.modeRequest d req).2.get π = d.get π := by
  simp at hπ
  generalize h : Dev.modeRequest d req = r
  unfold Dev.modeRequest at h
  (repeat' split at h) <;> subst h <;> simp [hπ]
@[simp] theorem Dev.stagingEnter_frame (d : Dev) {π : DevPart}
    (hπ : π ∉ [DevPart.staging]) : (Dev.stagingEnter d).get π = d.get π := by
  simp at hπ
  unfold Dev.stagingEnter; simp [hπ]
@[simp] theorem Dev.stagingLeave_frame (d : Dev) {π : DevPart}
    (hπ : π ∉ [DevPart.staging]) : (Dev.stagingLeave d).get π = d.get π := by
  simp at hπ
  unfold Dev.stagingLeave; simp [hπ]
@[simp] theorem Dev.modeDone_frame (d : Dev) {π : DevPart}
    (hπ : π ∉ [DevPart.ctr, .supply, .lanes, .combs, .hive, .receipts, .wag, .time, .store, .staging, .power, .ports, .waits,
    .tiles, .rng, .aon, .log, .field, .out]) : (Dev.modeDone d).get π = d.get π := by
  simp at hπ
  generalize h : Dev.modeDone d = r
  unfold Dev.modeDone at h
  (repeat' split at h) <;> subst h <;> simp [hπ]
@[simp] theorem Dev.shutdown_frame (d : Dev) {π : DevPart}
    (hπ : π ∉ [DevPart.ctr, .supply, .lanes, .combs, .hive, .receipts, .wag, .time, .store, .staging, .power, .close, .ports,
    .portsCfg, .waits, .exports, .tiles, .keys, .rng, .aon, .log, .life, .dbg, .flash, .settings, .field, .out]) :
    (Dev.shutdown d).get π = d.get π := by
  simp at hπ
  unfold Dev.shutdown
  (repeat' split) <;> simp [hπ]
@[simp] theorem Dev.supervisorFault_frame (d : Dev) {π : DevPart}
    (hπ : π ∉ [DevPart.ctr, .supply, .lanes, .combs, .arb, .hive, .receipts, .wag, .wagEps, .time, .store, .staging, .power,
    .close, .ports, .portsCfg, .waits, .exports, .tiles, .keys, .rng, .tamper, .aon, .log, .life, .dbg, .cores, .flash,
    .settings, .field, .out]) : (Dev.supervisorFault d).get π = d.get π := by
  simp at hπ
  unfold Dev.supervisorFault; simp [hπ]

end Sys2Proof.Machine
end

