-- ==== Sys2Proof/Laws/FrameTamperOps.lean ====
section
/-! SUPPORT. The parts of the device that each operation of Machine/TamperOps.lean leaves as they were: all but those named. -/
namespace Sys2Proof.Machine

@[simp] theorem Dev.onTamper_frame (d : Dev) (f : Tamper → Tamper) {π : DevPart}
    (hπ : π ∉ [DevPart.tamper]) : (Dev.onTamper d f).get π = d.get π := by
  simp at hπ
  unfold Dev.onTamper; simp [hπ]
@[simp] theorem Dev.onAon_frame (d : Dev) (f : AonTamper → AonTamper) {π : DevPart}
    (hπ : π ∉ [DevPart.aon]) : (Dev.onAon d f).get π = d.get π := by
  simp at hπ
  unfold Dev.onAon; simp [hπ]
@[simp] theorem Dev.tmpErr_frame (d : Dev) (n : Nat) {π : DevPart}
    (hπ : π ∉ [DevPart.tamper]) : (Dev.tmpErr d n).get π = d.get π := by
  simp at hπ
  unfold Dev.tmpErr; simp [hπ]
@[simp] theorem Dev.tmpLoad_frame (d : Dev) {π : DevPart}
    (hπ : π ∉ [DevPart.tamper]) : (Dev.tmpLoad d).get π = d.get π := by
  simp at hπ
  unfold Dev.tmpLoad; simp [hπ]
@[simp] theorem Dev.tmpCommit_frame (d : Dev) {π : DevPart}
    (hπ : π ∉ [DevPart.tamper]) : (Dev.tmpCommit d).get π = d.get π := by
  simp at hπ
  unfold Dev.tmpCommit; simp [hπ]
@[simp] theorem Dev.zeroiseKeyRam_frame (d : Dev) (destroy : Bool) {π : DevPart}
    (hπ : π ∉ [DevPart.keys]) : (Dev.zeroiseKeyRam d destroy).get π = d.get π := by
  simp at hπ
  unfold Dev.zeroiseKeyRam; simp [hπ]
@[simp] theorem Dev.destroyState_frame (d : Dev) {π : DevPart}
    (hπ : π ∉ [DevPart.ports, .aon, .log, .life, .field, .out]) : (Dev.destroyState d).get π = d.get π := by
  simp at hπ
  unfold Dev.destroyState; simp [hπ]
@[simp] theorem Dev.evidence_frame (d : Dev) {π : DevPart}
    (hπ : π ∉ [DevPart.aon]) : (Dev.evidence d).get π = d.get π := by
  simp at hπ
  unfold Dev.evidence; simp [hπ]
@[simp] theorem Dev.generation_frame (d : Dev) {π : DevPart}
    (hπ : π ∉ [DevPart.keys, .aon]) : (Dev.generation d).get π = d.get π := by
  simp at hπ
  unfold Dev.generation; simp [hπ]
@[simp] theorem Dev.zeroiseRest_frame (d : Dev) (destroy : Bool) {π : DevPart}
    (hπ : π ∉ [DevPart.ctr, .lanes, .staging, .tiles, .keys, .rng, .cores, .aon, .close, .hive, .log, .out, .ports, .power, .receipts, .store]) : (Dev.zeroiseRest d destroy).get π = d.get π :=
    by
  simp at hπ
  unfold Dev.zeroiseRest
  simp [hπ]
@[simp] theorem Dev.signless_frame (d : Dev) {π : DevPart}
    (hπ : π ∉ [DevPart.ctr, .lanes, .hive, .receipts, .wag, .store, .staging, .power, .close, .ports, .tiles, .aon, .log, .out]) : (Dev.signless d).get π = d.get π := by
  simp at hπ
  unfold Dev.signless
  simp [hπ]
@[simp] theorem Dev.zeroise_frame (d : Dev) (resp : Nat) {π : DevPart}
    (hπ : π ∉ [DevPart.ctr, .lanes, .hive, .receipts, .wag, .store, .staging, .power, .close, .ports, .tiles, .keys, .rng,
    .aon, .log, .life, .cores, .field, .out]) : (Dev.zeroise d resp).get π = d.get π := by
  simp at hπ
  unfold Dev.zeroise
  (repeat' split) <;> simp [hπ]
@[simp] theorem Dev.freezeLane_frame (d : Dev) (n : Nat) {π : DevPart}
    (hπ : π ∉ [DevPart.ctr, .lanes, .ports, .aon, .log, .out]) : (Dev.freezeLane d n).get π = d.get π := by
  simp at hπ
  unfold Dev.freezeLane; simp [hπ]
@[simp] theorem Dev.freeze_frame (d : Dev) (resp : Nat) {π : DevPart}
    (hπ : π ∉ [DevPart.ctr, .lanes, .ports, .aon, .log, .out]) : (Dev.freeze d resp).get π = d.get π := by
  simp at hπ
  unfold Dev.freeze; simp [hπ]
@[simp] theorem Dev.alarm_frame (d : Dev) (c : Nat) (injected : Bool) {π : DevPart}
    (hπ : π ∉ [DevPart.ctr, .supply, .lanes, .combs, .arb, .hive, .receipts, .wag, .wagEps, .time, .store, .staging, .power,
    .close, .ports, .portsCfg, .waits, .exports, .tiles, .keys, .rng, .tamper, .aon, .log, .life, .dbg, .cores, .flash,
    .settings, .field, .out]) : (Dev.alarm d c injected).get π = d.get π := by
  simp at hπ
  unfold Dev.alarm
  simp [hπ]
@[simp] theorem Dev.countEvent_frame (d : Dev) (c : Nat) (injected : Bool) {π : DevPart}
    (hπ : π ∉ [DevPart.ctr, .supply, .lanes, .combs, .arb, .hive, .receipts, .wag, .wagEps, .time, .store, .staging, .power,
    .close, .ports, .portsCfg, .waits, .exports, .tiles, .keys, .rng, .tamper, .aon, .log, .life, .dbg, .cores, .flash,
    .settings, .field, .out]) : (Dev.countEvent d c injected).get π = d.get π := by
  simp at hπ
  unfold Dev.countEvent
  simp [hπ]
@[simp] theorem Dev.windowExpiry_frame (d : Dev) (c : Nat) {π : DevPart}
    (hπ : π ∉ [DevPart.tamper]) : (Dev.windowExpiry d c).get π = d.get π := by
  simp at hπ
  unfold Dev.windowExpiry; simp [hπ]
@[simp] theorem Dev.logTamper_frame (d : Dev) (c dets site : Nat) (injected : Bool) {π : DevPart}
    (hπ : π ∉ [DevPart.ports, .aon, .log, .out]) : (Dev.logTamper d c dets site injected).get π = d.get π := by
  simp at hπ
  unfold Dev.logTamper; simp [hπ]
@[simp] theorem Dev.internalEvent_frame (d : Dev) (c : Nat) {π : DevPart}
    (hπ : π ∉ [DevPart.ctr, .supply, .lanes, .combs, .arb, .hive, .receipts, .wag, .wagEps, .time, .store, .staging, .power,
    .close, .ports, .portsCfg, .waits, .exports, .tiles, .keys, .rng, .tamper, .aon, .log, .life, .dbg, .cores, .flash,
    .settings, .field, .out]) : (Dev.internalEvent d c).get π = d.get π := by
  simp at hπ
  unfold Dev.internalEvent
  simp [hπ]
@[simp] theorem Dev.siteBits_frame (d : Dev) (c site : Nat) {π : DevPart}
    (hπ : π ∉ [DevPart.aon]) : (Dev.siteBits d c site).get π = d.get π := by
  simp at hπ
  unfold Dev.siteBits; simp [hπ]
@[simp] theorem Dev.fire_frame (d : Dev) (c det site : Nat) (injected : Bool) {π : DevPart}
    (hπ : π ∉ [DevPart.ctr, .supply, .lanes, .combs, .arb, .hive, .receipts, .wag, .wagEps, .time, .store, .staging, .power,
    .close, .ports, .portsCfg, .waits, .exports, .tiles, .keys, .rng, .tamper, .aon, .log, .life, .dbg, .cores, .flash,
    .settings, .field, .out]) : (Dev.fire d c det site injected).get π = d.get π := by
  simp at hπ
  unfold Dev.fire
  dsimp only
  (repeat' split) <;> simp [hπ]
@[simp] theorem Dev.corrobExpiry_frame (d : Dev) {π : DevPart}
    (hπ : π ∉ [DevPart.ports, .tamper, .aon, .log, .out]) : (Dev.corrobExpiry d).get π = d.get π := by
  simp at hπ
  unfold Dev.corrobExpiry; simp [hπ]
@[simp] theorem Dev.wordFault_frame (d : Dev) (site : Nat) {π : DevPart}
    (hπ : π ∉ [DevPart.ctr, .supply, .lanes, .combs, .arb, .hive, .receipts, .wag, .wagEps, .time, .store, .staging, .power,
    .close, .ports, .portsCfg, .waits, .exports, .tiles, .keys, .rng, .tamper, .aon, .log, .life, .dbg, .cores, .flash,
    .settings, .field, .out]) : (Dev.wordFault d site).get π = d.get π := by
  simp at hπ
  unfold Dev.wordFault
  (repeat' split) <;> simp [hπ]
@[simp] theorem Dev.sensorFire_frame (d : Dev) (c det site : Nat) {π : DevPart}
    (hπ : π ∉ [DevPart.ctr, .supply, .lanes, .combs, .arb, .hive, .receipts, .wag, .wagEps, .time, .store, .staging, .power,
    .close, .ports, .portsCfg, .waits, .exports, .tiles, .keys, .rng, .tamper, .aon, .log, .life, .dbg, .cores, .flash,
    .settings, .field, .out]) : (Dev.sensorFire d c det site).get π = d.get π := by
  simp at hπ
  unfold Dev.sensorFire
  (repeat' split) <;> simp [hπ]
@[simp] theorem Dev.encLevel_frame (d : Dev) (n : Nat) (level : Bool) {π : DevPart}
    (hπ : π ∉ [DevPart.tamper]) : (Dev.encLevel d n level).get π = d.get π := by
  simp at hπ
  unfold Dev.encLevel; simp [hπ]
@[simp] theorem Dev.encExpiry_frame (d : Dev) (n : Nat) {π : DevPart}
    (hπ : π ∉ [DevPart.ctr, .supply, .lanes, .combs, .arb, .hive, .receipts, .wag, .wagEps, .time, .store, .staging, .power,
    .close, .ports, .portsCfg, .waits, .exports, .tiles, .keys, .rng, .tamper, .aon, .log, .life, .dbg, .cores, .flash,
    .settings, .field, .out]) : (Dev.encExpiry d n).get π = d.get π := by
  simp at hπ
  unfold Dev.encExpiry
  (repeat' split) <;> simp [hπ]
@[simp] theorem Dev.inject_frame (d : Dev) (c det : Nat) {π : DevPart}
    (hπ : π ∉ [DevPart.ctr, .supply, .lanes, .combs, .arb, .hive, .receipts, .wag, .wagEps, .time, .store, .staging, .power,
    .close, .ports, .portsCfg, .waits, .exports, .tiles, .keys, .rng, .tamper, .aon, .log, .life, .dbg, .cores, .flash,
    .settings, .field, .out]) : (Dev.inject d c det).get π = d.get π := by
  simp at hπ
  unfold Dev.inject
  (repeat' split) <;> simp [hπ]
@[simp] theorem Dev.tecProgram_frame (d : Dev) {π : DevPart}
    (hπ : π ∉ [DevPart.ports, .tamper, .aon, .log, .out]) : (Dev.tecProgram d).get π = d.get π := by
  simp at hπ
  unfold Dev.tecProgram; simp [hπ]
@[simp] theorem Dev.tecIncrement_frame (d : Dev) {π : DevPart}
    (hπ : π ∉ [DevPart.ports, .tamper, .aon, .log, .out]) : (Dev.tecIncrement d).get π = d.get π := by
  simp at hπ
  unfold Dev.tecIncrement; simp [hπ]
@[simp] theorem Dev.tecRead_frame (d : Dev) {π : DevPart}
    (hπ : π ∉ [DevPart.ports, .tamper, .aon, .log, .out]) : (Dev.tecRead d).get π = d.get π := by
  simp at hπ
  unfold Dev.tecRead; simp [hπ]
@[simp] theorem Dev.genProgram_frame (d : Dev) {π : DevPart}
    (hπ : π ∉ [DevPart.keys, .aon]) : (Dev.genProgram d).get π = d.get π := by
  simp at hπ
  unfold Dev.genProgram; simp [hπ]
@[simp] theorem Dev.canaryCheck_frame (d : Dev) {π : DevPart}
    (hπ : π ∉ [DevPart.ctr, .supply, .lanes, .combs, .arb, .hive, .receipts, .wag, .wagEps, .time, .store, .staging, .power,
    .close, .ports, .portsCfg, .waits, .exports, .tiles, .keys, .rng, .tamper, .aon, .log, .life, .dbg, .cores, .flash,
    .settings, .field, .out]) : (Dev.canaryCheck d).get π = d.get π := by
  simp at hπ
  unfold Dev.canaryCheck
  (repeat' split) <;> simp [hπ]
@[simp] theorem Dev.canaryMend_frame (d : Dev) {π : DevPart}
    (hπ : π ∉ [DevPart.ctr, .aon]) : (Dev.canaryMend d).get π = d.get π := by
  simp at hπ
  unfold Dev.canaryMend; simp [hπ]
@[simp] theorem Dev.saltForm_frame (d : Dev) {π : DevPart}
    (hπ : π ∉ [DevPart.ctr, .tamper]) : (Dev.saltForm d).get π = d.get π := by
  simp at hπ
  unfold Dev.saltForm; simp [hπ]

end Sys2Proof.Machine
end

