-- ==== Sys2Proof/Laws/FrameLifeOps.lean ====
section
/-! SUPPORT. The parts of the device that each operation of Machine/LifeOps.lean leaves as they were: all but those named. -/
namespace Sys2Proof.Machine

@[simp] theorem Dev.onLife_frame (d : Dev) (f : Life → Life) {π : DevPart}
    (hπ : π ∉ [DevPart.life]) : (Dev.onLife d f).get π = d.get π := by
  simp at hπ
  unfold Dev.onLife; simp [hπ]
@[simp] theorem Dev.lcCopy_frame (d : Dev) {π : DevPart}
    (hπ : π ∉ [DevPart.field]) : (Dev.lcCopy d).get π = d.get π := by
  simp at hπ
  unfold Dev.lcCopy; simp [hπ]
@[simp] theorem Dev.lifeRead_frame (d : Dev) {π : DevPart}
    (hπ : π ∉ [DevPart.life, .field]) : (Dev.lifeRead d).get π = d.get π := by
  simp at hπ
  unfold Dev.lifeRead; simp [hπ]
@[simp] theorem Dev.tamperedEntry_frame (d : Dev) (ok : Bool) {π : DevPart}
    (hπ : π ∉ [DevPart.ctr, .supply, .time, .power, .rng, .life, .field]) : (Dev.tamperedEntry d ok).get π = d.get π := by
  simp at hπ
  unfold Dev.tamperedEntry; simp [hπ]
@[simp] theorem Dev.makeKey_frame (d : Dev) (n attr : Nat) {π : DevPart}
    (hπ : π ∉ [DevPart.ctr, .keys, .rng]) : (Dev.makeKey d n attr).get π = d.get π := by
  simp at hπ
  unfold Dev.makeKey; simp [hπ]
@[simp] theorem Dev.makeReceiptKey_frame (d : Dev) {π : DevPart}
    (hπ : π ∉ [DevPart.ctr, .keys, .rng]) : (Dev.makeReceiptKey d).get π = d.get π := by
  simp at hπ
  unfold Dev.makeReceiptKey; simp [hπ]
@[simp] theorem Dev.receiptKeyCheck_frame (d : Dev) {π : DevPart}
    (hπ : π ∉ [DevPart.ctr, .keys, .rng]) : (Dev.receiptKeyCheck d).get π = d.get π := by
  simp at hπ
  unfold Dev.receiptKeyCheck; simp [hπ]
@[simp] theorem Dev.retireKeys_frame (d : Dev) {π : DevPart}
    (hπ : π ∉ [DevPart.keys]) : (Dev.retireKeys d).get π = d.get π := by
  simp at hπ
  unfold Dev.retireKeys; simp [hπ]
@[simp] theorem Dev.provisionKeys_frame (d : Dev) {π : DevPart}
    (hπ : π ∉ [DevPart.ctr, .keys, .rng]) : (Dev.provisionKeys d).get π = d.get π := by
  simp at hπ
  unfold Dev.provisionKeys; simp [hπ]
@[simp] theorem Dev.transitionKeys_frame (d : Dev) (old new : LcSt) {π : DevPart}
    (hπ : π ∉ [DevPart.ctr, .keys, .rng, .aon]) : (Dev.transitionKeys d old new).get π = d.get π := by
  simp at hπ
  generalize h : Dev.transitionKeys d old new = r
  unfold Dev.transitionKeys at h
  (repeat' split at h) <;> subst h <;> simp [hπ]
@[simp] theorem Dev.markApply_frame (d : Dev) {π : DevPart}
    (hπ : π ∉ [DevPart.keys]) : (Dev.markApply d).get π = d.get π := by
  simp at hπ
  generalize h : Dev.markApply d = r
  unfold Dev.markApply at h
  (repeat' split at h) <;> subst h <;> simp [hπ]
@[simp] theorem Dev.lcStart_frame (d : Dev) (new : LcSt) (source slot : Nat) {π : DevPart}
    (hπ : π ∉ [DevPart.keys, .life]) : (Dev.lcStart d new source slot).get π = d.get π := by
  simp at hπ
  unfold Dev.lcStart; simp [hπ]
@[simp] theorem Dev.lcRefused_frame (d : Dev) {π : DevPart}
    (hπ : π ∉ [DevPart.life]) : (Dev.lcRefused d).get π = d.get π := by
  simp at hπ
  unfold Dev.lcRefused; simp [hπ]
@[simp] theorem Dev.lcCommit_frame (d : Dev) (g : LcGoing) {π : DevPart}
    (hπ : π ∉ [DevPart.ctr, .hive, .receipts, .wag, .store, .ports, .portsCfg, .waits, .exports, .tiles, .keys, .rng, .aon,
    .log, .life, .dbg, .settings, .field, .out]) : (Dev.lcCommit d g).get π = d.get π := by
  simp at hπ
  unfold Dev.lcCommit; simp [hπ]
@[simp] theorem Dev.lcEntry_frame (d : Dev) (ok : Bool) {π : DevPart}
    (hπ : π ∉ [DevPart.ctr, .hive, .receipts, .wag, .store, .ports, .portsCfg, .waits, .exports, .tiles, .keys, .rng, .aon,
    .log, .life, .dbg, .settings, .field, .out]) : (Dev.lcEntry d ok).get π = d.get π := by
  simp at hπ
  generalize h : Dev.lcEntry d ok = r
  unfold Dev.lcEntry at h
  (repeat' split at h) <;> subst h <;> simp [hπ]
@[simp] theorem Dev.lcMarked_frame (d : Dev) (ok : Bool) {π : DevPart}
    (hπ : π ∉ [DevPart.ports, .waits, .life, .out]) : (Dev.lcMarked d ok).get π = d.get π := by
  simp at hπ
  unfold Dev.lcMarked; simp [hπ]
@[simp] theorem Dev.dbgTransition_frame (d : Dev) (new : LcSt) {π : DevPart}
    (hπ : π ∉ [DevPart.keys, .life]) : (Dev.dbgTransition d new).get π = d.get π := by
  simp at hπ
  unfold Dev.dbgTransition; simp [hπ]
@[simp] theorem Dev.retireErase_frame (d : Dev) {π : DevPart}
    (hπ : π ∉ [DevPart.store, .log, .life, .aon, .out, .ports]) : (Dev.retireErase d).get π = d.get π := by
  simp at hπ
  unfold Dev.retireErase; simp [hπ]
@[simp] theorem Dev.lockedAccess_frame (d : Dev) (space addr : Nat) {π : DevPart}
    (hπ : π ∉ [DevPart.ports, .aon, .log, .dbg, .out]) : (Dev.lockedAccess d space addr).get π = d.get π := by
  simp at hπ
  unfold Dev.lockedAccess; simp [hπ]
@[simp] theorem Dev.dbgHalt_frame (d : Dev) (mask : Nat) {π : DevPart}
    (hπ : π ∉ [DevPart.ports, .aon, .log, .dbg, .out]) : (Dev.dbgHalt d mask).get π = d.get π := by
  simp at hπ
  unfold Dev.dbgHalt; simp [hπ]
@[simp] theorem Dev.dbgResume_frame (d : Dev) {π : DevPart}
    (hπ : π ∉ [DevPart.dbg]) : (Dev.dbgResume d).get π = d.get π := by
  simp at hπ
  unfold Dev.dbgResume; simp [hπ]
@[simp] theorem Dev.dbgStep_frame (d : Dev) {π : DevPart}
    (hπ : π ∉ [DevPart.dbg]) : (Dev.dbgStep d).get π = d.get π := by
  simp at hπ
  unfold Dev.dbgStep; simp [hπ]
@[simp] theorem Dev.unlockExpiry_frame (d : Dev) {π : DevPart}
    (hπ : π ∉ [DevPart.hive, .receipts, .wag, .ports, .tiles, .aon, .log, .dbg, .out]) : (Dev.unlockExpiry d).get π = d.get π
    := by
  simp at hπ
  generalize h : Dev.unlockExpiry d = r
  unfold Dev.unlockExpiry at h
  (repeat' split at h) <;> subst h <;> simp [hπ]
@[simp] theorem Dev.debugChalExpiry_frame (d : Dev) {π : DevPart}
    (hπ : π ∉ [DevPart.dbg]) : (Dev.debugChalExpiry d).get π = d.get π := by
  simp at hπ
  generalize h : Dev.debugChalExpiry d = r
  unfold Dev.debugChalExpiry at h
  (repeat' split at h) <;> subst h <;> simp [hπ]
@[simp] theorem Dev.unlock_frame (d : Dev) (m : List Byte) {π : DevPart}
    (hπ : π ∉ [DevPart.hive, .receipts, .wag, .ports, .tiles, .aon, .log, .dbg, .out]) : (Dev.unlock d m).2.get π = d.get π :=
    by
  simp at hπ
  unfold Dev.unlock
  dsimp only
  (repeat' split) <;> simp [hπ]

end Sys2Proof.Machine
end

