-- ==== Sys2Proof/Laws/FrameCmdOps.lean ====
section
/-! SUPPORT. The parts of the device that each operation of Machine/CmdOps.lean leaves as they were: all but those named. -/
namespace Sys2Proof.Machine

@[simp] theorem Dev.command_frame (d : Dev) (op p s : Nat) (f : List Byte → Dev → Dev) {π : DevPart} (hf : ∀ y0 y1, (f y0
    y1).get π = y1.get π)
    (hπ : π ∉ [DevPart.ports, .portsCfg, .out]) : (Dev.command d op p s f).get π = d.get π := by
  simp at hπ
  unfold Dev.command
  dsimp only
  (repeat' split) <;> simp [hπ, hf]
@[simp] theorem Dev.guarded_frame (d : Dev) (p s : Nat) (checks : List (Bool × Status)) (f : Dev → Dev) {π : DevPart} (hf : ∀
    y0, (f y0).get π = y0.get π)
    (hπ : π ∉ [DevPart.ports, .out]) : (Dev.guarded d p s checks f).get π = d.get π := by
  simp at hπ
  generalize h : Dev.guarded d p s checks f = r
  unfold Dev.guarded at h
  (repeat' split at h) <;> subst h <;> simp [hπ, hf]
@[simp] theorem Dev.await_frame (d : Dev) (p s : Nat) (w : WaitFor) (body : List Byte) {π : DevPart}
    (hπ : π ∉ [DevPart.waits]) : (Dev.await d p s w body).get π = d.get π := by
  simp at hπ
  unfold Dev.await; simp [hπ]

end Sys2Proof.Machine
end

