-- ==== Sys2Proof/Laws/FrameCmdExt.lean ====
section
/-! SUPPORT. The parts of the device that each operation of Machine/CmdExt.lean leaves as they were: all but those named. -/
namespace Sys2Proof.Machine

@[simp] theorem Dev.extLoad_frame (d : Dev) (m image : List Byte) (c : Nat) {π : DevPart}
    (hπ : π ∉ [DevPart.ports, .keys, .aon, .log, .cores, .out]) : (Dev.extLoad d m image c).get π = d.get π := by
  simp at hπ
  unfold Dev.extLoad; simp [hπ]
@[simp] theorem Dev.extSet_frame (d : Dev) (cs : List Nat) (st : Nat) (halt : Bool) {π : DevPart}
    (hπ : π ∉ [DevPart.keys, .cores]) : (Dev.extSet d cs st halt).get π = d.get π := by
  simp at hπ
  unfold Dev.extSet; simp [hπ]

end Sys2Proof.Machine
end

