-- ==== Sys2Proof/Laws/FrameWaggle.lean ====
section
/-! SUPPORT. The parts of the device that each operation of Machine/Waggle.lean leaves as they were: all but those named. -/
namespace Sys2Proof.Machine

/-- What a core issues leaves what its effect leaves. -/
@[simp] theorem Dev.byCore_frame (d : Dev) (f : Dev → Dev) {π : DevPart} (hf : (f d).get π = d.get π) :
    (d.byCore f).get π = d.get π := by
  unfold Dev.byCore
  split
  · exact hf
  · rfl
@[simp] theorem Dev.clocked_frame (d : Dev) (f : Dev → Dev) {π : DevPart} (hf : ∀ y0, (f y0).get π = y0.get π)
    : (Dev.clocked d f).get π = d.get π := by
  unfold Dev.clocked; simp [hf]
@[simp] theorem Dev.wagGo_frame (d : Dev) (op : WagOp) {π : DevPart}
    (hπ : π ∉ [DevPart.hive, .receipts, .wag]) : (Dev.wagGo d op).get π = d.get π := by
  simp at hπ
  unfold Dev.wagGo; simp [hπ]
@[simp] theorem Dev.wagBarrierGo_frame (d : Dev) (id : Nat) {π : DevPart}
    (hπ : π ∉ [DevPart.hive, .receipts, .wag]) : (Dev.wagBarrierGo d id).get π = d.get π := by
  simp at hπ
  unfold Dev.wagBarrierGo; simp [hπ]
@[simp] theorem Dev.wagResetGo_frame (d : Dev) (machine : Bool) {π : DevPart}
    (hπ : π ∉ [DevPart.hive, .receipts, .wag]) : (Dev.wagResetGo d machine).get π = d.get π := by
  simp at hπ
  unfold Dev.wagResetGo; simp [hπ]

end Sys2Proof.Machine
end

