-- ==== Sys2Proof/Laws/FrameCmdField.lean ====
section
/-! SUPPORT. The parts of the device that each operation of Machine/CmdField.lean leaves as they were: all but those named. -/
namespace Sys2Proof.Machine

@[simp] theorem Dev.readerOn_frame (d : Dev) {π : DevPart}
    (hπ : π ∉ [DevPart.ports, .aon, .log, .field, .out]) : (Dev.readerOn d).get π = d.get π := by
  simp at hπ
  unfold Dev.readerOn; simp [hπ]
@[simp] theorem Dev.readerBack_frame (d : Dev) (was : Bool) {π : DevPart}
    (hπ : π ∉ [DevPart.field]) : (Dev.readerBack d was).get π = d.get π := by
  simp at hπ
  unfold Dev.readerBack; simp [hπ]
@[simp] theorem Dev.pairEnd_frame (d : Dev) (port slot off : Nat) (was : Bool) (record : List Byte) {π : DevPart}
    (hπ : π ∉ [DevPart.ports, .field, .out]) : (Dev.pairEnd d port slot off was record).get π = d.get π := by
  simp at hπ
  unfold Dev.pairEnd; simp [hπ]
@[simp] theorem Dev.pairToken_frame (d : Dev) (port slot off : Nat) (was : Bool) (id sel kMac : List Byte) (keyId code rssi :
    Nat) {π : DevPart}
    (hπ : π ∉ [DevPart.ctr, .ports, .rng, .field, .out]) : (Dev.pairToken d port slot off was id sel kMac keyId code rssi).get
    π = d.get π := by
  simp at hπ
  unfold Dev.pairToken; simp [hπ]
@[simp] theorem Dev.pairAuth_frame (d : Dev) (port slot off : Nat) (was : Bool) (id sel auth : List Byte) (prove pair rssi :
    Nat) {π : DevPart}
    (hπ : π ∉ [DevPart.ctr, .ports, .rng, .field, .out]) : (Dev.pairAuth d port slot off was id sel auth prove pair rssi).get
    π = d.get π := by
  simp at hπ
  unfold Dev.pairAuth; simp [hπ]

end Sys2Proof.Machine
end

