-- ==== Sys2Proof/Laws/FrameCmdKeys.lean ====
section
/-! SUPPORT. The parts of the device that each operation of Machine/CmdKeys.lean leaves as they were: all but those named. -/
namespace Sys2Proof.Machine

@[simp] theorem Dev.deliverSlot_frame (d : Dev) (v : Delivery) (k : KeySlot) (p : KeyPending) {π : DevPart}
    (hπ : π ∉ [DevPart.keys]) : (Dev.deliverSlot d v k p).get π = d.get π := by
  simp at hπ
  unfold Dev.deliverSlot; simp [hπ]
@[simp] theorem Dev.deliver376_frame (d : Dev) (port slot outOff : Nat) (v : Delivery) {π : DevPart}
    (hπ : π ∉ [DevPart.ctr, .ports, .keys, .rng, .out]) : (Dev.deliver376 d port slot outOff v).get π = d.get π := by
  simp at hπ
  generalize h : Dev.deliver376 d port slot outOff v = r
  unfold Dev.deliver376 at h
  (repeat' split at h) <;> subst h <;> simp [hπ]

end Sys2Proof.Machine
end

