-- ==== Sys2Proof/Laws/FrameCmdSettings.lean ====
section
/-! SUPPORT. The parts of the device that each operation of Machine/CmdSettings.lean leaves as they were: all but those named. -/
namespace Sys2Proof.Machine

@[simp] theorem Dev.onSettings_frame (d : Dev) (f : Settings → Settings) {π : DevPart}
    (hπ : π ∉ [DevPart.settings]) : (Dev.onSettings d f).get π = d.get π := by
  simp at hπ
  unfold Dev.onSettings; simp [hπ]
@[simp] theorem Dev.shadowPut_frame (d : Dev) (p s id : Nat) (v : List Byte) {π : DevPart}
    (hπ : π ∉ [DevPart.settings]) : (Dev.shadowPut d p s id v).get π = d.get π := by
  simp at hπ
  unfold Dev.shadowPut; simp [hπ]
@[simp] theorem Dev.programSettings_frame (d : Dev) (gen : Nat) (vals : Sparse (List Byte)) {π : DevPart}
    (hπ : π ∉ [DevPart.flash, .settings]) : (Dev.programSettings d gen vals).get π = d.get π := by
  simp at hπ
  unfold Dev.programSettings; simp [hπ]
@[simp] theorem Dev.settingsCommitted_frame (d : Dev) {π : DevPart}
    (hπ : π ∉ [DevPart.hive, .time, .store, .staging, .power, .ports, .portsCfg, .keys, .aon, .flash, .settings]) :
    (Dev.settingsCommitted d).get π = d.get π := by
  simp at hπ
  generalize h : Dev.settingsCommitted d = r
  unfold Dev.settingsCommitted at h
  (repeat' split at h) <;> subst h <;> simp [hπ]
@[simp] theorem Dev.flashEnded_frame (d : Dev) (tag : Nat) (st : Status) {π : DevPart}
    (hπ : π ∉ [DevPart.hive, .time, .store, .staging, .power, .ports, .portsCfg, .waits, .keys, .aon, .flash, .settings,
    .out]) : (Dev.flashEnded d tag st).get π = d.get π := by
  simp at hπ
  unfold Dev.flashEnded; simp [hπ]

end Sys2Proof.Machine
end

