-- ==== Sys2Proof/Laws/FrameRegLane.lean ====
section
/-! SUPPORT. The parts of the device that each operation of Machine/RegLane.lean leaves as they were: all but those named. -/
namespace Sys2Proof.Machine

@[simp] theorem Dev.laneLatch_frame (d : Dev) (n i : Nat) {π : DevPart}
    (hπ : π ∉ [DevPart.lanes]) : (Dev.laneLatch d n i).get π = d.get π := by
  simp at hπ
  unfold Dev.laneLatch; simp [hπ]
@[simp] theorem Dev.laneEnable_frame (d : Dev) (n : Nat) (on : Bool) {π : DevPart}
    (hπ : π ∉ [DevPart.lanes]) : (Dev.laneEnable d n on).get π = d.get π := by
  simp at hπ
  unfold Dev.laneEnable; simp [hπ]
@[simp] theorem Dev.laneCtrl_frame (d : Dev) (n v : Nat) {π : DevPart}
    (hπ : π ∉ [DevPart.lanes, .out]) : (Dev.laneCtrl d n v).get π = d.get π := by
  simp at hπ
  unfold Dev.laneCtrl; simp [hπ]
@[simp] theorem Dev.laneLimits_frame (d : Dev) (n v : Nat) {π : DevPart}
    (hπ : π ∉ [DevPart.lanes]) : (Dev.laneLimits d n v).get π = d.get π := by
  simp at hπ
  unfold Dev.laneLimits; simp [hπ]
@[simp] theorem Dev.laneSusp_frame (d : Dev) (n v : Nat) {π : DevPart}
    (hπ : π ∉ [DevPart.lanes]) : (Dev.laneSusp d n v).get π = d.get π := by
  simp at hπ
  unfold Dev.laneSusp; simp [hπ]
@[simp] theorem Dev.laneWrite_frame (d : Dev) (n i v : Nat) {π : DevPart}
    (hπ : π ∉ [DevPart.lanes, .out]) : (Dev.laneWrite d n i v).get π = d.get π := by
  simp at hπ
  generalize h : Dev.laneWrite d n i v = r
  unfold Dev.laneWrite at h
  (repeat' split at h) <;> subst h <;> simp [hπ]
@[simp] theorem Dev.laneHostWrite_frame (d : Dev) (p n i v : Nat) {π : DevPart}
    (hπ : π ∉ [DevPart.lanes, .ports, .aon, .log, .out]) : (Dev.laneHostWrite d p n i v).get π = d.get π := by
  simp at hπ
  generalize h : Dev.laneHostWrite d p n i v = r
  unfold Dev.laneHostWrite at h
  (repeat' split at h) <;> subst h <;> simp [hπ]
@[simp] theorem Dev.combRegWrite_frame (d : Dev) (c i v : Nat) {π : DevPart}
    (hπ : π ∉ [DevPart.lanes, .combs]) : (Dev.combRegWrite d c i v).get π = d.get π := by
  simp at hπ
  generalize h : Dev.combRegWrite d c i v = r
  unfold Dev.combRegWrite at h
  (repeat' split at h) <;> subst h <;> simp [hπ]
@[simp] theorem Dev.arbWrite_frame (d : Dev) (i v : Nat) {π : DevPart}
    (hπ : π ∉ [DevPart.arb]) : (Dev.arbWrite d i v).get π = d.get π := by
  simp at hπ
  generalize h : Dev.arbWrite d i v = r
  unfold Dev.arbWrite at h
  (repeat' split at h) <;> subst h <;> simp [hπ]

end Sys2Proof.Machine
end

