-- ==== Sys2Proof/Laws/FrameCmdStream.lean ====
section
/-! SUPPORT. The parts of the device that each operation of Machine/CmdStream.lean leaves as they were: all but those named. -/
namespace Sys2Proof.Machine

@[simp] theorem Dev.laneWake_frame (d : Dev) (n : Nat) {π : DevPart}
    (hπ : π ∉ [DevPart.lanes, .combs]) : (Dev.laneWake d n).get π = d.get π := by
  simp at hπ
  unfold Dev.laneWake; simp [hπ]
@[simp] theorem Dev.openStream_frame (d : Dev) (p s : Nat) (b : List Byte) {π : DevPart}
    (hπ : π ∉ [DevPart.ctr, .lanes, .combs, .power, .ports, .waits, .rng, .aon, .log, .out, .keys]) : (Dev.openStream d p s b).get π
    = d.get π := by
  simp at hπ
  unfold Dev.openStream; simp [hπ]
@[simp] theorem Dev.openVerify_frame (d : Dev) (p s : Nat) (b : List Byte) {π : DevPart}
    (hπ : π ∉ [DevPart.lanes, .combs, .ports, .out]) : (Dev.openVerify d p s b).get π = d.get π := by
  simp at hπ
  unfold Dev.openVerify; simp [hπ]
@[simp] theorem Dev.retargetVerify_frame (d : Dev) (p s n x : Nat) (a : RingArgs) {π : DevPart}
    (hπ : π ∉ [DevPart.lanes, .ports, .out]) : (Dev.retargetVerify d p s n x a).get π = d.get π := by
  simp at hπ
  unfold Dev.retargetVerify; simp [hπ]
@[simp] theorem Dev.retargetSeal_frame (d : Dev) (p s n : Nat) (a : RingArgs) (addr : Nat) {π : DevPart}
    (hπ : π ∉ [DevPart.lanes, .ports, .waits, .out]) : (Dev.retargetSeal d p s n a addr).get π = d.get π := by
  simp at hπ
  unfold Dev.retargetSeal; simp [hπ]
@[simp] theorem Dev.stagingFault_frame (d : Dev) (outcome : Nat) {π : DevPart}
    (hπ : π ∉ [DevPart.ctr, .supply, .lanes, .combs, .arb, .hive, .receipts, .wag, .wagEps, .time, .store, .staging, .power,
    .close, .ports, .portsCfg, .waits, .exports, .tiles, .keys, .rng, .tamper, .aon, .log, .life, .dbg, .cores, .flash,
    .settings, .field, .out]) : (Dev.stagingFault d outcome).get π = d.get π := by
  simp at hπ
  unfold Dev.stagingFault
  (repeat' split) <;> simp [hπ]

end Sys2Proof.Machine
end

