-- ==== Sys2Proof/Laws/FrameCodeFlashRows.lean ====
section
/-! SUPPORT. The parts of the device that each operation of Machine/CodeFlashRows.lean leaves as they were: all but those named. -/
namespace Sys2Proof.Machine

@[simp] theorem Dev.rdpLower_frame (d : Dev) (tag : Nat) (irq : Bool) {π : DevPart}
    (hπ : π ∉ [DevPart.ctr, .supply, .lanes, .combs, .arb, .hive, .receipts, .wag, .wagEps, .time, .store, .staging, .power,
    .close, .ports, .portsCfg, .waits, .exports, .tiles, .keys, .rng, .tamper, .log, .life, .dbg, .cores, .flash, .settings,
    .field]) : (Dev.rdpLower d tag irq).get π = d.get π := by
  simp at hπ
  unfold Dev.rdpLower; simp [hπ]
@[simp] theorem Dev.cflRdp_frame (d : Dev) {π : DevPart}
    (hπ : π ∉ [DevPart.ctr, .supply, .lanes, .combs, .arb, .hive, .receipts, .wag, .wagEps, .time, .store, .staging, .power,
    .close, .ports, .portsCfg, .waits, .exports, .tiles, .keys, .rng, .tamper, .log, .life, .dbg, .cores, .flash, .settings,
    .field]) : (Dev.cflRdp d).get π = d.get π := by
  simp at hπ
  unfold Dev.cflRdp
  dsimp only
  (repeat' split) <;> simp [hπ]
@[simp] theorem Dev.fctrlWrite_frame (d : Dev) (pf bc : Bool) {π : DevPart}
    (hπ : π ∉ [DevPart.flash]) : (Dev.fctrlWrite d pf bc).get π = d.get π := by
  simp at hπ
  unfold Dev.fctrlWrite; simp [hπ]

end Sys2Proof.Machine
end

