-- ==== Sys2Proof/Laws/FrameCpuOps.lean ====
section
/-! SUPPORT. The parts of the device that each operation of Machine/CpuOps.lean leaves as they were: all but those named. -/
namespace Sys2Proof.Machine

@[simp] theorem Dev.onMpu_frame (d : Dev) (n : Nat) (f : Mpu → Mpu) {π : DevPart}
    (hπ : π ∉ [DevPart.cores]) : (Dev.onMpu d n f).get π = d.get π := by
  simp at hπ
  unfold Dev.onMpu; simp [hπ]
@[simp] theorem Dev.cpuErr_frame (d : Dev) (n b : Nat) {π : DevPart}
    (hπ : π ∉ [DevPart.cores]) : (Dev.cpuErr d n b).get π = d.get π := by
  simp at hπ
  unfold Dev.cpuErr; simp [hπ]
@[simp] theorem Dev.stepped_frame (d : Dev) (n : Nat) {π : DevPart}
    (hπ : π ∉ [DevPart.dbg]) : (Dev.stepped d n).get π = d.get π := by
  simp at hπ
  unfold Dev.stepped; simp [hπ]
@[simp] theorem Dev.lockUp_frame (d : Dev) (n : Nat) {π : DevPart}
    (hπ : π ∉ [DevPart.ctr, .supply, .lanes, .combs, .arb, .hive, .receipts, .wag, .wagEps, .time, .store, .staging, .power,
    .close, .ports, .portsCfg, .waits, .exports, .tiles, .keys, .rng, .tamper, .aon, .log, .life, .dbg, .cores, .flash,
    .settings, .field, .out]) : (Dev.lockUp d n).get π = d.get π := by
  simp at hπ
  unfold Dev.lockUp; simp [hπ]
@[simp] theorem Dev.branch_frame (d : Dev) (n target : Nat) (taken : Bool) {π : DevPart}
    (hπ : π ∉ [DevPart.dbg, .cores]) : (Dev.branch d n target taken).get π = d.get π := by
  simp at hπ
  unfold Dev.branch; simp [hπ]
@[simp] theorem Dev.goOn_frame (d : Dev) (n pc : Nat) {π : DevPart}
    (hπ : π ∉ [DevPart.dbg, .cores]) : (Dev.goOn d n pc).get π = d.get π := by
  simp at hπ
  unfold Dev.goOn; simp [hπ]

end Sys2Proof.Machine
end

