-- ==== Sys2Proof/Laws/FrameCpuCtl.lean ====
section
/-! SUPPORT. The parts of the device that each operation of Machine/CpuCtl.lean leaves as they were: all but those named. -/
namespace Sys2Proof.Machine

@[simp] theorem Dev.linked_frame (d : Dev) (n ra target : Nat) {π : DevPart}
    (hπ : π ∉ [DevPart.dbg, .cores]) : (Dev.linked d n ra target).get π = d.get π := by
  simp at hπ
  unfold Dev.linked; simp [hπ]

end Sys2Proof.Machine
end

