-- ==== Sys2Proof/Laws/FrameHostPorts.lean ====
section
/-! SUPPORT. The parts of the device that each operation of Machine/HostPorts.lean leaves as they were: all but those named. -/
namespace Sys2Proof.Machine

@[simp] theorem Dev.pcieWake_frame (d : Dev) (p : Nat) {π : DevPart}
    (hπ : π ∉ [DevPart.ctr, .supply, .lanes, .combs, .arb, .hive, .receipts, .wag, .wagEps, .time, .store, .staging, .power,
    .close, .ports, .portsCfg, .waits, .exports, .tiles, .keys, .rng, .tamper, .log, .life, .dbg, .cores, .flash, .settings,
    .field, .out]) : (Dev.pcieWake d p).get π = d.get π := by
  simp at hπ
  unfold Dev.pcieWake; simp [hπ]

end Sys2Proof.Machine
end

