-- ==== Sys2Proof/Laws/FrameRegHive.lean ====
section
/-! SUPPORT. The parts of the device that each operation of Machine/RegHive.lean leaves as they were: all but those named. -/
namespace Sys2Proof.Machine

@[simp] theorem Dev.wagCmd_frame (d : Dev) (machine : Bool) (op id : Nat) {π : DevPart}
    (hπ : π ∉ [DevPart.hive, .receipts, .wag]) : (Dev.wagCmd d machine op id).get π = d.get π := by
  simp at hπ
  generalize h : Dev.wagCmd d machine op id = r
  unfold Dev.wagCmd at h
  (repeat' split at h) <;> subst h <;> simp [hπ]
@[simp] theorem Dev.wagWrite_frame (d : Dev) (machine : Bool) (i v : Nat) {π : DevPart}
    (hπ : π ∉ [DevPart.hive, .receipts, .wag]) : (Dev.wagWrite d machine i v).get π = d.get π := by
  simp at hπ
  generalize h : Dev.wagWrite d machine i v = r
  unfold Dev.wagWrite at h
  (repeat' split at h) <;> subst h <;> simp [hπ]
@[simp] theorem Dev.epWrite_frame (d : Dev) (c i v : Nat) {π : DevPart}
    (hπ : π ∉ [DevPart.wag, .wagEps]) : (Dev.epWrite d c i v).get π = d.get π := by
  simp at hπ
  generalize h : Dev.epWrite d c i v = r
  unfold Dev.epWrite at h
  (repeat' split at h) <;> subst h <;> simp [hπ]
@[simp] theorem Dev.hiveCtrl_frame (d : Dev) (v : Nat) {π : DevPart}
    (hπ : π ∉ [DevPart.hive, .receipts, .wag, .ports, .tiles, .aon, .log, .out]) : (Dev.hiveCtrl d v).get π = d.get π := by
  simp at hπ
  unfold Dev.hiveCtrl; simp [hπ]
@[simp] theorem Dev.hiveWrite_frame (d : Dev) (i v : Nat) {π : DevPart}
    (hπ : π ∉ [DevPart.hive, .receipts, .wag, .ports, .tiles, .aon, .log, .out]) : (Dev.hiveWrite d i v).get π = d.get π := by
  simp at hπ
  generalize h : Dev.hiveWrite d i v = r
  unfold Dev.hiveWrite at h
  (repeat' split at h) <;> subst h <;> simp [hπ]

end Sys2Proof.Machine
end

