-- ==== Sys2Proof/Laws/FrameKeyStore.lean ====
section
/-! SUPPORT. The parts of the device that each operation of Machine/KeyStore.lean leaves as they were: all but those named. -/
namespace Sys2Proof.Machine

@[simp] theorem Dev.keyGo_frame (d : Dev) (who : Nat) (f : Dev → Dev) {π : DevPart} (hf : ∀ y0, (f y0).get π = y0.get π)
    : (Dev.keyGo d who f).get π = d.get π := by
  unfold Dev.keyGo; simp [hf]
@[simp] theorem Dev.delivered_frame (d : Dev) (ok : Bool) (port slot : Nat) (p : KeyPending) {π : DevPart}
    (hπ : π ∉ [DevPart.ports, .keys, .aon, .log, .out]) : (Dev.delivered d ok port slot p).get π = d.get π := by
  simp at hπ
  unfold Dev.delivered; simp [hπ]
@[simp] theorem Dev.keyWritten_frame (d : Dev) (ok : Bool) {π : DevPart}
    (hπ : π ∉ [DevPart.ports, .waits, .keys, .aon, .log, .life, .out]) : (Dev.keyWritten d ok).get π = d.get π := by
  simp at hπ
  unfold Dev.keyWritten
  dsimp only
  (repeat' split) <;> simp [hπ]

end Sys2Proof.Machine
end

