-- ==== Sys2Proof/Laws/FramePowerOps.lean ====
section
/-! SUPPORT. The parts of the device that each operation of Machine/PowerOps.lean leaves as they were: all but those named. -/
namespace Sys2Proof.Machine

@[simp] theorem Dev.onSupply_frame (d : Dev) (f : Supply → Supply) {π : DevPart}
    (hπ : π ∉ [DevPart.supply]) : (Dev.onSupply d f).get π = d.get π := by
  simp at hπ
  unfold Dev.onSupply; simp [hπ]
@[simp] theorem Dev.pgoodRise_frame (d : Dev) {π : DevPart}
    (hπ : π ∉ [DevPart.ctr, .supply, .lanes, .combs, .arb, .hive, .receipts, .wag, .wagEps, .time, .store, .staging, .power,
    .close, .ports, .portsCfg, .waits, .exports, .tiles, .keys, .rng, .tamper, .log, .life, .dbg, .cores, .flash, .settings,
    .field]) : (Dev.pgoodRise d).get π = d.get π := by
  simp at hπ
  unfold Dev.pgoodRise; simp [hπ]
@[simp] theorem Dev.resetRelease_frame (d : Dev) (kat : Nat) {π : DevPart}
    (hπ : π ∉ [DevPart.ctr, .supply, .hive, .time, .store, .staging, .power, .ports, .portsCfg, .keys, .rng, .tamper, .aon,
    .log, .settings, .out]) : (Dev.resetRelease d kat).2.get π = d.get π := by
  simp at hπ
  generalize h : Dev.resetRelease d kat = r
  unfold Dev.resetRelease at h
  (repeat' split at h) <;> subst h <;> simp [hπ]
@[simp] theorem Dev.romHandOff_frame (d : Dev) (rowOk : Bool) {π : DevPart}
    (hπ : π ∉ [DevPart.ctr, .supply, .lanes, .combs, .arb, .hive, .receipts, .wag, .wagEps, .time, .store, .staging, .power,
    .close, .ports, .portsCfg, .waits, .exports, .tiles, .keys, .rng, .tamper, .aon, .log, .life, .dbg, .cores, .flash,
    .settings, .field, .out]) : (Dev.romHandOff d rowOk).get π = d.get π := by
  simp at hπ
  unfold Dev.romHandOff
  dsimp only
  (repeat' split) <;> simp [hπ]
@[simp] theorem Dev.measureBoot_frame (d : Dev) {π : DevPart}
    (hπ : π ∉ [DevPart.ctr, .time, .ports, .keys, .aon, .log, .out]) : (Dev.measureBoot d).get π = d.get π := by
  simp at hπ
  unfold Dev.measureBoot; simp [hπ]
@[simp] theorem Dev.bootFinish_frame (d : Dev) {π : DevPart}
    (hπ : π ∉ [DevPart.ctr, .time, .power, .ports, .portsCfg, .keys, .rng, .aon, .log, .field, .out]) : (Dev.bootFinish d).get
    π = d.get π := by
  simp at hπ
  unfold Dev.bootFinish; simp [hπ]
@[simp] theorem Dev.randomStart_frame (d : Dev) {π : DevPart}
    (hπ : π ∉ [DevPart.ctr, .keys, .rng, .aon]) : (Dev.randomStart d).get π = d.get π := by
  simp at hπ
  unfold Dev.randomStart; simp [hπ]
@[simp] theorem Dev.noPfailFound_frame (d : Dev) {π : DevPart}
    (hπ : π ∉ [DevPart.power, .ports, .aon, .log, .out]) : (Dev.noPfailFound d).get π = d.get π := by
  simp at hπ
  unfold Dev.noPfailFound; simp [hπ]
@[simp] theorem Dev.pfailAtStart_frame (d : Dev) {π : DevPart}
    (hπ : π ∉ [DevPart.power, .ports, .aon, .log, .out]) : (Dev.pfailAtStart d).get π = d.get π := by
  simp at hπ
  unfold Dev.pfailAtStart; simp [hπ]
@[simp] theorem Dev.storeReady_frame (d : Dev) {π : DevPart}
    (hπ : π ∉ [DevPart.hive, .receipts, .store, .power, .ports, .aon, .log, .out]) : (Dev.storeReady d).get π = d.get π := by
  simp at hπ
  unfold Dev.storeReady; simp [hπ]
@[simp] theorem Dev.startUpDone_frame (d : Dev) {π : DevPart}
    (hπ : π ∉ [DevPart.ctr, .hive, .receipts, .wag, .store, .power, .ports, .tiles, .rng, .aon, .log, .field, .out]) :
    (Dev.startUpDone d).get π = d.get π := by
  simp at hπ
  unfold Dev.startUpDone; simp [hπ]
@[simp] theorem Dev.pgoodFall_frame (d : Dev) {π : DevPart}
    (hπ : π ∉ [DevPart.ctr, .supply, .lanes, .combs, .arb, .hive, .receipts, .wag, .wagEps, .time, .store, .staging, .power,
    .close, .ports, .portsCfg, .waits, .exports, .tiles, .keys, .rng, .tamper, .aon, .log, .life, .dbg, .cores, .flash,
    .settings, .field, .out]) : (Dev.pgoodFall d).get π = d.get π := by
  simp at hπ
  unfold Dev.pgoodFall; simp [hπ]
@[simp] theorem Dev.aonLoss_frame (d : Dev) {π : DevPart}
    (hπ : π ∉ [DevPart.supply, .time, .power, .keys, .aon, .log, .life]) : (Dev.aonLoss d).get π = d.get π := by
  simp at hπ
  unfold Dev.aonLoss; simp [hπ]
@[simp] theorem Dev.aonReturn_frame (d : Dev) (cell : Bool) {π : DevPart}
    (hπ : π ∉ [DevPart.supply, .time, .power]) : (Dev.aonReturn d cell).get π = d.get π := by
  simp at hπ
  unfold Dev.aonReturn; simp [hπ]
@[simp] theorem Dev.pfailAssert_frame (d : Dev) {π : DevPart}
    (hπ : π ∉ [DevPart.ctr, .lanes, .combs, .hive, .receipts, .wag, .store, .staging, .power, .close, .ports, .portsCfg,
    .waits, .exports, .tiles, .keys, .rng, .aon, .log, .life, .dbg, .flash, .settings, .field, .out]) : (Dev.pfailAssert
    d).get π = d.get π := by
  simp at hπ
  unfold Dev.pfailAssert; simp [hπ]
@[simp] theorem Dev.pfailDeassert_frame (d : Dev) {π : DevPart}
    (hπ : π ∉ [DevPart.power, .close]) : (Dev.pfailDeassert d).get π = d.get π := by
  simp at hπ
  unfold Dev.pfailDeassert; simp [hπ]
@[simp] theorem Dev.pfailRestart_frame (d : Dev) {π : DevPart}
    (hπ : π ∉ [DevPart.ctr, .supply, .lanes, .combs, .arb, .hive, .receipts, .wag, .wagEps, .time, .store, .staging, .power,
    .close, .ports, .portsCfg, .waits, .exports, .tiles, .keys, .rng, .tamper, .log, .life, .dbg, .cores, .flash, .settings,
    .field]) : (Dev.pfailRestart d).get π = d.get π := by
  simp at hπ
  generalize h : Dev.pfailRestart d = r
  unfold Dev.pfailRestart at h
  (repeat' split at h) <;> subst h <;> simp [hπ]
@[simp] theorem Dev.closeFinish_frame (d : Dev) {π : DevPart}
    (hπ : π ∉ [DevPart.ctr, .supply, .lanes, .combs, .arb, .hive, .receipts, .wag, .wagEps, .time, .store, .staging, .power,
    .close, .ports, .portsCfg, .waits, .exports, .tiles, .keys, .rng, .tamper, .aon, .log, .life, .dbg, .cores, .flash,
    .settings, .field, .out]) : (Dev.closeFinish d).get π = d.get π := by
  simp at hπ
  unfold Dev.closeFinish
  dsimp only
  (repeat' split) <;> simp [hπ]
@[simp] theorem Dev.closeRecorded_frame (d : Dev) {π : DevPart}
    (hπ : π ∉ [DevPart.ctr, .lanes, .time, .store, .power, .close, .ports, .rng, .aon, .log, .field, .out]) : (Dev.closeRecorded
    d).get π = d.get π := by
  simp at hπ
  unfold Dev.closeRecorded; simp [hπ]
@[simp] theorem Dev.trigger_frame (d : Dev) (line : Nat) {π : DevPart}
    (hπ : π ∉ [DevPart.lanes, .store, .staging, .close, .ports, .aon, .log, .out]) : (Dev.trigger d line).get π = d.get π :=
    by
  simp at hπ
  unfold Dev.trigger; simp [hπ]
@[simp] theorem Dev.gpioEdge_frame (d : Dev) (line : Nat) (level : Bool) {π : DevPart}
    (hπ : π ∉ [DevPart.ctr, .supply, .lanes, .combs, .arb, .hive, .receipts, .wag, .wagEps, .time, .store, .staging, .power,
    .close, .ports, .portsCfg, .waits, .exports, .tiles, .keys, .rng, .tamper, .aon, .log, .life, .dbg, .cores, .flash,
    .settings, .field, .out]) : (Dev.gpioEdge d line level).get π = d.get π := by
  simp at hπ
  unfold Dev.gpioEdge; simp [hπ]
@[simp] theorem Dev.triggerPlace_frame (d : Dev) {π : DevPart}
    (hπ : π ∉ [DevPart.store, .ports, .aon, .log, .out]) : (Dev.triggerPlace d).get π = d.get π := by
  simp at hπ
  generalize h : Dev.triggerPlace d = r
  unfold Dev.triggerPlace at h
  (repeat' split at h) <;> subst h <;> simp [hπ]

end Sys2Proof.Machine
end

