-- ==== Sys2Proof/Laws/FrameRegTime.lean ====
section
/-! SUPPORT. The parts of the device that each operation of Machine/RegTime.lean leaves as they were: all but those named. -/
namespace Sys2Proof.Machine

@[simp] theorem Dev.latchPair_frame (d : Dev) (who : Requester) (reg : Nat) {π : DevPart}
    (hπ : π ∉ [DevPart.time]) : (Dev.latchPair d who reg).get π = d.get π := by
  simp at hπ
  generalize h : Dev.latchPair d who reg = r
  unfold Dev.latchPair at h
  (repeat' split at h) <;> subst h <;> simp [hπ]
@[simp] theorem Dev.timeCfgWrite_frame (d : Dev) (ok : Bool) (f : TimeCfg → TimeCfg) {π : DevPart}
    (hπ : π ∉ [DevPart.time]) : (Dev.timeCfgWrite d ok f).get π = d.get π := by
  simp at hπ
  unfold Dev.timeCfgWrite; simp [hπ]
@[simp] theorem Dev.onAlarm_frame (d : Dev) (n : Nat) (f : Alarm → Alarm) {π : DevPart}
    (hπ : π ∉ [DevPart.time]) : (Dev.onAlarm d n f).get π = d.get π := by
  simp at hπ
  unfold Dev.onAlarm; simp [hπ]
@[simp] theorem Dev.alarmCtrl_frame (d : Dev) (v : Nat) {π : DevPart}
    (hπ : π ∉ [DevPart.ctr, .supply, .lanes, .combs, .arb, .hive, .receipts, .wag, .wagEps, .time, .store, .staging, .power,
    .close, .ports, .portsCfg, .waits, .exports, .tiles, .keys, .rng, .tamper, .log, .life, .dbg, .cores, .flash, .settings,
    .field, .out]) : (Dev.alarmCtrl d v).get π = d.get π := by
  simp at hπ
  unfold Dev.alarmCtrl; simp [hπ]
@[simp] theorem Dev.timeWrite_frame (d : Dev) (machine : Bool) (i v : Nat) {π : DevPart}
    (hπ : π ∉ [DevPart.ctr, .supply, .lanes, .combs, .arb, .hive, .receipts, .wag, .wagEps, .time, .store, .staging, .power,
    .close, .ports, .portsCfg, .waits, .exports, .tiles, .keys, .rng, .tamper, .aon, .log, .life, .dbg, .cores, .flash,
    .settings, .field, .out]) : (Dev.timeWrite d machine i v).get π = d.get π := by
  simp at hπ
  generalize h : Dev.timeWrite d machine i v = r
  unfold Dev.timeWrite at h
  (repeat' split at h) <;> subst h <;> simp [hπ]

end Sys2Proof.Machine
end

