-- ==== Sys2Proof/Laws/FrameTiles.lean ====
section
/-! SUPPORT. The parts of the device that each operation of Machine/Tiles.lean leaves as they were: all but those named. -/
namespace Sys2Proof.Machine

@[simp] theorem Dev.tileJob_frame (d : Dev) (t op : Nat) {π : DevPart}
    (hπ : π ∉ [DevPart.tiles, .ctr, .rng]) : (Dev.tileJob d t op).get π = d.get π := by
  simp at hπ
  unfold Dev.tileJob; simp [hπ]

end Sys2Proof.Machine
end

