-- ==== Sys2Proof/Laws/FrameRegKeys.lean ====
section
/-! SUPPORT. The parts of the device that each operation of Machine/RegKeys.lean leaves as they were: all but those named. -/
namespace Sys2Proof.Machine

@[simp] theorem Dev.pkCfg_frame (d : Dev) (sub v : Nat) {π : DevPart}
    (hπ : π ∉ [DevPart.tiles, .cores]) : (Dev.pkCfg d sub v).get π = d.get π := by
  simp at hπ
  unfold Dev.pkCfg
  dsimp only
  (repeat' split) <;> simp [hπ]
@[simp] theorem Dev.pkAbort_frame (d : Dev) (sub tag : Nat) {π : DevPart}
    (hπ : π ∉ [DevPart.tiles, .cores]) : (Dev.pkAbort d sub tag).get π = d.get π := by
  simp at hπ
  unfold Dev.pkAbort; simp [hπ]
@[simp] theorem Dev.pkQueueWrite_frame (d : Dev) (sub i v : Nat) {π : DevPart}
    (hπ : π ∉ [DevPart.tiles, .cores]) : (Dev.pkQueueWrite d sub i v).get π = d.get π := by
  simp at hπ
  unfold Dev.pkQueueWrite
  dsimp only
  (repeat' split) <;> simp [hπ]
@[simp] theorem Dev.pkWrite_frame (d : Dev) (i v : Nat) {π : DevPart}
    (hπ : π ∉ [DevPart.ports, .tiles, .aon, .log, .cores, .out]) : (Dev.pkWrite d i v).get π = d.get π := by
  simp at hπ
  generalize h : Dev.pkWrite d i v = r
  unfold Dev.pkWrite at h
  (repeat' split at h) <;> subst h <;> simp [hπ]
@[simp] theorem Dev.keyOpGo_frame (d : Dev) (who v : Nat) {π : DevPart}
    (hπ : π ∉ [DevPart.ctr, .lanes, .keys, .rng, .cores]) : (Dev.keyOpGo d who v).get π = d.get π := by
  simp at hπ
  generalize h : Dev.keyOpGo d who v = r
  unfold Dev.keyOpGo at h
  (repeat' split at h) <;> subst h <;> simp [hπ]
@[simp] theorem Dev.keyOwnWrite_frame (d : Dev) (who i v : Nat) {π : DevPart}
    (hπ : π ∉ [DevPart.ctr, .lanes, .keys, .rng, .cores]) : (Dev.keyOwnWrite d who i v).get π = d.get π := by
  simp at hπ
  generalize h : Dev.keyOwnWrite d who i v = r
  unfold Dev.keyOwnWrite at h
  (repeat' split at h) <;> subst h <;> simp [hπ]
@[simp] theorem Dev.keyRegWrite_frame (d : Dev) (machine : Bool) (i v : Nat) {π : DevPart}
    (hπ : π ∉ [DevPart.ctr, .lanes, .keys, .rng, .cores]) : (Dev.keyRegWrite d machine i v).get π = d.get π := by
  simp at hπ
  generalize h : Dev.keyRegWrite d machine i v = r
  unfold Dev.keyRegWrite at h
  (repeat' split at h) <;> subst h <;> simp [hπ]
@[simp] theorem Dev.rngErr_frame (d : Dev) {π : DevPart} (hπ : π ∉ [DevPart.rng]) : (Dev.rngErr d).get π = d.get π := by
  simp at hπ
  unfold Dev.rngErr; simp [hπ]
@[simp] theorem Dev.instWrite_frame (d : Dev) (i r v : Nat) {π : DevPart}
    (hπ : π ∉ [DevPart.rng]) : (Dev.instWrite d i r v).get π = d.get π := by
  simp at hπ
  generalize h : Dev.instWrite d i r v = r
  unfold Dev.instWrite at h
  (repeat' split at h) <;> subst h <;> simp [hπ]
@[simp] theorem Dev.tmpPut_frame (d : Dev) (machine ok : Bool) (f : TmpCfg → TmpCfg) {π : DevPart}
    (hπ : π ∉ [DevPart.tamper]) : (Dev.tmpPut d machine ok f).get π = d.get π := by
  simp at hπ
  unfold Dev.tmpPut; simp [hπ]
@[simp] theorem Dev.tmpLatchClear_frame (d : Dev) (v : Nat) {π : DevPart}
    (hπ : π ∉ [DevPart.tamper, .aon]) : (Dev.tmpLatchClear d v).get π = d.get π := by
  simp at hπ
  unfold Dev.tmpLatchClear; simp [hπ]
@[simp] theorem Dev.tmpCtrl_frame (d : Dev) (machine : Bool) (v : Nat) {π : DevPart}
    (hπ : π ∉ [DevPart.ctr, .supply, .lanes, .combs, .arb, .hive, .receipts, .wag, .wagEps, .time, .store, .staging, .power,
    .close, .ports, .portsCfg, .waits, .exports, .tiles, .keys, .rng, .tamper, .aon, .log, .life, .dbg, .cores, .flash,
    .settings, .field, .out]) : (Dev.tmpCtrl d machine v).get π = d.get π := by
  simp at hπ
  unfold Dev.tmpCtrl
  (repeat' split) <;> simp [hπ]
@[simp] theorem Dev.tmpWrite_frame (d : Dev) (machine : Bool) (i v : Nat) {π : DevPart}
    (hπ : π ∉ [DevPart.ctr, .supply, .lanes, .combs, .arb, .hive, .receipts, .wag, .wagEps, .time, .store, .staging, .power,
    .close, .ports, .portsCfg, .waits, .exports, .tiles, .keys, .rng, .tamper, .aon, .log, .life, .dbg, .cores, .flash,
    .settings, .field, .out]) : (Dev.tmpWrite d machine i v).get π = d.get π := by
  simp at hπ
  unfold Dev.tmpWrite
  (repeat' split) <;> simp [hπ]
@[simp] theorem Dev.logLatch_frame (d : Dev) (who : Requester) (i : Nat) {π : DevPart}
    (hπ : π ∉ [DevPart.time]) : (Dev.logLatch d who i).get π = d.get π := by
  simp at hπ
  generalize h : Dev.logLatch d who i = r
  unfold Dev.logLatch at h
  (repeat' split at h) <;> subst h <;> simp [hπ]
@[simp] theorem Dev.onLog_frame (d : Dev) (f : Log → Log) {π : DevPart}
    (hπ : π ∉ [DevPart.log]) : (Dev.onLog d f).get π = d.get π := by
  simp at hπ
  unfold Dev.onLog; simp [hπ]
@[simp] theorem Dev.logWrite_frame (d : Dev) (i v : Nat) {π : DevPart}
    (hπ : π ∉ [DevPart.ports, .aon, .log, .out]) : (Dev.logWrite d i v).get π = d.get π := by
  simp at hπ
  generalize h : Dev.logWrite d i v = r
  unfold Dev.logWrite at h
  (repeat' split at h) <;> subst h <;> simp [hπ]

end Sys2Proof.Machine
end

