-- ==== Sys2Proof/Laws/FrameLifeRows.lean ====
section
/-! SUPPORT. The parts of the device that each operation of Machine/LifeRows.lean leaves as they were: all but those named. -/
namespace Sys2Proof.Machine

@[simp] theorem Dev.tapLoad_frame (d : Dev) (code : Nat) (full : Bool) (f : Dev → Dev) {π : DevPart} (hf : ∀ y0, (f y0).get π
    = y0.get π)
    (hπ : π ∉ [DevPart.dbg]) : (Dev.tapLoad d code full f).get π = d.get π := by
  simp at hπ
  unfold Dev.tapLoad; simp [hπ, hf]

end Sys2Proof.Machine
end

