-- ==== Sys2Proof/Laws/FrameRegLife.lean ====
section
/-! SUPPORT. The parts of the device that each operation of Machine/RegLife.lean leaves as they were: all but those named. -/
namespace Sys2Proof.Machine

@[simp] theorem Dev.lcWrite_frame (d : Dev) (i v : Nat) {π : DevPart}
    (hπ : π ∉ [DevPart.life]) : (Dev.lcWrite d i v).get π = d.get π := by
  simp at hπ
  unfold Dev.lcWrite; simp [hπ]
@[simp] theorem Dev.hitClear_frame (d : Dev) {π : DevPart}
    (hπ : π ∉ [DevPart.dbg]) : (Dev.hitClear d).get π = d.get π := by
  simp at hπ
  unfold Dev.hitClear; simp [hπ]
@[simp] theorem Dev.chalTimeWrite_frame (d : Dev) (v : Nat) {π : DevPart}
    (hπ : π ∉ [DevPart.life, .dbg]) : (Dev.chalTimeWrite d v).get π = d.get π := by
  simp at hπ
  unfold Dev.chalTimeWrite; simp [hπ]
@[simp] theorem Dev.dbgWrite_frame (d : Dev) (machine : Bool) (i v : Nat) {π : DevPart}
    (hπ : π ∉ [DevPart.hive, .receipts, .wag, .ports, .tiles, .aon, .log, .life, .dbg, .out]) : (Dev.dbgWrite d machine i
    v).get π = d.get π := by
  simp at hπ
  generalize h : Dev.dbgWrite d machine i v = r
  unfold Dev.dbgWrite at h
  (repeat' split at h) <;> subst h <;> simp [hπ]
@[simp] theorem Dev.dbgPortWrite_frame (d : Dev) (i v : Nat) {π : DevPart}
    (hπ : π ∉ [DevPart.hive, .receipts, .wag, .ports, .tiles, .keys, .aon, .log, .life, .dbg, .out]) : (Dev.dbgPortWrite d i
    v).get π = d.get π := by
  simp at hπ
  generalize h : Dev.dbgPortWrite d i v = r
  unfold Dev.dbgPortWrite at h
  (repeat' split at h) <;> subst h <;> simp [hπ]
@[simp] theorem Dev.cflWrite_frame (d : Dev) (i v : Nat) {π : DevPart}
    (hπ : π ∉ [DevPart.flash]) : (Dev.cflWrite d i v).get π = d.get π := by
  simp at hπ
  generalize h : Dev.cflWrite d i v = r
  unfold Dev.cflWrite at h
  (repeat' split at h) <;> subst h <;> simp [hπ]
@[simp] theorem Dev.fldCtrl_frame (d : Dev) (v : Nat) {π : DevPart}
    (hπ : π ∉ [DevPart.ports, .aon, .log, .field, .out]) : (Dev.fldCtrl d v).get π = d.get π := by
  simp at hπ
  unfold Dev.fldCtrl; simp [hπ]
@[simp] theorem Dev.fldKey_frame (d : Dev) (v : Nat) {π : DevPart}
    (hπ : π ∉ [DevPart.field]) : (Dev.fldKey d v).get π = d.get π := by
  simp at hπ
  unfold Dev.fldKey; simp [hπ]
@[simp] theorem Dev.fldWrite_frame (d : Dev) (machine : Bool) (i v : Nat) {π : DevPart}
    (hπ : π ∉ [DevPart.ports, .aon, .log, .field, .out]) : (Dev.fldWrite d machine i v).get π = d.get π := by
  simp at hπ
  generalize h : Dev.fldWrite d machine i v = r
  unfold Dev.fldWrite at h
  (repeat' split at h) <;> subst h <;> simp [hπ]
@[simp] theorem Dev.cpuWrite_frame (d : Dev) (n : Nat) (machine : Bool) (i v : Nat) {π : DevPart}
    (hπ : π ∉ [DevPart.cores]) : (Dev.cpuWrite d n machine i v).get π = d.get π := by
  simp at hπ
  unfold Dev.cpuWrite; simp [hπ]
@[simp] theorem Dev.mpuWrite_frame (d : Dev) (n i v : Nat) {π : DevPart}
    (hπ : π ∉ [DevPart.cores]) : (Dev.mpuWrite d n i v).get π = d.get π := by
  simp at hπ
  unfold Dev.mpuWrite; simp [hπ]
@[simp] theorem Dev.mpuSettle_frame (d : Dev) (n : Nat) {π : DevPart}
    (hπ : π ∉ [DevPart.cores]) : (Dev.mpuSettle d n).get π = d.get π := by
  simp at hπ
  unfold Dev.mpuSettle; simp [hπ]

end Sys2Proof.Machine
end

