-- ==== Sys2Proof/Laws/FrameRegPower.lean ====
section
/-! SUPPORT. The parts of the device that each operation of Machine/RegPower.lean leaves as they were: all but those named. -/
namespace Sys2Proof.Machine

@[simp] theorem Dev.pwrCtrl_frame (d : Dev) (v : Nat) {π : DevPart}
    (hπ : π ∉ [DevPart.ctr, .supply, .lanes, .combs, .hive, .receipts, .wag, .time, .store, .staging, .power, .close, .ports,
    .portsCfg, .waits, .exports, .tiles, .keys, .rng, .aon, .log, .life, .dbg, .flash, .settings, .field, .out]) :
    (Dev.pwrCtrl d v).get π = d.get π := by
  simp at hπ
  unfold Dev.pwrCtrl; simp [hπ]
@[simp] theorem Dev.pwrWrite_frame (d : Dev) (i v : Nat) {π : DevPart}
    (hπ : π ∉ [DevPart.ctr, .supply, .lanes, .combs, .arb, .hive, .receipts, .wag, .wagEps, .time, .store, .staging, .power,
    .close, .ports, .portsCfg, .waits, .exports, .tiles, .keys, .rng, .tamper, .aon, .log, .life, .dbg, .cores, .flash,
    .settings, .field, .out]) : (Dev.pwrWrite d i v).get π = d.get π := by
  simp at hπ
  generalize h : Dev.pwrWrite d i v = r
  unfold Dev.pwrWrite at h
  (repeat' split at h) <;> subst h <;> simp [hπ]
@[simp] theorem Dev.onNotices_frame (d : Dev) (p : Nat) (f : Notices → Notices) {π : DevPart}
    (hπ : π ∉ [DevPart.ports]) : (Dev.onNotices d p f).get π = d.get π := by
  simp at hπ
  unfold Dev.onNotices; simp [hπ]
@[simp] theorem Dev.noticeCfg_frame (d : Dev) (p v : Nat) {π : DevPart}
    (hπ : π ∉ [DevPart.ports]) : (Dev.noticeCfg d p v).get π = d.get π := by
  simp at hπ
  unfold Dev.noticeCfg; simp [hπ]
@[simp] theorem Dev.mbxWrite_frame (d : Dev) (p i v : Nat) {π : DevPart}
    (hπ : π ∉ [DevPart.receipts, .store, .ports, .portsCfg, .waits, .exports, .keys, .rng, .log, .life, .settings, .field, .out, .aon]) : (Dev.mbxWrite d p i v).get π = d.get π := by
  simp at hπ
  unfold Dev.mbxWrite
  dsimp only
  (repeat' split) <;> simp [hπ]
@[simp] theorem Dev.mbxRange_frame (d : Dev) {π : DevPart}
    (hπ : π ∉ [DevPart.ports]) : (Dev.mbxRange d).get π = d.get π := by
  simp at hπ
  unfold Dev.mbxRange; simp [hπ]
@[simp] theorem Dev.mbxTimeWrite_frame (d : Dev) (i v : Nat) {π : DevPart}
    (hπ : π ∉ [DevPart.ports, .portsCfg]) : (Dev.mbxTimeWrite d i v).get π = d.get π := by
  simp at hπ
  generalize h : Dev.mbxTimeWrite d i v = r
  unfold Dev.mbxTimeWrite at h
  (repeat' split at h) <;> subst h <;> simp [hπ]
@[simp] theorem Dev.ethWrite_frame (d : Dev) (p i v : Nat) {π : DevPart}
    (hπ : π ∉ [DevPart.ports]) : (Dev.ethWrite d p i v).get π = d.get π := by
  simp at hπ
  generalize h : Dev.ethWrite d p i v = r
  unfold Dev.ethWrite at h
  (repeat' split at h) <;> subst h <;> simp [hπ]

end Sys2Proof.Machine
end

