-- ==== Sys2Proof/Laws/FrameRegStore.lean ====
section
/-! SUPPORT. The parts of the device that each operation of Machine/RegStore.lean leaves as they were: all but those named. -/
namespace Sys2Proof.Machine

@[simp] theorem Dev.storWrite_frame (d : Dev) (i v : Nat) {π : DevPart}
    (hπ : π ∉ [DevPart.store]) : (Dev.storWrite d i v).get π = d.get π := by
  simp at hπ
  generalize h : Dev.storWrite d i v = r
  unfold Dev.storWrite at h
  (repeat' split at h) <;> subst h <;> simp [hπ]
@[simp] theorem Dev.stgEnable_frame (d : Dev) (on : Bool) {π : DevPart}
    (hπ : π ∉ [DevPart.lanes, .staging]) : (Dev.stgEnable d on).get π = d.get π := by
  simp at hπ
  unfold Dev.stgEnable; simp [hπ]
@[simp] theorem Dev.stgWrite_frame (d : Dev) (i v : Nat) {π : DevPart}
    (hπ : π ∉ [DevPart.lanes, .staging]) : (Dev.stgWrite d i v).get π = d.get π := by
  simp at hπ
  generalize h : Dev.stgWrite d i v = r
  unfold Dev.stgWrite at h
  (repeat' split at h) <;> subst h <;> simp [hπ]

end Sys2Proof.Machine
end

