-- ==== Sys2Proof/Laws/FrameIoSpace.lean ====
section
/-! SUPPORT. The parts of the device that each operation of Machine/IoSpace.lean leaves as they were: all but those named. -/
namespace Sys2Proof.Machine

@[simp] theorem Dev.blkTouch_frame (d : Dev) (who : Requester) (b : Blk) (i : Nat) {π : DevPart}
    (hπ : π ∉ [DevPart.lanes, .time, .store]) : (Dev.blkTouch d who b i).get π = d.get π := by
  simp at hπ
  generalize h : Dev.blkTouch d who b i = r
  unfold Dev.blkTouch at h
  (repeat' split at h) <;> subst h <;> simp [hπ]
@[simp] theorem Dev.hostWrite_frame (d : Dev) (p : Nat) (b : Blk) (i v : Nat) {π : DevPart}
    (hπ : π ∉ [DevPart.lanes, .receipts, .store, .ports, .portsCfg, .waits, .exports, .keys, .rng, .aon, .log, .life,
    .settings, .field, .out]) : (Dev.hostWrite d p b i v).get π = d.get π := by
  simp at hπ
  generalize h : Dev.hostWrite d p b i v = r
  unfold Dev.hostWrite at h
  (repeat' split at h) <;> subst h <;> simp [hπ]
@[simp] theorem Dev.windowByte_frame (d : Dev) (p s off : Nat) (v : Byte) {π : DevPart}
    (hπ : π ∉ [DevPart.ports]) : (Dev.windowByte d p s off v).get π = d.get π := by
  simp at hπ
  unfold Dev.windowByte; simp [hπ]
@[simp] theorem Dev.barWindow_frame (d : Dev) (p off : Nat) (v : Byte) {π : DevPart}
    (hπ : π ∉ [DevPart.ports]) : (Dev.barWindow d p off v).get π = d.get π := by
  simp at hπ
  unfold Dev.barWindow; simp [hπ]
@[simp] theorem Dev.bulkByte_frame (d : Dev) (p off : Nat) (v : Byte) {π : DevPart}
    (hπ : π ∉ [DevPart.ports]) : (Dev.bulkByte d p off v).get π = d.get π := by
  simp at hπ
  unfold Dev.bulkByte; simp [hπ]
@[simp] theorem Dev.msixWrite_frame (d : Dev) (p i v : Nat) {π : DevPart}
    (hπ : π ∉ [DevPart.ports, .out]) : (Dev.msixWrite d p i v).get π = d.get π := by
  simp at hπ
  unfold Dev.msixWrite; simp [hπ]
@[simp] theorem Dev.mgtPut_frame (d : Dev) (a : Nat) (z1 : List Byte) {π : DevPart}
    (hπ : π ∉ [DevPart.receipts, .store, .ports, .portsCfg, .waits, .exports, .keys, .rng, .log, .life, .settings, .field, .out, .aon]) : (Dev.mgtPut d a z1).get π = d.get π := by
  simp at hπ
  induction z1 generalizing d a <;> unfold Dev.mgtPut <;> simp [*]

end Sys2Proof.Machine
end

