-- ==== Sys2Proof/Laws/FrameCpuMem.lean ====
section
/-! SUPPORT. The parts of the device that each operation of Machine/CpuMem.lean leaves as they were: all but those named. -/
namespace Sys2Proof.Machine

@[simp] theorem Dev.bankWord_frame (d : Dev) (b off : Nat) {π : DevPart}
    (hπ : π ∉ [DevPart.ctr]) : (Dev.bankWord d b off).2.get π = d.get π := by
  simp at hπ
  unfold Dev.bankWord; simp [hπ]
@[simp] theorem Dev.ispaceWord_frame (d : Dev) (n a : Nat) {π : DevPart}
    (hπ : π ∉ [DevPart.ctr]) : (Dev.ispaceWord d n a).2.get π = d.get π := by
  simp at hπ
  unfold Dev.ispaceWord; simp [hπ]

end Sys2Proof.Machine
end

