-- ==== Sys2Proof/Laws/FrameRegRows.lean ====
section
/-! SUPPORT. The parts of the device that each operation of Machine/RegRows.lean leaves as they were: all but those named. -/
namespace Sys2Proof.Machine

@[simp] theorem Dev.mgtStart_frame (d : Dev) (held : Bool) (f : Dev → Dev) {π : DevPart} (hf : ∀ y0, (f y0).get π = y0.get π)
    (hπ : π ∉ [DevPart.portsCfg, .arb, .close, .combs, .cores, .ctr, .dbg, .exports, .field, .flash, .hive, .lanes, .life, .log, .out, .ports, .power, .receipts, .rng, .settings, .staging, .store, .supply, .tamper, .tiles, .time, .wag, .wagEps, .waits, .keys]) : (Dev.mgtStart d held f).get π = d.get π := by
  simp at hπ
  unfold Dev.mgtStart; simp [hπ, hf]
@[simp] theorem Dev.dbgStandby_frame (d : Dev) (wr : Bool) (space n a : Nat) {π : DevPart}
    (hπ : π ∉ [DevPart.out]) : (Dev.dbgStandby d wr space n a).get π = d.get π := by
  simp at hπ
  unfold Dev.dbgStandby; simp [hπ]

end Sys2Proof.Machine
end

