-- ==== Sys2Proof/Laws/FrameTickOps.lean ====
section
/-! SUPPORT. The parts of the device that each operation of Machine/TickOps.lean leaves as they were: all but those named. -/
namespace Sys2Proof.Machine

@[simp] theorem Dev.edgeOver_frame (d : Dev) {π : DevPart}
    (hπ : π ∉ [DevPart.aon, .hive, .lanes, .log, .out, .ports, .receipts, .tiles]) : (Dev.edgeOver d).get π = d.get π := by
  simp at hπ
  unfold Dev.edgeOver; simp [hπ]
@[simp] theorem Dev.edgeComes_frame (d : Dev) (was : Bool) {π : DevPart}
    (hπ : π ∉ [DevPart.lanes, .wag]) : (Dev.edgeComes d was).get π = d.get π := by
  simp at hπ
  unfold Dev.edgeComes; simp [hπ]
@[simp] theorem Dev.fastCount_frame (d : Dev) {π : DevPart}
    (hπ : π ∉ [DevPart.clk, .time, .cores]) : (Dev.fastCount d).get π = d.get π := by
  simp at hπ
  unfold Dev.fastCount; simp [hπ]
@[simp] theorem Dev.fastTick_frame (d : Dev) {π : DevPart}
    (hπ : π ∉ [DevPart.clk, .ctr, .lanes, .hive, .receipts, .wag, .wagEps, .time, .store, .staging, .power, .close, .ports, .tiles, .aon, .log, .cores, .out, .exports]) : (Dev.fastTick d).get π = d.get π := by
  simp at hπ
  unfold Dev.fastTick; simp [hπ]
@[simp] theorem Dev.slowTick_frame (d : Dev) {π : DevPart}
    (hπ : π ∉ [DevPart.clk, .time]) : (Dev.slowTick d).get π = d.get π := by
  simp at hπ
  unfold Dev.slowTick; simp [hπ]
@[simp] theorem Dev.tick_frame (d : Dev) {π : DevPart}
    (hπ : π ∉ [DevPart.clk, .ctr, .lanes, .hive, .receipts, .wag, .wagEps, .time, .store, .staging, .power, .close, .ports, .tiles, .aon, .log, .cores, .out, .exports]) : (Dev.tick d).get π = d.get π := by
  simp at hπ
  unfold Dev.tick
  (repeat' split) <;> simp [hπ]

end Sys2Proof.Machine
end

