-- ==== Sys2Proof/WellFormed.lean ====
section
/-! DEFINITION. Well-formed commands: their operands name units that the device numbers, and values that their fields hold.
The meanings are total, and answer ill-formed commands too. -/
namespace Sys2Proof

/-- A number below a bound. -/
def below (n bound : Nat) : Bool := decide (n < bound)

/-- Ports 0 to 4, of which 0, 1 and 4 have mailbox windows, 0 and 1 are PCI Express and 2 and 3 Ethernet (R247, R254). -/
def isPort (p : Nat) : Bool := below p 5
def hasMailbox (p : Nat) : Bool := Machine.isPcie p || p == 4

/-- Mailbox slots of a port, and sessions on P2 and P3 (R254). -/
def hasSlot (p s : Nat) : Bool := if Machine.isUdp p then below s 8 else if Machine.isPcie p then below s 4 else p == 4 && s == 0
def hasSession (p s : Nat) : Bool := if Machine.isUdp p then below s 8 else isPort p && s == 0

/-- Detectors A, B or both (R402). -/
def isDetector (det : Nat) : Bool := decide (1 ≤ det) && below det 4

/-- A requester that writes registers: cores 0 to 8, P0, P1 and P4 as 16, 17 and 20 (R3, R261, R274). -/
def isWriter (who bar width : Nat) : Bool :=
  (below who 9 || who == 16 || who == 17 || who == 20) && (bar == 0 || bar == 2 || bar == 4) && decide (1 ≤ width) && below width 5

/-- The checks of each command. -/
def Instr.wf : Instr → Bool
  | .pgoodRise => true
  | .resetHoldExpiry _ => true
  | .romHandOff _ => true
  | .timeStartWaitExpiry => true
  | .bootDone => true
  | .randomOutputReady => true
  | .storeScanDone => true
  | .reconcile => true
  | .startUpDone => true
  | .pgoodFall => true
  | .aonPowerLoss => true
  | .pfailNAssert => true
  | .pfailNDeassert => true
  | .pfailRestartWaitExpiry => true
  | .closeFlushDone => true
  | .closeFlushExpiry => true
  | .closeOpeningProgrammed => true
  | .schussEngineSlot lane _ => below lane 64
  | .sealCutoffExpiry _ => true
  | .finalSnapshot => true
  | .closeRecordProgrammed => true
  | .closeDeadlineExpiry => true
  | .closeDone => true
  | .modeRequest req => below req 8
  | .modeTransitionDone => true
  | .pwrShutdown => true
  | .gpioEdge line _ => below line 32
  | .timeCompensationInterval _ => true
  | .aonTrimWindow => true
  | .crystalWatchdogExpiry => true
  | .crystalReturn => true
  | .ppsEdge _ _ => true
  | .timeMeasSubmit _ => true
  | .timeRefToExpiry => true
  | .timeLabelArm => true
  | .forceHoldWrite _ => true
  | .timeAlarmFire n => below n 4
  | .counterLogCheckpoint _ => true
  | .latchedLoRead _ _ => true
  | .ptpEventMessage port _ => Machine.isUdp port
  | .snapshotIssue => true
  | .snapshotCapture => true
  | .hiveBoundary => true
  | .hiveRootComputed => true
  | .hiveCtrlDemand => true
  | .hiveCtrlAtArm => true
  | .hiveCtrlAtCancel => true
  | .hivePeriodNextWrite _ => true
  | .hiveEpochNextWrite _ => true
  | .epochBoundary => true
  | .epochLinkAppend lane => below lane 64
  | .hiveLinkMaxExpiry lane => below lane 64
  | .epochSignatureAppend lane => below lane 64
  | .wagBarrier _ => true
  | .wagBroadcast => true
  | .wagSnapshot => true
  | .wagReset _ => true
  | .wagEpArrive comb _ => below comb 8
  | .barrierRelease => true
  | .wagBarTimeoutExpiry => true
  | .wagOpComplete => true
  | .wagAckLimitExpiry ep => below ep 80
  | .ringInDoorbell port lane ring _ => Machine.isPcie port && below lane 64 && below ring 2
  | .ringCmpHeadWrite port lane ring _ => Machine.isPcie port && below lane 64 && below ring 2
  | .sealUnit lane ctx bytes _ => below lane 64 && below ctx 2 && (bytes.length == 64)
  | .verifyElement lane ctx bytes _ => below lane 64 && below ctx 2 && (bytes.length == 64)
  | .unitSuspend lane _ => below lane 64
  | .verifyComplete lane ctx _ _ => below lane 64 && below ctx 2
  | .unitResume lane _ => below lane 64
  | .suspMaxExpiry lane => below lane 64
  | .payloadFetchStart lane => below lane 64
  | .payloadFetchDone lane _ _ => below lane 64
  | .pcieCompletionTimeout lane ctx => below lane 64 && below ctx 2
  | .unitAccept lane => below lane 64
  | .engineStart lane => below lane 64
  | .segmentAppend lane => below lane 64
  | .completionEntryPost lane ring => below lane 64 && below ring 2
  | .outputWriteFault lane ring => below lane 64 && below ring 2
  | .coalTimeExpiry lane ring => below lane 64 && below ring 2
  | .arbAgeExpiry unit => below unit 73
  | .laneDrain lane => below lane 64
  | .drainComplete lane => below lane 64
  | .laneReset lane => below lane 64
  | .combClkEnWrite comb _ => below comb 8
  | .storeSqDoorbell _ => true
  | .storeRead _ => true
  | .storeProgram _ _ => true
  | .storeErase => true
  | .storeAppend _ _ => true
  | .storePin => true
  | .storeUnpin => true
  | .storeDescComplete _ _ _ => true
  | .storePageProgrammed block page _ => below block 16384 && below page 1024
  | .storeEraseDone block _ => below block 16384
  | .containerWriterTake _ => true
  | .ringPreerase => true
  | .triggerHoldPlace => true
  | .trigDebExpiry line => below line 32
  | .storTrigPopRead => true
  | .journalPageProgrammed _ => true
  | .stagingTrainDone _ _ => true
  | .stagingDrainDone => true
  | .mbxDoorbell port slot _ _ => hasMailbox port && hasSlot port slot
  | .mbxSlotAck port slot => hasMailbox port && hasSlot port slot
  | .mbxCtrlLogout port => hasMailbox port
  | .mbxNtcHeadWrite port _ => hasMailbox port
  | .udpHello port _ => Machine.isUdp port
  | .udpProve port _ => Machine.isUdp port
  | .udpRequest port _ => Machine.isUdp port
  | .udpNoticeAck port _ => Machine.isUdp port
  | .udpExportAck port _ => Machine.isUdp port
  | .udpLogout port _ => Machine.isUdp port
  | .ethReasmExpiry port sess => hasSession port sess && Machine.isUdp port
  | .ethRetxExpiry port sess => hasSession port sess && Machine.isUdp port
  | .challengeExpiry port sess => hasSession port sess
  | .mbxLockoutExpiry port => isPort port
  | .mbxIdleExpiry port sess => hasSession port sess
  | .pciePortReset port _ _ _ => Machine.isPcie port
  | .pcieD3hot port => Machine.isPcie port
  | .pcieD0Return port => Machine.isPcie port
  | .pcieL1Exit port => Machine.isPcie port
  | .pcieStandbyAccess port _ _ => Machine.isPcie port
  | .mgtWrite _ _ _ => true
  | .mgtRead _ _ _ => true
  | .mgtStandbyWake _ => true
  | .i2cSclLowExpiry => true
  | .getInfo port slot => hasSlot port slot
  | .authHello port slot => hasSlot port slot
  | .authProve port slot => hasSlot port slot
  | .logout port slot => hasSlot port slot
  | .bufWrite port slot => hasSlot port slot
  | .bufRead port slot => hasSlot port slot
  | .noticeSubscribe port slot => hasSlot port slot
  | .setMode port slot => hasSlot port slot
  | .shutdown port slot => hasSlot port slot
  | .recovery port slot => hasSlot port slot
  | .rngRead port slot => hasSlot port slot
  | .streamOpen port slot _ => hasSlot port slot
  | .streamClose port slot => hasSlot port slot
  | .verifyOpen port slot => hasSlot port slot
  | .verifyClose port slot => hasSlot port slot
  | .verifyReanchor port slot => hasSlot port slot
  | .ringRetarget port slot _ => Machine.isPcie port && hasSlot port slot
  | .streamStatus port slot => hasSlot port slot
  | .hiveDemand port slot => hasSlot port slot
  | .hiveAt port slot => hasSlot port slot
  | .hivePeriods port slot => hasSlot port slot
  | .hiveGet port slot => hasSlot port slot
  | .holdPlace port slot => hasSlot port slot
  | .holdRelease port slot => hasSlot port slot
  | .holdList port slot => hasSlot port slot
  | .storeExport port slot => hasSlot port slot
  | .storeInfo port slot => hasSlot port slot
  | .timeGet port slot => hasSlot port slot
  | .timeSet port slot => hasSlot port slot
  | .timeLabel port slot => hasSlot port slot
  | .timeAlarm port slot => hasSlot port slot
  | .identityGet port slot => hasSlot port slot
  | .keyDeliver port slot => hasSlot port slot
  | .keyStatement port slot => hasSlot port slot
  | .keyInfo port slot => hasSlot port slot
  | .logRead port slot => hasSlot port slot
  | .logFreeze port slot => hasSlot port slot
  | .logUnfreeze port slot => hasSlot port slot
  | .logClear port slot => hasSlot port slot
  | .lcGet port slot => hasSlot port slot
  | .lcTransition port slot => hasSlot port slot
  | .debugChallenge port slot => hasSlot port slot
  | .debugUnlock port slot => hasSlot port slot
  | .debugLock port slot => hasSlot port slot
  | .fieldStatus port slot => hasSlot port slot
  | .fieldPageUpdate port slot => hasSlot port slot
  | .fieldInventory port slot _ => hasSlot port slot
  | .fieldPair port slot _ _ _ _ _ => hasSlot port slot
  | .extLoad port slot => hasSlot port slot
  | .extStart port slot => hasSlot port slot
  | .extStop port slot => hasSlot port slot
  | .extStatus port slot => hasSlot port slot
  | .fwStage port slot => hasSlot port slot
  | .fwActivate port slot => hasSlot port slot
  | .setRead port slot => hasSlot port slot
  | .setWrite port slot => hasSlot port slot
  | .setCommit port slot => hasSlot port slot
  | .setDiscard port slot => hasSlot port slot
  | .fieldPageCommitExpiry => true
  | .fieldInventoryDurationExpiry => true
  | .pkSqDoorbell sub _ => below sub 9
  | .falconSign tile => below tile 8
  | .falconVerify tile => below tile 8
  | .falconKeygen tile => below tile 8
  | .mlkemKeygen tile => below tile 8
  | .mlkemEncaps tile => below tile 8
  | .mlkemDecaps tile => below tile 8
  | .ecdsaP384Sign tile => below tile 8
  | .ecdsaP384Verify tile => below tile 8
  | .p384Keygen tile => below tile 8
  | .ecdhP384 tile => below tile 8
  | .x25519 tile => below tile 8
  | .x25519Keygen tile => below tile 8
  | .rsaVerify tile => below tile 8
  | .tileYieldPoint tile => below tile 8
  | .tileJobComplete tile _ => below tile 8
  | .pkAbort sub _ => below sub 9
  | .pkTileEnWrite en => below en 256
  | .keyOpGenerate who _ => below who 9
  | .keyOpDerive who flavour _ _ => below who 9 && below flavour 4
  | .keyOpWrap who _ => below who 9
  | .keyOpUnwrap who _ => below who 9
  | .keyOpOpenDst who _ => below who 9
  | .keyOpClear who _ => below who 9
  | .keyOpLoadLane who _ => below who 9
  | .keyOpInfo who _ => below who 9
  | .keyLogRecordWritten _ => true
  | .kekPrepare _ => true
  | .keyEpochBoundary => true
  | .noiseHealthFail _ test => (test == 1 || test == 2)
  | .sourceStartupTestDone _ _ => true
  | .conditionerBlock => true
  | .rngRetestA => true
  | .rngRetestB => true
  | .rngKat _ => true
  | .rngIctrlReseed inst => below inst 9
  | .rngIctrlReinst inst => below inst 9
  | .reseedIntervalReached inst => below inst 9
  | .hostFillWindowExpiry => true
  | .sensorDetectorFire cls det _ _ => below cls 11 && isDetector det
  | .corroborationWindowExpiry => true
  | .filterWindowExpiry cls => below cls 11
  | .encDebExpiry _ => true
  | .tecIncrement => true
  | .tamperedEntryProgram _ => true
  | .tmpCfgCommit => true
  | .tmpInject cls det => below cls 11 && isDetector det
  | .logFlushExpiry => true
  | .logPageProgrammed _ => true
  | .logBlockEraseDone => true
  | .logSwGo _ => true
  | .lcEntryProgrammed _ => true
  | .retireStoreErase => true
  | .dbgCtrlLock => true
  | .dbgCtrlLcProvision => true
  | .dbgCtrlLcRetire => true
  | .dbgCoreHalt mask => below mask 512
  | .dbgCoreResume => true
  | .dbgCoreStep => true
  | .unlockWindowExpiry => true
  | .debugChallengeExpiry => true
  | .tapExtest => true
  | .tapSamplePreload _ => true
  | .tapIdcode => true
  | .tapClamp => true
  | .tapHighz => true
  | .tapDbgAccess _ space core _ _ => below core 9 && below space 16
  | .tapBypass => true
  | .cflSqDoorbell _ => true
  | .cflRead => true
  | .cflProgram => true
  | .cflErase => true
  | .cflActivate => true
  | .cflRdp => true
  | .cflRowProgrammed bank _ => below bank 2
  | .cflEraseDone bank _ => below bank 2
  | .cflEraseResumeExpiry bank => below bank 2
  | .cflFctrlWrite _ _ => true
  | .fieldCarrierRise => true
  | .carrierAbsenceExpiry => true
  | .fldBegin _ => true
  | .fldWalk plen pre _ => below plen 64 && below pre (2 ^ plen)
  | .fldSelect id _ => below id (2 ^ 64)
  | .fldReshuffle id _ => below id (2 ^ 64)
  | .fldSilence id _ => below id (2 ^ 64)
  | .fldAuth keyId _ _ => below keyId 256
  | .fldProve _ _ => true
  | .fldRead block _ => below block 256
  | .fldEnd _ => true
  | .fldPair _ => true
  | .sessionInactivityExpiry => true
  | .authWindowExpiry => true
  | .fieldLockoutExpiry => true
  | .readerReplyWindowExpiry _ => true
  | .fldWrPage => true
  | .fldWrPool => true
  | .fieldPageCommit _ => true
  | .fldKeyLoad slot keyId entry => below slot 2048 && below keyId 256 && below entry 2
  | .fldKeyClear slot keyId entry => below slot 2048 && below keyId 256 && below entry 2
  | .fldReaderEnable _ => true
  | .mpuCtrlEnWrite core _ => below core 9
  | .mpuUpdateSettle core => below core 9
  | .asyncEventTaken core => below core 9
  | .registerWrite who bar _ width _ _ => isWriter who bar width
  | .cpuAdd u _ => below u.core 9
  | .cpuSub u _ => below u.core 9
  | .cpuAddv u _ => below u.core 9
  | .cpuSubv u _ => below u.core 9
  | .cpuAnd u _ => below u.core 9
  | .cpuOr u _ => below u.core 9
  | .cpuXor u _ => below u.core 9
  | .cpuAndn u _ => below u.core 9
  | .cpuShl u _ => below u.core 9
  | .cpuShr u _ => below u.core 9
  | .cpuSar u _ => below u.core 9
  | .cpuRol u _ => below u.core 9
  | .cpuSlt u _ => below u.core 9
  | .cpuSltu u _ => below u.core 9
  | .cpuMin u _ => below u.core 9
  | .cpuMax u _ => below u.core 9
  | .cpuMinu u _ => below u.core 9
  | .cpuMaxu u _ => below u.core 9
  | .cpuMul u _ => below u.core 9
  | .cpuMulh u _ => below u.core 9
  | .cpuMulhu u _ => below u.core 9
  | .cpuDiv u _ => below u.core 9
  | .cpuDivu u _ => below u.core 9
  | .cpuRem u _ => below u.core 9
  | .cpuRemu u _ => below u.core 9
  | .cpuClz u _ => below u.core 9
  | .cpuPopc u _ => below u.core 9
  | .cpuAbs u _ => below u.core 9
  | .cpuExtb u _ => below u.core 9
  | .cpuInsb u _ => below u.core 9
  | .cpuAddi u _ => below u.core 9
  | .cpuAndi u _ => below u.core 9
  | .cpuOri u _ => below u.core 9
  | .cpuXori u _ => below u.core 9
  | .cpuSlti u _ => below u.core 9
  | .cpuSltiu u _ => below u.core 9
  | .cpuShli u _ => below u.core 9
  | .cpuShri u _ => below u.core 9
  | .cpuSari u _ => below u.core 9
  | .cpuLi u _ => below u.core 9
  | .cpuLih u _ => below u.core 9
  | .cpuLia u _ => below u.core 9
  | .cpuMova u _ => below u.core 9
  | .cpuMovd u _ => below u.core 9
  | .cpuAdda u _ => below u.core 9
  | .cpuSuba u _ => below u.core 9
  | .cpuAddai u _ => below u.core 9
  | .cpuMac u _ => below u.core 9
  | .cpuMsu u _ => below u.core 9
  | .cpuMacu u _ => below u.core 9
  | .cpuMpy u _ => below u.core 9
  | .cpuClrac u _ => below u.core 9
  | .cpuShac u _ => below u.core 9
  | .cpuExtac u _ => below u.core 9
  | .cpuExtacv u _ => below u.core 9
  | .cpuLdacl u _ => below u.core 9
  | .cpuLdacm u _ => below u.core 9
  | .cpuLdach u _ => below u.core 9
  | .cpuMfacl u _ => below u.core 9
  | .cpuMfacm u _ => below u.core 9
  | .cpuMfach u _ => below u.core 9
  | .cpuLd u _ => below u.core 9
  | .cpuSt u _ => below u.core 9
  | .cpuLda u _ => below u.core 9
  | .cpuSta u _ => below u.core 9
  | .cpuIn u _ => below u.core 9
  | .cpuOut u _ => below u.core 9
  | .cpuIld u _ => below u.core 9
  | .cpuIst u _ => below u.core 9
  | .cpuBcc u _ => below u.core 9
  | .cpuJ u _ => below u.core 9
  | .cpuCall u _ => below u.core 9
  | .cpuJr u _ => below u.core 9
  | .cpuCallr u _ => below u.core 9
  | .cpuLoop u _ => below u.core 9
  | .cpuNop u _ => below u.core 9
  | .cpuTrap u _ => below u.core 9
  | .cpuBrk u _ => below u.core 9
  | .cpuWait u _ => below u.core 9
  | .cpuFence u _ => below u.core 9
  | .cpuSynci u _ => below u.core 9
  | .cpuMfs u _ => below u.core 9
  | .cpuMts u _ => below u.core 9
  | .cpuRete u _ => below u.core 9
  | .ethLinkDown port => Machine.isUdp port
  | .arpNdpIcmpEcho port kind _ => Machine.isUdp port && below kind 4
  | .slewComplete => true
  | .errorBoundGrowth => true
  | .aonPowerReturn _ => true
  | .gcmTagFormed lane => below lane 64
  | .previousKekClear => true
  | .dieNoResponse _ => true
  | .cpuUndefinedEncoding u w => below u.core 9 && !Machine.definedWord w.toNat

end Sys2Proof
end

