-- ==== Sys2Proof/Tests/Slice0.lean ====
section
/-! SUPPORT. Tests: ill-formed commands that WellFormed refuses, states and operands that meet the hypotheses of the
statements, and single steps whose results the spec gives. -/
namespace Sys2Proof.Tests
open Sys2Proof Sys2Proof.Machine

-- One test after the other: each waits for the kernel, and would hold a thread of its own until its turn comes.
set_option Elab.async false

/-! Ill-formed commands: every check refuses a term that fails it alone. -/

/-- A fetch of core 9, which no part has, and of cores 0 and 1. -/
def u0 : Issue := { core := 0, fetchCode := true, dataCode := true }
def u9 : Issue := { core := 9, fetchCode := true, dataCode := true }
def u1 : Issue := { core := 1, fetchCode := true, dataCode := true }

def fR : FormR := { rd := 3#5, rs1 := 1#5, rs2 := 2#5, resv := 0#17 }
def fI : FormI := { rd := 3#5, rs1 := 1#5, imm := 5#30 }
def fL : FormL := { rd := 3#5, resv := 0#3, imm := 7#32 }
def fM : FormM := { rt := 3#5, ab := 1#4, mode := 0#3, ix := 2#5, disp := 4#23 }
def fB : FormB := { cond := 0#4, rs1 := 1#5, immf := false, opnd := 32#9, off := 8#21 }
def fJ : FormJ := { ra := 0#4, resv := 0#12, tgt := 64#24 }
def fP : FormP := { lvl := false, immf := true, rs := 0#5, resv := 0#1, cnt := 3#16, stop := 4#16 }
def fS : FormS := { sel := 0#6, reg := 1#5, resv := 0#5, imm := 0x1234#16 }

/-- Every command of the lists is refused. -/
abbrev allIll (ls : List (List Instr)) : Prop := (ls.all fun l => l.all fun i => !i.wf) = true

theorem test_ill_lanes : allIll [
    ([.schussEngineSlot 64 0, .unitSuspend 64 0, .unitResume 64 true, .payloadFetchDone 64 [] true] : List Instr),
    ([.epochLinkAppend, .hiveLinkMaxExpiry, .epochSignatureAppend, .suspMaxExpiry, .payloadFetchStart, .unitAccept, .engineStart,
         .segmentAppend, .laneDrain, .drainComplete, .laneReset, .gcmTagFormed] : List (Nat → Instr)).map (· 64),
    ([.pcieCompletionTimeout, .completionEntryPost, .outputWriteFault, .coalTimeExpiry] : List (Nat → Nat → Instr)).flatMap
        (fun i => [i 64 0, i 0 2]),
    ([.ringInDoorbell, .ringCmpHeadWrite] : List (Nat → Nat → Nat → Nat → Instr)).flatMap
        (fun i => [i 2 0 0 0, i 0 64 0 0, i 0 0 2 0]),
    ([.sealUnit, .verifyElement] : List (Nat → Nat → List Byte → Bool → Instr)).flatMap
        (fun i => [i 64 0 (zeros 64) true, i 0 2 (zeros 64) true, i 0 0 (zeros 63) true]),
    [.arbAgeExpiry 73, .verifyComplete 64 0 [] true, .verifyComplete 0 2 [] true]] := by decide +kernel

theorem test_ill_numbers : allIll [
    [.modeRequest 8, .gpioEdge 32 true, .timeAlarmFire 4, .wagEpArrive 8 0, .wagAckLimitExpiry 80,
    .combClkEnWrite 8 true, .storePageProgrammed 16384 0 true, .storePageProgrammed 0 1024 true, .storeEraseDone 16384 true,
    .trigDebExpiry 32, .pkSqDoorbell 9 0, .tileYieldPoint 8, .tileJobComplete 8 0, .pkAbort 9 0, .pkTileEnWrite 256,
    .noiseHealthFail true 0, .noiseHealthFail true 3, .rngIctrlReseed 9, .rngIctrlReinst 9, .reseedIntervalReached 9,
    .sensorDetectorFire 11 1 0 none, .sensorDetectorFire 0 0 0 none, .sensorDetectorFire 0 4 0 none, .filterWindowExpiry 11,
    .tmpInject 11 1, .tmpInject 0 0, .dbgCoreHalt 512, .tapDbgAccess true 16 0 0 0, .tapDbgAccess true 0 9 0 0,
    .cflRowProgrammed 2 true, .cflEraseDone 2 true, .cflEraseResumeExpiry 2, .fldWalk 64 0 true, .fldWalk 2 4 true,
    .fldAuth 256 [] true, .fldRead 256 true]] := by decide +kernel

theorem test_ill_link_and_keys : allIll [
    ([.fldSelect, .fldReshuffle, .fldSilence] : List (Nat → Bool → Instr)).map (· (2 ^ 64) true),
    ([.fldKeyLoad, .fldKeyClear] : List (Nat → Nat → Nat → Instr)).flatMap (fun i => [i 2048 0 0, i 0 256 0, i 0 0 2]),
    ([.keyOpGenerate, .keyOpWrap, .keyOpUnwrap, .keyOpOpenDst, .keyOpClear, .keyOpLoadLane, .keyOpInfo] :
        List (Nat → Bool → Instr)).map (· 9 false),
    [.keyOpDerive 9 0 false false, .keyOpDerive 0 4 false false],
    ([.falconSign, .falconVerify, .falconKeygen, .mlkemKeygen, .mlkemEncaps, .mlkemDecaps, .ecdsaP384Sign, .ecdsaP384Verify,
         .p384Keygen, .ecdhP384, .x25519, .x25519Keygen, .rsaVerify] : List (Nat → Instr)).map (· 8)] := by decide +kernel

theorem test_ill_ports : allIll [
    ([.mbxSlotAck] : List (Nat → Nat → Instr)).flatMap (fun i => [i 2 0, i 0 4, i 4 1]),
    [.mbxDoorbell 3 0 0 0, .mbxDoorbell 1 4 0 0, .mbxCtrlLogout 2, .mbxNtcHeadWrite 3 0, .mbxLockoutExpiry 5, .ptpEventMessage 1 true,
        .ethLinkDown 4, .arpNdpIcmpEcho 0 0 [], .arpNdpIcmpEcho 2 4 [], .challengeExpiry 2 8, .challengeExpiry 0 1, .mbxIdleExpiry 5 0,
        .pciePortReset 2 true 0 0, .pcieStandbyAccess 4 0 true],
    ([.udpHello, .udpProve, .udpRequest, .udpNoticeAck, .udpExportAck, .udpLogout] : List (Nat → List Byte → Instr)).map (· 1 []),
    ([.ethReasmExpiry, .ethRetxExpiry] : List (Nat → Nat → Instr)).flatMap (fun i => [i 2 8, i 0 0]),
    ([.pcieD3hot, .pcieD0Return, .pcieL1Exit] : List (Nat → Instr)).map (· 2),
    [.registerWrite 9 0 0 4 true 0, .registerWrite 18 0 0 4 true 0, .registerWrite 0 1 0 4 true 0, .registerWrite 0 0 0 0 true 0,
        .registerWrite 0 0 0 5 true 0]] := by decide +kernel

theorem test_ill_host_commands : allIll [
    ([.getInfo, .authHello, .authProve, .logout, .bufWrite, .bufRead, .noticeSubscribe, .setMode,
      .shutdown, .recovery, .rngRead, fun p i => .streamOpen p i false, .streamClose, .verifyOpen, .verifyClose, .verifyReanchor,
      .streamStatus, .hiveDemand, .hiveAt, .hivePeriods, .hiveGet, .holdPlace, .holdRelease, .holdList, .storeExport, .storeInfo,
      .timeGet, .timeSet, .timeLabel, .timeAlarm, .identityGet, .keyDeliver, .keyStatement, .keyInfo, .logRead, .logFreeze,
      .logUnfreeze, .logClear, .lcGet, .lcTransition, .debugChallenge, .debugUnlock, .debugLock, .fieldStatus, .fieldPageUpdate,
      fun p i => .fieldInventory p i [], fun p i => .fieldPair p i none [] 0 0 0, .extLoad, .extStart, .extStop, .extStatus, .fwStage,
      .fwActivate, .setRead, .setWrite, .setCommit, .setDiscard] : List (Nat → Nat → Instr)).flatMap
        (fun i => [i 5 0, i 0 4, i 2 8, i 4 1]),
    [.ringRetarget 2 0 0, .ringRetarget 0 4 0]] := by decide +kernel

theorem test_ill_cores : allIll [
    ([.cpuAdd, .cpuSub, .cpuAddv, .cpuSubv, .cpuAnd, .cpuOr, .cpuXor, .cpuAndn, .cpuShl, .cpuShr, .cpuSar, .cpuRol,
      .cpuSlt, .cpuSltu, .cpuMin, .cpuMax, .cpuMinu, .cpuMaxu, .cpuMul, .cpuMulh, .cpuMulhu, .cpuDiv, .cpuDivu, .cpuRem, .cpuRemu,
      .cpuClz, .cpuPopc, .cpuAbs, .cpuExtb, .cpuInsb, .cpuMova, .cpuMovd, .cpuAdda, .cpuSuba, .cpuMac, .cpuMsu, .cpuMacu, .cpuMpy,
      .cpuClrac, .cpuShac, .cpuExtac, .cpuExtacv, .cpuLdacl, .cpuLdacm, .cpuLdach, .cpuMfacl, .cpuMfacm, .cpuMfach, .cpuJr, .cpuCallr] :
        List (Issue → FormR → Instr)).map (· u9 fR),
    ([.cpuAddi, .cpuAndi, .cpuOri, .cpuXori, .cpuSlti, .cpuSltiu, .cpuShli, .cpuShri, .cpuSari, .cpuAddai] :
        List (Issue → FormI → Instr)).map (· u9 fI),
    ([.cpuLi, .cpuLih, .cpuLia] : List (Issue → FormL → Instr)).map (· u9 fL),
    ([.cpuLd, .cpuSt, .cpuLda, .cpuSta, .cpuIn, .cpuOut, .cpuIld, .cpuIst] : List (Issue → FormM → Instr)).map (· u9 fM),
    ([.cpuNop, .cpuTrap, .cpuBrk, .cpuWait, .cpuFence, .cpuSynci, .cpuMfs, .cpuMts, .cpuRete] : List (Issue → FormS → Instr)).map (· u9 fS),
    [.cpuBcc u9 fB, .cpuJ u9 fJ, .cpuCall u9 fJ, .cpuLoop u9 fP, .cpuUndefinedEncoding u9 0, .cpuUndefinedEncoding u1 0x040000000000#48,
        .mpuCtrlEnWrite 9 0, .mpuUpdateSettle 9, .asyncEventTaken 9]] := by decide +kernel


/-! States that meet the hypotheses of the statements: one theorem for each statement, a case for each of its clauses. -/

/-- A device at work in RECORD: supplied, clocked, started, in FLEET, its time locked at 10 s. -/
def busy : Dev :=
  { clk := 20000000000
    supply := { pgood := true, clocks := true }
    power := { mode := .record, startStep := .done, bootDone := true }
    time := { servo := { run := true, dstate := .locked, acc := 10 * 2 ^ 64 } }
    life := { st := .fleet } }

/-- What is claimed of one device. -/
abbrev On (d : Dev) (P : Dev → Prop) : Prop := P d

abbrev at_ (d : Dev) : State := { dev := d }

/-! Kwaxon-48 -/

/-- Core `n` is `c`, and every comb is clocked; the device as an instruction of it finds it. -/
def cpu (n : Nat) (c : Core) : Dev := { busy with combs := Vector.replicate 8 { clkEn := true } }.onCore n fun _ => c
def found (n : Nat) (c : Core) : Dev := (cpu n c).onCore n fun c => { c with waiting := false }

/-- The instruction issues, and its fetch, at M or by the MPU's rules, is served without a cache. -/
def issues (n : Nat) (c : Core) : Bool :=
  let k := (cpu n c).core n
  (cpu n c).mayIssue n && (k.psw.priv == .machine || k.mpu.inForce) && ((cpu n c).mpuCheck n k.psw.priv 0 2 k.pc).isNone
    && decide (if n = 0 then k.pc < 0x4000 ∧ (cpu n c).flash.romOff = false else k.pc < 262144)

theorem starts_of (u : Issue) (c : Core) (hu : u.fetchCode = true) (h : issues u.core c = true) :
    Starts (at_ (cpu u.core c)) u (found u.core c) := by
  simp only [issues, Bool.and_eq_true, Bool.or_eq_true, beq_iff_eq, decide_eq_true_eq, Option.isNone_iff_eq_none] at h
  refine ⟨h.1.1.1, _, ?_, rfl⟩
  obtain ⟨⟨⟨-, hp⟩, hn⟩, ha⟩ := h
  have hr : (cpu u.core c).ispaceRead u.core 2 ((cpu u.core c).core u.core).pc u.fetchCode = .ok (cpu u.core c) := by
    by_cases h0 : u.core = 0
    · rw [h0] at ha ⊢
      simp only [↓reduceIte] at ha
      have h2 : ((cpu 0 c).core 0).pc < 0x200000 := by omega
      simp [Dev.ispaceRead, hu, ha, h2]
    · simp only [h0, ↓reduceIte] at ha
      simp [Dev.ispaceRead, hu, h0, ha]
  unfold Dev.fetch
  rcases hp with hp | hp
  · rw [hp] at hn
    simp [hp, hn, hr]
  · simp [hp, hn, hr]

/-- The same, and no delay slot is pending. -/
def ready (n : Nat) (c : Core) : Bool := issues n c && ((found n c).core n).slot.isNone

theorem runs_of (u : Issue) (c : Core) (hu : u.fetchCode = true) (h : ready u.core c = true) :
    Runs (at_ (cpu u.core c)) u (found u.core c) := by
  simp only [ready, Bool.and_eq_true, Option.isNone_iff_eq_none] at h
  refine ⟨starts_of u c hu h.1, fun x hx => ?_⟩
  rw [h.2] at hx; cases hx

/-- An instruction of comb controller 0, and of the supervisor. -/
theorem runs1 (c : Core) (h : ready 1 c = true) : Runs (at_ (cpu 1 c)) u1 (found 1 c) := runs_of u1 c rfl h
theorem starts1 (c : Core) (h : issues 1 c = true) : Starts (at_ (cpu 1 c)) u1 (found 1 c) := starts_of u1 c rfl h
theorem runs0 (c : Core) (h : ready 0 c = true) : Runs (at_ (cpu 0 c)) u0 (found 0 c) := runs_of u0 c rfl h

/-- D1 and D2, and AC1 and AC3, of a core at M. -/
def withD (a b : W48) : Core := { d := ((Vector.replicate 32 0#48).set 1 a).set 2 b, a := Vector.replicate 16 16#48 }

theorem witness_aluResults : Runs (at_ (cpu 1 (withD 5 3))) u1 (found 1 (withD 5 3)) ∧ fR.resv = 0#17 :=
  ⟨runs1 _ (by decide +kernel), rfl⟩

/-- A core whose sum of D1 and D2, and whose AC1 shifted by D2, overflow. -/
def wide (prec : Bool) (a b : W48) (x : Acc) : Core :=
  { withD a b with psw := { prec := prec }, ac := (Vector.replicate 4 0#112).set 1 x }

theorem witness_checkedAndFaultingResults :
    (Runs (at_ (cpu 1 (withD 5 3))) u1 (found 1 (withD 5 3)) ∧ On (found 1 (withD 5 3)) fun d =>
      let a := (d.core 1).dreg 1; let b := (d.core 1).dreg 2
      (a.toInt + b.toInt < 2 ^ 47 ∧ -(2 ^ 47) ≤ a.toInt + b.toInt) ∧ (a.toInt - b.toInt < 2 ^ 47 ∧ -(2 ^ 47) ≤ a.toInt - b.toInt)
        ∧ b ≠ 0#48 ∧ namesAc fR.rs1 ∧ ((d.core 1).acc 1).toInt / 2 ^ 3 < 2 ^ 47)
    ∧ (∀ prec, Runs (at_ (cpu 1 (wide prec 0x7FFFFFFFFFFF 1 (BitVec.ofNat 112 (2 ^ 48))))) u1 (found 1 (wide prec 0x7FFFFFFFFFFF 1 (BitVec.ofNat 112 (2 ^ 48)))))
    ∧ (∀ prec, On (found 1 (wide prec 0x7FFFFFFFFFFF 1 (BitVec.ofNat 112 (2 ^ 48)))) fun d => (d.core 1).psw.prec = prec
        ∧ ¬ ((d.core 1).dreg 1).toInt + ((d.core 1).dreg 2).toInt < 2 ^ 47 ∧ 2 ^ 47 ≤ ((d.core 1).acc 1).toInt / 2 ^ 1)
    ∧ (∀ prec, Runs (at_ (cpu 1 (wide prec 0x800000000000 0 (BitVec.ofInt 112 (-(2 ^ 48)))))) u1 (found 1 (wide prec 0x800000000000 0 (BitVec.ofInt 112 (-(2 ^ 48))))))
    ∧ (∀ prec, On (found 1 (wide prec 0x800000000000 0 (BitVec.ofInt 112 (-(2 ^ 48))))) fun d => (d.core 1).dreg 2 = 0#48
        ∧ ((d.core 1).acc 1).toInt / 2 ^ 0 < -(2 ^ 47))
    ∧ On (found 1 (withD 0x800000000000 1)) fun d => ¬ (-(2 ^ 47) ≤ ((d.core 1).dreg 1).toInt - ((d.core 1).dreg 2).toInt) := by
  refine ⟨⟨runs1 _ (by decide +kernel), by decide +kernel⟩, fun p => ?_, by decide +kernel, fun p => ?_, by decide +kernel, by decide +kernel⟩ <;> cases p <;>
    exact runs1 _ (by decide +kernel)

theorem witness_bitByteAndImmediateResults : Runs (at_ (cpu 1 (withD 5 0))) u1 (found 1 (withD 5 0))
    ∧ ({ fR with rs2 := 0#5 } : FormR).resv = 0#17 ∧ fI.imm.toNat < 64 ∧ ({ fI with imm := 63#30 } : FormI).imm.toNat < 64 ∧ fL.resv = 0#3
    ∧ ({ fL with imm := 0xFFFF#32 } : FormL).imm.toNat < 2 ^ 16 :=
  ⟨runs1 _ (by decide +kernel), by decide +kernel⟩

theorem witness_accumulatorResults : Runs (at_ (cpu 1 (withD 5 3))) u1 (found 1 (withD 5 3)) ∧ namesAc fR.rd ∧ namesAc fR.rs1
    ∧ On (found 1 (withD 5 3)) (fun d => 0 ≤ ((d.core 1).dreg 1).toInt)
    ∧ Runs (at_ (cpu 1 (withD (-1) 3))) u1 (found 1 (withD (-1) 3)) ∧ On (found 1 (withD (-1) 3)) (fun d => ((d.core 1).dreg 1).toInt < 0) :=
  ⟨runs1 _ (by decide +kernel), by decide +kernel, by decide +kernel, by decide +kernel, runs1 _ (by decide +kernel), by decide +kernel⟩

theorem witness_addressesAndModes :
    (∀ k : Fin 2, On { busy with cores := Vector.replicate 9 { mods := Vector.replicate 4 { len := if k = 0 then 1 else 1048576, nbits := if k = 0 then 1 else 20 } } }
      fun d => let m := vget (d.core 1).mods fM.ab.toNat {}; (1 ≤ m.len ∧ m.len ≤ 1048576) ∧ 1 ≤ m.nbits ∧ m.nbits ≤ 20)
    ∧ Runs (at_ (cpu 1 (withD 5 3))) u1 (found 1 (withD 5 3)) ∧ namesA 15#5 ∧ namesA fR.rs1 ∧ namesA fI.rd ∧ namesA fL.rd :=
  ⟨by decide +kernel, runs1 _ (by decide +kernel), by decide +kernel, by decide +kernel, by decide +kernel, by decide +kernel⟩

/-- A1 of a core, which may be at U with one region that lets it do everything there. -/
def reads (a : W48) (user : Bool) : Core :=
  { withD 5 3 with
    a := (Vector.replicate 16 16#48).set 1 a
    psw := { priv := if user then .user else .machine, exm := false }
    mpu := { inForce := user, en := user,
             regions := (Vector.replicate 16 {}).set 0 { limit := 0xFFF, ren := true, space := 1, uperm := 7, sperm := 7 } } }

theorem witness_memoryIoAndInstructionSpace :
    (Runs (at_ (cpu 1 (reads 16 false))) u1 (found 1 (reads 16 false)) ∧ modeLate fM true (found 1 (reads 16 false)) ((found 1 (reads 16 false)).core 1) = none
      ∧ (found 1 (reads 16 false)).dataAt u1 fM 0 20 ∧ (found 1 (reads 16 false)).dataAt u1 fM 1 20 ∧ namesA fM.rt)
    ∧ On (found 1 (reads 0x73FC false)) (fun d => (d.core 1).address fM = (0x7400#48, none) ∧ (d.ioRead 1 .machine 0x7400).isSome = true
        ∧ ∃ e, d.ioWrite 1 .machine 0x7400 0 = some e ∧ d.restarted e = false)
    ∧ On (found 1 (reads 0xFFFF0 false)) (fun d => (d.core 1).address fM = (0xFFFF4#48, none) ∧ d.ioRead 1 .machine 0xFFFF4 = none
        ∧ d.ioWrite 1 .machine 0xFFFF4 0 = none)
    ∧ (∃ e, (found 1 (reads 16 false)).ispaceRead 1 0 20 true = .ok e) ∧ writableIspace 1 20 = true
    ∧ (Runs (at_ (cpu 1 (reads 16 true))) u1 (found 1 (reads 16 true)) ∧ ((found 1 (reads 16 true)).core 1).psw.priv = .user) := by
  refine ⟨⟨runs1 _ (by decide +kernel), by decide +kernel, ?_, ?_, by decide +kernel⟩, ⟨by decide +kernel, by decide +kernel, _, rfl, by decide +kernel⟩, by decide +kernel, ⟨_, rfl⟩, by decide +kernel,
    runs1 _ (by decide +kernel), by decide +kernel⟩ <;> simp only [Dev.dataAt] <;> decide +kernel

theorem witness_delayedBranches : Starts (at_ (cpu 1 (withD 5 3))) u1 (found 1 (withD 5 3)) ∧ ((found 1 (withD 5 3)).core 1).ctlAllowed true
    ∧ (fB.cond.toNat < 12 ∧ FormB.resvSet fB = false)
    ∧ (({ fB with cond := 11#4, immf := true } : FormB).cond.toNat < 12 ∧ FormB.resvSet { fB with cond := 11#4, immf := true } = false)
    ∧ (fJ.resv = 0#12 ∧ fJ.ra = 0#4) ∧ fR.resv = 0#17 ∧ namesA fR.rs1 ∧ namesA fR.rd := by
  refine ⟨starts1 _ (by decide +kernel), ?_, by decide +kernel⟩
  simp only [Core.ctlAllowed]; decide +kernel

/-- A core at address 5 in a loop of a level that starts at 2 and ends at 5. -/
def looping (one : Bool) (count : Nat) : Core :=
  { pc := 5, psw := { lact0 := !one, lact1 := one }, loop0 := { start := 2, stop := 5, count := count },
    loop1 := { start := 2, stop := 5, count := count } }

/-- A core in the delay slot of a branch. -/
def slotted (taken : Bool) (target : Nat) : Core := { looping false 2 with slot := some { branch := 4, target := target, taken := taken } }

/-- A core whose levels are `l0` and `l1`, level 0 ending at 9. -/
def nested (l0 l1 : Bool) : Core := { withD 5 (BitVec.ofNat 48 (2 ^ 32)) with psw := { lact0 := l0, lact1 := l1 }, loop0 := { start := 0, stop := 9, count := 2 } }

theorem witness_loopsAndWhatComesNext :
    (∀ n ∈ [2, 2 ^ 32 - 1], ∀ o, let c := looping o n
      c.slot = none ∧ (o = true → c.psw.lact1 = true ∧ c.loop1.stop = c.pc ∧ 1 < c.loop1.count ∧ c.loop1.count < 2 ^ 32)
        ∧ (o = false → c.psw.lact0 = true ∧ c.loop0.stop = c.pc ∧ c.psw.lact1 = false ∧ 1 < c.loop0.count ∧ c.loop0.count < 2 ^ 32))
    ∧ ((looping false 1).slot = none ∧ (looping false 1).shadow = none ∧ (looping false 1).psw.lact0 = true
        ∧ (looping false 1).loop0.stop = (looping false 1).pc ∧ (looping false 1).loop0.count = 1)
    ∧ (∀ t ∈ [1, 2, 5, 6, 2 ^ 24 - 1], (slotted true t).slot = some { branch := 4, target := t, taken := true } ∧ t < 2 ^ 24)
    ∧ (slotted false 0).slot = some { branch := 4, target := 0, taken := false }
    ∧ (Starts (at_ (cpu 1 (nested false false))) u1 (found 1 (nested false false)) ∧ ((found 1 (nested false false)).core 1).ctlAllowed false)
    ∧ (Starts (at_ (cpu 1 (nested true false))) u1 (found 1 (nested true false)) ∧ ((found 1 (nested true false)).core 1).ctlAllowed false)
    ∧ (fP.resv = 0#1 ∧ 1 ≤ fP.stop.toNat ∧ fP.cnt.toNat < 2 ^ 32)
    ∧ On (found 1 (nested true false)) (fun d => (d.core 1).pc + fP.stop.toNat < (d.core 1).loop0.stop ∧ 2 ^ 32 ≤ ((d.core 1).dreg 2).toNat) := by
  refine ⟨by decide +kernel, by decide +kernel, by decide +kernel, by decide +kernel, ⟨starts1 _ (by decide +kernel), ?_⟩,
    ⟨starts1 _ (by decide +kernel), ?_⟩, by decide +kernel, by decide +kernel⟩ <;> simp only [Core.ctlAllowed] <;> decide +kernel

/-- A device that a debugger reaches at level FULL. -/
def opened (d : Dev) : Dev := { d with dbg := { d.dbg with level := .full } }

/-- A core at S by the MPU's rules, or at M, with an interrupt line of its tile queue pending or none. -/
def supervising (line : Bool) : Core :=
  { reads 16 true with psw := { priv := .supervisor, exm := line }, irqEn := if line then 0x100#32 else 0#32 }

theorem witness_systemTrapAndBreakpoint :
    (∀ n ∈ [0, 1], On (found n (supervising false)) fun d => (d.core n).psw.priv ≠ .user ∧ d.pendingVec n = none)
    ∧ Runs (at_ (cpu 1 (supervising false))) u1 (found 1 (supervising false))
    ∧ Runs (at_ (cpu 0 (supervising false))) u0 (found 0 (supervising false))
    ∧ ((found 1 (supervising false)).core 1).ctlAllowed false
    ∧ (Runs (at_ (cpu 1 (reads 16 true))) u1 (found 1 (reads 16 true)) ∧ ((found 1 (reads 16 true)).core 1).psw.priv = .user
        ∧ ((found 1 (reads 16 true)).core 1).ctlAllowed false)
    ∧ fS.resv = 0#5 ∧ ¬ ((found 1 (withD 5 3)).debugOn = true ∧ (found 1 (withD 5 3)).coreInReach 1 = true)
    ∧ (opened (found 1 (withD 5 3))).debugOn = true ∧ (opened (found 1 (withD 5 3))).coreInReach 1 = true := by
  refine ⟨by decide +kernel, runs1 _ (by decide +kernel), runs0 _ (by decide +kernel), ?_,
    ⟨runs1 _ (by decide +kernel), by decide +kernel, ?_⟩, by decide +kernel, by decide +kernel, by decide +kernel, by decide +kernel⟩ <;>
    simp only [Core.ctlAllowed] <;> decide +kernel

theorem witness_systemRegisters :
    (Runs (at_ (cpu 1 (withD 5 3))) u1 (found 1 (withD 5 3)) ∧ Runs (at_ (cpu 1 (reads 16 true))) u1 (found 1 (reads 16 true)))
    ∧ (∀ sel ∈ [0, 1, 2, 3, 4, 10, 24, 25], (sysLevels sel).isSome = true) ∧ (sysLevels 4).map (·.2) = some none ∧ fS.resv = 0#5
    ∧ On (found 1 (reads 16 true)) (fun d => (d.core 1).psw.priv.code < Priv.machine.code
        ∧ mtsLate { fS with sel := 2#6 } d (d.core 1) = none)
    ∧ On (found 1 (withD 3 3)) (fun d => mtsLate fS d (d.core 1) = none ∧ Priv.machine.code = ((d.core 1).dreg 1).toNat % 4
        ∧ Priv.machine.code ≤ (d.core 1).psw.priv.code)
    ∧ On (found 1 (supervising false)) (fun d => mtsLate { fS with reg := 2#5 } d (d.core 1) = none
        ∧ Priv.machine.code = ((d.core 1).dreg 2).toNat % 4 ∧ (d.core 1).psw.priv.code < Priv.machine.code)
    ∧ On (found 1 (withD 2 64)) (fun d => ((d.core 1).dreg 1).toNat % 4 = 2 ∧ 64 ≤ ((d.core 1).dreg 2).toNat)
    ∧ (Runs (at_ (cpu 1 (looping false 2))) u1 (found 1 (looping false 2)) ∧ ((found 1 (looping false 2)).core 1).psw.lact0 = true) :=
  ⟨⟨runs1 _ (by decide +kernel), runs1 _ (by decide +kernel)⟩, by decide +kernel, by decide +kernel, by decide +kernel, by decide +kernel,
    by decide +kernel, by decide +kernel, by decide +kernel, runs1 _ (by decide +kernel), by decide +kernel⟩

/-- A core at S with its handler of vector 1 at M, and its frames below A15 and ESP. -/
def handled (top : Nat) (exm esc : Bool) : Core :=
  { a := (Vector.replicate 16 0#48).set 15 (BitVec.ofNat 48 top), esp := BitVec.ofNat 48 top, eha := 0x40,
    psw := { priv := .machine, exm := exm, esc := esc }, dmem := [(1, 0x800003000100#48)] }

theorem witness_exceptionEntryAndLockup :
    (∀ top ∈ [8, 131072], On (cpu 1 (handled top false false)) fun d =>
      (d.core 1).psw.exm = false ∧ (d.core 1).psw.esc = false ∧ d.vector 1 (illegal 1).vec = some (0x100, .machine)
        ∧ (d.mpuCheck 1 .machine 1 0 ((d.core 1).vbr + 1)).isNone = true ∧ 8 ≤ ((d.core 1).areg 15).toNat
        ∧ ((d.core 1).areg 15).toNat ≤ sramWords 1 ∧ ∀ i, i < 8 → (d.mpuCheck 1 .machine 1 1 (((d.core 1).areg 15).toNat - 8 + i)).isNone = true)
    ∧ (∀ top ∈ [8, 131072], On (cpu 1 (handled top true false)) fun d =>
      (d.core 1).psw.exm = true ∧ (d.core 1).psw.esc = false ∧ 8 ≤ (d.core 1).esp.toNat ∧ (d.core 1).esp.toNat ≤ sramWords 1)
    ∧ ((cpu 1 (handled 8 true true)).core 1).psw.esc = true := by decide +kernel

/-- A core at privilege `p` with a frame at A15 = 16 whose words 0, 1 and 5 are given. -/
def framed (p : Priv) (w0 w1 w5 pceil : Nat) : Core :=
  { reads 16 true with psw := { priv := p, exm := true }, pceil := pceil,
                       dmem := [(16, BitVec.ofNat 48 w0), (17, BitVec.ofNat 48 w1), (19, 9#48), (21, BitVec.ofNat 48 w5), (22, 24#48)] }

/-- The words of that frame. -/
def words (w0 w1 w5 : Nat) : List W48 := [BitVec.ofNat 48 w0, BitVec.ofNat 48 w1, 0, 9, 0, BitVec.ofNat 48 w5, 24, 0]

/-- RETE reads these words. -/
def returns (p : Priv) (w0 w1 w5 pceil : Nat) : Bool :=
  match (found 1 (framed p w0 w1 w5 pceil)).frameRead 1 true (((found 1 (framed p w0 w1 w5 pceil)).core 1).areg 15) 8 with
  | .ok ws => decide (ws = words w0 w1 w5)
  | .error _ => false

theorem witness_exceptionReturn :
    (∀ w0 ∈ [7, 7 + 2 ^ 24, 7 + 2 ^ 25, 7 + 2 ^ 24 + 2 ^ 25], issues 1 (framed .machine w0 3 7 3) = true ∧ returns .machine w0 3 7 3 = true)
    ∧ (issues 1 (framed .machine 7 3 7 1) = true ∧ returns .machine 7 3 7 1 = true)
    ∧ (issues 1 (framed .supervisor 7 3 7 3) = true ∧ returns .supervisor 7 3 7 3 = true)
    ∧ (issues 1 (framed .machine 7 2 7 3) = true ∧ returns .machine 7 2 7 3 = true)
    ∧ (issues 1 (framed .machine 7 0x43 7 3) = true ∧ returns .machine 7 0x43 7 3 = true)
    ∧ ((found 1 (framed .machine 7 3 7 3)).core 1).ctlAllowed false
    ∧ Starts (at_ (cpu 1 (framed .machine 7 3 7 3))) u1 (found 1 (framed .machine 7 3 7 3)) ∧ fS.resv = 0#5 := by
  refine ⟨by decide +kernel, by decide +kernel, by decide +kernel, by decide +kernel, by decide +kernel, ?_, starts1 _ (by decide +kernel), rfl⟩
  simp only [Core.ctlAllowed]; decide +kernel

theorem witness_illegalInstructions :
    (Starts (at_ (cpu 1 (slotted true 8))) u1 (found 1 (slotted true 8)) ∧ ((found 1 (slotted true 8)).core 1).slot.isSome = true)
    ∧ (Starts (at_ (cpu 1 (looping false 2))) u1 (found 1 (looping false 2)) ∧ On (found 1 (looping false 2)) fun d =>
        (d.core 1).slot.isNone = true ∧ (d.core 1).shadow = none ∧ (d.core 1).psw.lact0 = true ∧ (d.core 1).pc = (d.core 1).loop0.stop)
    ∧ (issues 1 { looping false 2 with pc := 4 } = true ∧ ({ looping false 2 with pc := 4 } : Core).pc + 1 = (looping false 2).loop0.stop)
    ∧ definedWord 0x0B0000000000 = false ∧ ({ fJ with resv := 1#12 } : FormJ).resv ≠ 0#12 ∧ ({ fR with resv := 1#17 } : FormR).resv ≠ 0#17
    ∧ ¬ namesA 16#5 :=
  ⟨⟨starts1 _ (by decide +kernel), by decide +kernel⟩, ⟨starts1 _ (by decide +kernel), by decide +kernel⟩, by decide +kernel⟩

/-- A core at M that takes events, with an arithmetic exception pending or with the line of its tile queue enabled. -/
def eventful (arith : Bool) : Core :=
  { psw := { exm := false }, pc := 7, arith := if arith then some (3, 1) else none, irqEn := 0x100#32 }

theorem witness_asynchronousEvents :
    On (cpu 1 (eventful true)) (fun d => d.coreRuns 1 = true ∧ (d.core 1).arith ≠ none ∧ d.pendingVec 1 = some 16 ∧ (d.core 1).masked = false
      ∧ (d.core 1).psw.priv = .machine)
    ∧ On { cpu 1 (eventful false) with tiles := { queues := Vector.replicate 9 { irq := true } } }
      (fun d => d.coreRuns 1 = true ∧ d.pendingVec 1 = some 32 ∧ (d.core 1).masked = false ∧ (d.core 1).psw.priv = .machine)
    ∧ On (cpu 1 {}) (fun d => (d.core 1).psw.exm = true) := by decide +kernel

/-- An MPU whose region `r` alone holds addresses, with these permissions, and which has recorded a fault or not. -/
def guarded (r perm : Nat) (sdef valid : Bool) : Core :=
  { mpu := { sdef := sdef, valid := valid,
             regions := (Vector.replicate 16 {}).set! r { base := 0x40, limit := 0x23F, ren := true, uperm := perm, sperm := perm } } }

theorem witness_memoryProtection :
    (∀ r ∈ [0, 15], ∀ a ∈ [0x40, 0x23F], On (cpu 1 (guarded r 1 true false)) fun d =>
      (vget (d.core 1).mpu.regions r {}).decides 1 a = true ∧ (∀ q, q < r → (vget (d.core 1).mpu.regions q {}).decides 1 a = false)
        ∧ (vget (d.core 1).mpu.regions r {}).uperm.testBit 0 = true)
    ∧ (∀ valid, On (cpu 1 (guarded 0 1 true valid)) fun d => (d.mpuCheck 1 .user 1 1 0x40).isSome = true ∧ (d.core 1).mpu.valid = valid)
    ∧ (∀ a ∈ [0x3F, 0x240], ∀ sdef, On (cpu 1 (guarded 0 1 sdef false)) fun d =>
      (∀ r, r < 16 → (vget (d.core 1).mpu.regions r {}).decides 1 a = false) ∧ (d.core 1).mpu.sdef = sdef)
    ∧ On (cpu 8 {}) (fun d => 8 ≤ d.nCombs ∧ d.supply.clocks = true ∧ (d.core 8).psw.priv = .machine ∧ (d.core 8).mpu.en = false
        ∧ (d.core 8).mpu.inForce = false)
    ∧ On (cpu 8 (supervising false)) (fun d => (d.core 8).psw.priv ≠ .machine)
    ∧ On (cpu 8 { cycles := 7, mpu := { en := true, enAt := 3 } }) (fun d =>
        (d.core 8).mpu.en = true ∧ (d.core 8).mpu.enAt + 4 ≤ (d.core 8).cycles ∧ (d.core 8).cycles < 2 ^ 48) := by decide +kernel

/-! Power, time, the hive and the tree -/

/-- The mode of the working device, and its power controller. -/
abbrev inMode (m : Mode) : Dev := { busy with power := { busy.power with mode := m } }
abbrev pwr (f : Power → Power) : Dev := { busy with power := f busy.power }

/-- A device in start-up at a step. -/
abbrev starting (st : StartStep) : Dev := pwr fun p => { p with mode := .test, startStep := st, bootDone := decide (st = .scan ∨ st = .reconcile) }

/-- A device in its ROM, its always-on time kept, its canary the one that the marker row names. -/
def romStep : Dev :=
  { starting .rom with time := { busy.time with aon := { lost := false } }, aon := { canary := [], marker1 := canaryMark [] } }

theorem witness_romHandOff : romStep.power.mode = .test ∧ romStep.power.startStep = .rom ∧ romStep.supply.clocks = true
    ∧ romStep.romChecks.power.mode = .test ∧ romStep.romChecks.bootBank = some (0, false) ∧ romStep.romChecks.time.aon.lost = false
    ∧ romStep.romChecks.time.aon.pcyc < 0xFFFFFFFF := by
  have h : romStep.lifeRead.tecRead.genProgram.tecProgram.flashWipe.aon.canaryOk = true := by
    show (canaryMark [] == canaryMark [] || _) = true
    simp
  simp only [Dev.romChecks, Dev.canaryCheck, h, ↓reduceIte]
  refine ⟨?_, ?_, ?_, ?_, ?_, ?_, ?_⟩ <;> decide +kernel

theorem witness_startUpSteps :
    (∀ m ∈ [Mode.vault, .field], On { power := { mode := m } } fun d => d.supply.pgood = false ∧ (d.power.mode = .vault ∨ d.power.mode = .field))
    ∧ (∀ t ∈ [(9 : Nat), 10], On { clk := 10, supply := { pgood := true }, power := { holdAt := some t } } fun d =>
        d.power.holdAt = some t ∧ d.supply.pgood = true ∧ (t < d.clk ↔ t = 9))
    ∧ On (starting .rom) (fun d => d.power.mode = .test ∧ d.power.startStep = .rom ∧ d.supply.clocks = true)
    ∧ On { busy with time := { servo := { run := false, dstate := .startWait, waitAt := some 1 } } } (fun d =>
        d.time.servo.waitAt = some 1 ∧ d.time.servo.dstate = .startWait ∧ 1 < d.clk)
    ∧ On (starting .firmware) (fun d => d.power.mode = .test ∧ d.power.startStep = .firmware ∧ d.time.servo.run = true)
    ∧ On { busy with rng := { gathered := 512, stA := .ok } } (fun d => d.rng.ready = false ∧ d.rng.stopped = false ∧ 512 ≤ d.rng.gathered ∧ d.rng.stA = .ok)
    ∧ On { busy with rng := { gathered := 511 } } (fun d => d.rng.gathered < 512 ∧ d.rng.ready = false)
    ∧ On { inMode .standby with store := { st := .scan } } (fun d => d.store.st = .scan ∧ d.power.mode = .standby)
    ∧ (∀ np pf : Bool, On { pwr (fun p => { p with mode := .test, startStep := .scan, bootDone := true, noPfail := np, pfail := pf }) with
          store := { st := .scan } } fun d =>
        d.store.st = .scan ∧ d.power.mode = .test ∧ d.power.bootDone = true ∧ d.power.noPfail = np ∧ d.power.pfail = pf)
    ∧ On { starting .scan with store := { st := .ready }, log := { open_ := true } } (fun d => d.power.mode = .test ∧ d.power.startStep = .scan
        ∧ d.store.st = .ready ∧ d.power.bootDone = true ∧ d.power.pfail = false ∧ d.log.open_ = true ∧ d.store.recon = .none ∧ d.storedKind 0x30 = none ∧ d.storedKind 0x32 = none)
    ∧ On { starting .reconcile with store := { st := .ready, recon := .ended } } (fun d =>
        d.power.mode = .test ∧ d.power.startStep = .reconcile ∧ d.store.recon = .ended ∧ d.power.pfail = false) := by decide +kernel

theorem witness_supplyAndPowerFail :
    On busy (fun d => d.supply.pgood = true ∧ d.power.mode = .record ∧ d.power.pfail = false)
    ∧ (∀ f, On { supply := { field := f } } fun d => d.supply.pgood = false ∧ d.supply.vddIo = true ∧ d.supply.field = f)
    ∧ On { supply := { vbat := false, vddIo := false } } (fun d => d.supply.vbat = false ∧ d.supply.vddIo = false)
    ∧ (∀ m ∈ [Mode.idle, .standby, .vault], On (inMode m) fun d => d.power.pfail = false ∧ d.power.mode = m)
    ∧ On (inMode .close) (fun d => d.supply.pgood = true ∧ d.power.mode = .close ∧ d.close.recordDone = false)
    ∧ On (pwr fun p => { p with mode := .close, pfail := true }) (fun d => d.power.pfail = true ∧ d.power.mode = .close)
    ∧ (∀ t, (t = busy.clk - 1 ∨ t = busy.clk) → On { pwr (fun p => { p with mode := .close, closeDone := true }) with close := { restartAt := some t } } fun d =>
        d.close.restartAt = some t ∧ d.power.mode = .close ∧ d.power.closeDone = true ∧ d.power.pfail = false ∧ d.close.after = .onPfail) := by
  refine ⟨by decide +kernel, by decide +kernel, by decide +kernel, by decide +kernel, by decide +kernel, by decide +kernel, ?_⟩
  rintro t (rfl | rfl) <;> decide +kernel

/-- A device in a close. -/
abbrev closing (c : CloseSeq) : Dev := { inMode .close with close := c }

theorem witness_closeSteps :
    On (closing {}) (fun d => d.power.mode = .close ∧ d.close.openingForm = false ∧ d.store.pages = [] ∧ d.store.journal.inFlight = [])
    ∧ On { closing { stopAt := busy.clk - 200001 } with store := { journal := { inFlight := [[]] } } } (fun d =>
        d.close.openingForm = false ∧ d.close.flushLate = false ∧ d.close.stopAt + 200000 < d.clk ∧ d.store.journal.inFlight ≠ [])
    ∧ On { closing {} with store := { reserve := { stored := [⟨0x30, 0, 0, [], 0⟩] } } } (fun d =>
        d.close.openingDone = false ∧ (d.store.reserve.stored.any fun r => r.kind == 0x30) = true)
    ∧ (∀ l ∈ [LaneState.off, .schuss], ∀ st ∈ [0, 2], On ({ inMode .close with
          power := { mode := .close, closeStep := .opening, startStep := .done, bootDone := true }, close := { stage := st },
          store := { reserve := { stored := [⟨0x30, 0, 0, [], 0⟩] } } }.onLane 0 fun x => { x with st := l, ctx0 := { dir := .seal } }) fun d =>
        d.power.closeStep = .opening ∧ (d.lanes.toList.all Lane.closed = true ↔ l = .off) ∧ (2 ≤ d.close.stage ↔ st = 2)
          ∧ (d.store.reserve.queue.any ReserveRec.ofLane) = false)
    ∧ On ((closing {}).onLane 0 fun l => { l with st := .schuss, ctx0 := { dir := .seal } }) (fun d => d.close.cutoff = false ∧ (d.lane 0).st = .schuss
        ∧ (d.lane 0).closed = false ∧ ((List.range d.nLanes).countP fun i => (d.lane i).slot) < 16 ∧ (d.lane 0).allSealed = true)
    ∧ On (((closing {}).onLane 62 fun l => { l with st := .active }).onLane 63 fun l => { l with st := .schuss, ctx0 := { dir := .seal }, units := [{}] }) (fun d =>
        63 < d.nLanes ∧ (d.lane 63).closed = false ∧ (d.lane 63).allSealed = false ∧ ∀ i, i < 63 → (d.lane i).st ≠ .schuss)
    ∧ On (closing { stopAt := busy.clk - 10000000 }) (fun d => d.close.cutoff = false ∧ d.close.stopAt + 10000000 ≤ d.clk)
    ∧ On { closing { openingForm := true } with keys := { slots := [(1025, { attr := 7 })] } } (fun d => d.close.openingForm = true
        ∧ d.close.stage = 0 ∧ d.lanes.toList.all Lane.closed = true ∧ d.close.unsigned = false ∧ (d.keySlot 1025).full = true)
    ∧ On { closing {} with store := { reserve := { stored := [⟨0x32, 0, 0, [], 0⟩] } } } (fun d =>
        d.close.recordDone = false ∧ (d.store.reserve.stored.any fun r => r.kind == 0x32) = true ∧ 0 < d.nLanes)
    ∧ On { closing { pfailAt := some 0 } with clk := 32000001 } (fun d =>
        d.close.pfailAt = some 0 ∧ d.close.recordDone = false ∧ d.close.late = false ∧ 0 + 32000000 < d.clk)
    ∧ (∀ a ∈ [AfterClose.onPfail, .stopped, .onWake, .restartNow], On (closing { recordDone := true, after := a }) fun d =>
        d.close.recordDone = true ∧ d.power.closeDone = false ∧ (d.field.waits.any fun w => w.work == .close) = false ∧ d.close.after = a) := by
  decide +kernel

theorem witness_modesAndTriggers :
    On busy (fun d => d.superRuns = true ∧ Mode.ofReq 0 = none ∧ Mode.ofReq 7 = none)
    ∧ On (pwr fun p => { p with target := some .idle }) (fun d => d.superRuns = true ∧ Mode.ofReq 3 = some .idle ∧ d.power.target ≠ none)
    ∧ On busy (fun d => d.power.target = none ∧ d.power.mode ≠ .test ∧ Mode.ofReq 5 = some .ingest ∧ d.power.mode ≠ .ingest ∧ d.mayGo .ingest = true)
    ∧ On busy (fun d => Mode.ofReq 2 = some .standby ∧ d.power.mode ≠ .standby ∧ d.mayGo .standby = false)
    ∧ On (pwr fun p => { p with mode := .ingest, target := some .record }) (fun d =>
        d.power.target = some .record ∧ d.power.mode = .ingest ∧ Mode.record ≠ .standby)
    ∧ On (pwr fun p => { p with mode := .idle, target := some .standby }) (fun d =>
        d.power.target = some .standby ∧ d.power.mode = .idle ∧ d.power.shutdown = false ∧ d.trailerWaits .standby = false)
    ∧ On { pwr (fun p => { p with mode := .idle, target := some .standby }) with store := { st := .ready, writerEn := true, container := some {} } } (fun d =>
        d.power.target = some .standby ∧ d.store.st = .ready ∧ d.power.shutdown = false ∧ d.store.writerEn = true ∧ d.store.container ≠ none)
    ∧ On { inMode .ingest with staging := { st := .ready } } (fun d => d.superRuns = true ∧ d.power.target = none ∧ d.power.mode ≠ .record
        ∧ d.mayGo .record = false ∧ d.mayGo .idle = false ∧ d.staging.st = .ready)
    ∧ On (inMode .idle) (fun d => d.power.target = none ∧ d.mayGo .standby = true)
    ∧ (∀ n ∈ [0, 31], ∀ level, On { busy with supply := { busy.supply with gpio := if level then 0#32 else 0xFFFFFFFF#32 } } fun d =>
        flag d.supply.gpio n = !level ∧ flag d.power.wakeGpio n = false ∧ flag d.store.trig.en n = false)
    ∧ (∀ level, On { busy with supply := { busy.supply with gpio := if level then 0#32 else 0xFFFFFFFF#32 },
                               store := { trig := { en := 1#32, pol := if level then 0#32 else 1#32, fifo := List.replicate 31 (0, 0) } } } fun d =>
        flag d.supply.gpio 0 = !level ∧ flag d.store.trig.en 0 = true ∧ flag d.store.trig.pol 0 = !level ∧ d.power.mode = .record
          ∧ d.store.trig.rearm = [] ∧ d.store.trig.fifo.length < 32) := by decide +kernel

/-- The working device's servo and its configuration. -/
abbrev servo (f : Servo → Servo) : Dev := { busy with time := { busy.time with servo := f busy.time.servo } }
abbrev timeCfg (f : TimeCfg → TimeCfg) : Dev := { busy with time := { busy.time with cfg := f busy.time.cfg } }

theorem witness_timeMeasurements :
    On busy (fun d => d.supply.clocks = true ∧ d.time.servo.dstate = .locked ∧ d.time.cfg.ppsFall = false ∧ d.ppsBad = false ∧ d.activeSrc = 1
      ∧ d.time.cfg.discEn = true ∧ d.time.cfg.forceHold = false)
    ∧ (∀ dt ∈ [899999999, 1100000001, 2500000000], On (servo fun v => { v with ppsEdgeAt := some (busy.clk - dt) }) fun d =>
        d.supply.clocks = true ∧ (dt < ms 900 ∨ ms 1100 < dt ∧ dt ≤ ms d.time.cfg.refTo) ∧ d.clk - (busy.clk - dt) = dt)
    ∧ (∀ hi ∈ [(0x40000000 : Nat), 0xBFFFFFFF, 0x3FFFFFFF, 0xC0000000], On (timeCfg fun c => { c with measLo := if hi = 0x40000000 then 1 else 0, srcA := 2 }) fun d =>
        let o := signed64 (hi * 4294967296 + d.time.cfg.measLo)
        (d.power.mode ≠ .close ∧ d.activeSrc = 2 ∧ d.ptpSrc = some d.activeSrc ∧ d.time.servo.dstate = .locked ∧ d.time.cfg.discEn = true ∧ d.time.cfg.forceHold = false)
          ∧ (2 ^ 62 < o.natAbs ↔ hi = 0x40000000 ∨ hi = 0xBFFFFFFF))
    ∧ On (servo fun v => { v with refAt := some (busy.clk - 1) }) (fun d => d.time.servo.run = true ∧ busy.clk - 1 < d.clk ∧ d.time.servo.onSrcB = false
        ∧ d.time.cfg.srcB = 0 ∧ d.time.servo.dstate = .locked)
    ∧ On { busy with time := { cfg := { srcB := 2 }, servo := { busy.time.servo with refAt := some (busy.clk - 1), lastP2 := some (busy.clk - ms 2500) } } }
        (fun d => d.time.cfg.srcB = 2 ∧ d.time.servo.lastP2 = some (busy.clk - ms 2500) ∧ d.clk ≤ busy.clk - ms 2500 + ms d.time.cfg.refTo)
    ∧ (∀ v ∈ [0xFFFF0000, 0xFFFF0001], On (timeCfg fun c => { c with label := v }) fun d => d.supply.clocks = true ∧ d.power.mode ≠ .close ∧ d.time.cfg.label = v)
    ∧ On busy (fun d => d.supply.clocks = true ∧ d.power.mode ≠ .close ∧ d.life.st ≠ .service ∧ d.life.st ≠ .provision)
    ∧ On { busy with life := { st := .service } } (fun d => d.life.st = .service ∧ d.time.servo.dstate = .locked ∧ d.time.cfg.forceHold = false)
    ∧ On (servo fun v => { v with slew := -1 }) (fun d => d.time.servo.slew ≠ 0 ∧ d.time.servo.slew.natAbs ≤ slewStep d.time.cfg.slewMax)
    ∧ On (servo fun v => { v with slew := 2 ^ 70 }) (fun d => slewStep d.time.cfg.slewMax < d.time.servo.slew.natAbs)
    ∧ On (servo fun v => { v with dstate := .holdover, holdAt := 17000000000, hold := 20 }) (fun d =>
        d.time.servo.run = true ∧ d.time.servo.dstate = .holdover ∧ 3 = (d.clk - d.time.servo.holdAt) / 1000000000) := by decide +kernel

theorem witness_alwaysOnTime :
    On busy (fun d => d.supply.vbat = true ∧ d.supply.clocks = true ∧ d.time.servo.run = true)
    ∧ (∀ t ∈ [0, 1], On { servo (fun v => { v with window := some (t, 0) }) with clk := 64000000000 } fun d =>
        d.time.servo.dstate = .locked ∧ d.time.servo.window = some (t, 0) ∧ (t + 64000000000 ≤ d.clk ↔ t = 0))
    ∧ On (servo fun v => { v with dstate := .holdover }) (fun d => d.time.servo.dstate ≠ .locked)
    ∧ (∀ rc : Bool, On { busy with time := { busy.time with aon := { onRc := rc } } } fun d => d.supply.vbat = true ∧ d.time.aon.onRc = rc)
    ∧ (∀ n ∈ [0, 3], On { busy with time := { busy.time with aon := { alarms := (Vector.replicate 4 {}).set! n { en := true, value := busy.now, per := 1 } } } } fun d =>
        (vget d.time.aon.alarms n {}).en = true ∧ (vget d.time.aon.alarms n {}).value ≤ d.now ∧ (vget d.time.aon.alarms n {}).wake = false)
    ∧ (∀ k ∈ [0, 1, 2], On { busy with time := { busy.time with aon := { oph := 64 }, log := { s14 := [{ oph := 63 }, {}] }, logFails := k } } fun d =>
        d.time.log.row = { oph := 63 } ∧ 63 / 64 < d.time.aon.oph / 64 ∧ d.time.logFails = k)
    ∧ On (inMode .standby) (fun d => d.supply.pgood = true ∧ d.power.mode = .standby)
    ∧ (∀ r ∈ [0x08, 0x20, 0x4C], (busy.timePair r).isSome = true ∧ (Requester.ofNat 0).readsPair r = true) := by decide +kernel

/-- A running hive. -/
abbrev hiving (h : Hive) : Dev := { busy with hive := h }

theorem witness_hiveReceipts :
    On { hiving { en := true, st := .armed } with time := { servo := { busy.time.servo with acc := 10 * 2 ^ 64 - 2 ^ 32 } } } (fun d =>
      d.time.servo.run = true ∧ d.hiveRuns = true ∧ d.hiveTakes = true ∧ d.nsUntil (d.boundaryNext d.hive.period) ≤ d.wagHalf
        ∧ ∀ f ∈ d.wag.flights, f.why ≠ .periodic)
    ∧ On (hiving { en := true, st := .armed, atArmed := true, atTime := busy.now + 43 }) (fun d => d.time.servo.run = true ∧ d.hiveRuns = true
        ∧ d.hiveTakes = true ∧ d.wagHalf + 24 < d.nsUntil (d.boundaryNext d.hive.period) ∧ d.hive.atArmed = true ∧ 0 < d.nsUntil d.hive.atTime
        ∧ d.nsUntil d.hive.atTime ≤ d.wagHalf ∧ d.spaced = true ∧ d.hive.readAt ≤ d.clk ∧ ∀ f ∈ d.wag.flights, f.why ≠ .at_)
    ∧ (∀ x ∈ [(0 : Nat), 1], On { hiving { en := true, st := .armed } with receipts := { demand := true, demandAt := busy.clk - busy.wagHalf + x } } fun d =>
        d.hiveDue = true ∧ d.hive.lastBoundary < d.boundaryNow (d.hive.periodsAt d.now).period ∧ d.receipts.demand = true
          ∧ (d.receipts.demandAt + d.wagHalf ≤ d.clk ↔ x = 0))
    ∧ On (hiving { lastBoundary := 10 * 2 ^ 32 }) (fun d => d.boundaryNow d.hive.period ≤ d.hive.lastBoundary ∧ d.hiveTakes = false ∧ d.supply.clocks = true
        ∧ d.power.mode ≠ .close)
    ∧ (∀ w ∈ [SnapFor.demand, .at_, .software], On { busy with wag := { flights := [{ op := .snapshot, edgeAt := busy.clk, dueAt := busy.clk, why := w }] } } fun d =>
        (d.wag.flights.head?.map fun f => (f.op, f.acted, f.why, decide (f.edgeAt ≤ d.clk))) = some (.snapshot, false, w, true)
          ∧ d.receipts.making = none ∧ d.receipts.queued = [])
    ∧ On { hiving { st := .hash } with receipts := { making := some {} } } (fun d => d.receipts.making = some {} ∧ ({} : Making).root = [] ∧ d.hive.st = .hash)
    ∧ (∀ b : Bool, On { hiving { st := .armed } with wag := { pending := if b then [.snapshot] else [] } } fun d =>
        d.hiveTakes = true ∧ d.wag.pending.contains .snapshot = b)
    ∧ (∀ t ∈ [4294, 4295], On (hiving { st := .armed, atTime := busy.now + t }) fun d =>
        d.hiveTakes = true ∧ (d.now + 4295 ≤ d.hive.atTime ↔ t = 4295))
    ∧ (∀ due : Bool, On (hiving { en := due, st := .armed }) fun d =>
        let h := if d.hiveDue then d.hive else (d.hive.periodsAt d.now).epochsAt d.now
        d.hiveDue = due ∧ (∀ p ∈ [10, 10000], p ≠ h.period ∧ d.changePoint h.period p ≤ d.now + 3600 * 2 ^ 32)
          ∧ ∀ p ∈ [10, 60000], p ≠ h.epoch ∧ d.changePoint h.epoch p ≤ d.now + 3600 * 2 ^ 32) := by
  refine ⟨?_, ?_, ?_, ?_, ?_, ?_, ?_, ?_, ?_⟩ <;> decide +kernel

/-- The working device with a lane. -/
abbrev laned (n : Nat) (l : Lane) : Dev := busy.onLane n fun _ => l

theorem witness_laneEpochs :
    (∀ n ∈ [0, 63], ∀ m ∈ [Mode.record, .close], On { laned n { ctx0 := { dir := .seal } } with power := { mode := m } } fun d => n < d.nLanes
        ∧ d.time.servo.run = true ∧ d.hive.lastEpoch < d.boundaryNow (d.hive.epochsAt d.now).epoch ∧ (d.lane n).ctx0.dir = .seal
        ∧ (d.lane n).stream.ended = false ∧ (d.lane n).stream.epochStart < d.boundaryNow (d.hive.epochsAt d.now).epoch
        ∧ (∀ q ∈ (d.lane n).caps, q.boundary ≠ 0) ∧ d.power.mode = m)
    ∧ On busy (fun d => (d.lane 0).ctx0.dir ≠ .seal)
    ∧ (∀ st ∈ [LaneState.active, .drain], ∀ k ∈ [none, some { epoch := 5 }],
        On { laned 0 { st := st, caps := [{ key := k }, {}] } with keys := { slots := [(65, { attr := 1 })] } } fun d =>
          (d.lane 0).caps = [{ key := k }, {}] ∧ (d.lane 0).st = st ∧ d.power.mode ≠ .close ∧ (d.keySlot (d.kekFor 5).1).full = true ∧ d.hiveDue = false)
    ∧ On { laned 0 { caps := [{}] } with hive := { en := true, st := .armed } } (fun d => (d.lane 0).caps ≠ [] ∧ d.hiveDue = true)
    ∧ (∀ n ∈ [31, 32], On (laned n { caps := [{ lateAt := busy.clk - 1 }] }) fun d =>
        (d.lane n).caps = [{ lateAt := busy.clk - 1 }] ∧ busy.clk - 1 < d.clk)
    ∧ (∀ st ∈ [LaneState.active, .drain],
        On (laned 0 { st := st, ctx0 := { dir := .seal }, stream := { signed := some (1, [2#8]), epochStart := 10 * 2 ^ 32 } }) fun d =>
          (d.lane 0).stream.signed = some (1, [2#8]) ∧ (d.lane 0).st = st ∧ (d.lane 0).ctx0.dir = .seal ∧ (d.lane 0).stream.ended = false
            ∧ d.boundaryDue 0 = false) := by
  refine ⟨?_, ?_, ?_, ?_, ?_, ?_⟩ <;> decide +kernel

/-- The working device with a tree. -/
abbrev treed (w : Wag) : Dev := { busy with wag := w }

theorem witness_waggleTree :
    On (treed { lastIssue := some (busy.clk - 24) }) (fun d => d.supply.clocks = true ∧ d.power.mode ≠ .close ∧ d.wag.pending = [] ∧ d.spaced = true
      ∧ d.inGuard = false ∧ d.hive.readAt ≤ d.clk ∧ d.wag.barrier = none)
    ∧ On (treed { lastIssue := some (busy.clk - 23) }) (fun d => d.spaced = false)
    ∧ On (treed { barrier := some (15, [64]) }) (fun d => d.wag.barrier = some (31 % 16, (64 + 0) :: []) ∧ 64 + 0 ∉ ([] : List Nat))
    ∧ On (treed { barrier := some (15, [71, 64]) }) (fun d => d.wag.barrier = some (31 % 16, (64 + 7) :: [64]) ∧ 64 + 7 ∉ ([64] : List Nat) ∧ 7 < d.nCombs)
    ∧ On (treed { barrier := some (3, []), releaseAt := some busy.clk }) (fun d => d.wag.releaseAt = some d.clk)
    ∧ On (treed { barrier := some (3, [64]), barAt := some (busy.clk - 1) }) (fun d => d.wag.barAt = some (d.clk - 1) ∧ d.clk - 1 < d.clk)
    ∧ (∀ op ∈ [WagOp.broadcast, .reset], ∀ ep ∈ [0, 31, 63, 64, 71],
        On (treed { flights := [{ op := op, edgeAt := busy.clk, dueAt := busy.clk, eps := [ep] }] }) fun d =>
          d.wag.flights = [{ op := op, edgeAt := d.clk, dueAt := d.clk, eps := [ep] }])
    ∧ (laned 0 {}).lanes.toList.head?.map Lane.resettable = some true
    ∧ (laned 0 { units := [{}] }).lanes.toList.head?.map Lane.resettable = some false
    ∧ On { treed { flights := [{ op := .snapshot, edgeAt := 0, dueAt := busy.clk, acted := true, why := .at_ }] } with hive := { st := .capture } } (fun d =>
        d.wag.flights = [{ op := .snapshot, edgeAt := 0, dueAt := d.clk, acted := true, why := .at_ }] ∧ SnapFor.at_ ≠ .software ∧ d.hive.st = .capture)
    ∧ On { treed { flights := [{ op := .snapshot, edgeAt := 0, dueAt := busy.clk - 17, acted := true, why := .at_, seq := 3 }] } with
          receipts := { making := some { snapSeq := 3 } } } (fun d =>
        (d.wag.flights.head?.map fun f => (f.op, f.acted, f.why, f.seq, decide (f.dueAt + 16 < d.clk))) = some (.snapshot, true, .at_, 3, true)
          ∧ d.receipts.making = some { snapSeq := 3 } ∧ ({ snapSeq := 3 } : Making).root = []) := by
  decide +kernel

/-! Lanes, the store and the ports -/

/-- A ring pair in use on P0, and an active lane that seals on it. -/
abbrev ringUp : RingPair := { valid := true, inSize := 4, cmpSize := 7, inTail := 1 }
abbrev sealing : Lane := { st := .active, ctx0 := { dir := .seal, nextSeq := 1 }, ring0 := ringUp }

/-- A descriptor of a type: 96 bytes of payload, room for the segment. -/
def descBytes (typ : Nat) : List Byte := le 1 typ ++ zeros 3 ++ le 4 96 ++ zeros 16 ++ le 4 240 ++ zeros 36

theorem witness_laneRings :
    (∀ n ∈ [0, 63], ∀ v ∈ [16, 17], On (laned n { sealing with ring0 := { ringUp with inHead := 0, cmpTail := if v = 17 then 129 else 128 } }) fun d =>
      n < d.nLanes ∧ d.supply.clocks = true ∧ ((d.lane n).ring 0).valid = true ∧ ((d.lane n).ring 0).port = 0
        ∧ (idxDiff v ((d.lane n).ring 0).inHead ≤ 2 ^ ((d.lane n).ring 0).inSize ↔ v = 16)
        ∧ (idxDiff ((d.lane n).ring 0).cmpTail 0 ≤ 2 ^ ((d.lane n).ring 0).cmpSize ↔ v = 16))
    ∧ On busy (fun d => ((d.lane 0).ring 1).valid = false)
    ∧ (On (laned 0 sealing) fun d => (d.lane 0).mayRead 0 = true ∧ (d.lane 0).ctx0.dir = .seal
        ∧ (parseDesc (descBytes 1) 0).typ = 1 ∧ (d.lane 0).descCheck 0 (parseDesc (descBytes 1) 0) = none
        ∧ (parseDesc (descBytes 2) 0).typ = 2 ∧ (parseDesc (descBytes 3) 0).typ = 3)
    ∧ (On (laned 0 { sealing with ctx1 := { dir := .verifyOpen }, ring1 := ringUp }) fun d => (d.lane 0).mayRead 1 = true ∧ ((d.lane 0).ctx 1).dir ≠ .seal
        ∧ (d.lane 0).descCheck 1 (parseDesc (descBytes 2) 0) = none)
    ∧ (∀ k ∈ [1, 2], On (laned 0 { sealing with ring0 := { ringUp with posts := [{ entry := le 1 k ++ zeros 63 }], cmpTail := 127 }, units := [{}] }) fun d =>
        ((d.lane 0).ring 0).flows = true ∧ (d.lane 0).st = .active ∧ 1 + 0 ≤ ((d.lane 0).ring 0).room ∧ numAt (le 1 k ++ zeros 63) 0 1 = k
          ∧ (d.lane 0).ctx0.policy = .host ∧ ((d.lane 0).units.find? fun u => u.seq == 0) = some {} ∧ ({} : MediaUnit).written = false)
    ∧ On (laned 0 { sealing with ring0 := { ringUp with posts := [{}], cmpTail := 128 } }) (fun d => ((d.lane 0).ring 0).room < 1 + 0)
    ∧ (∀ x ∈ [(0 : Nat), 1], ∀ m : Bool, On { laned 0 { sealing with ring0 := { ringUp with coalAt := some (busy.clk - x) } } with
          ports := Vector.replicate 5 { pcie := { msix := if m then [(3, 1#32)] else [] } } } fun d => let r := (d.lane 0).ring 0
        r.coalAt = some (d.clk - x) ∧ (d.clk - x < d.clk ↔ x = 1) ∧ d.power.mode ≠ .close ∧ r.port < 5
          ∧ flag (spGet (fun _ => 0#32) (d.port r.port).pcie.msix (4 * r.msix + 3)) 0 = m)
    ∧ On ((inMode .close).onLane 0 fun _ => { ring0 := { ringUp with coalAt := some 0 } }) (fun d => ((d.lane 0).ring 0).coalAt = some 0 ∧ d.power.mode = .close) := by
  refine ⟨?_, ?_, ?_, ?_, ?_, ?_, ?_, ?_⟩ <;> decide +kernel

/-- A unit of 96 bytes in a state, and the sealing lane with it as the descriptor read, or as the only unit accepted. -/
abbrev unitIn (st : UnitState) : MediaUnit := { desc := { typ := 1, payloadLen := 96 }, st := st, payload := zeros 96 }
abbrev holding (st : UnitState) : Dev := laned 0 { sealing with ctx0 := { sealing.ctx0 with cur := some (unitIn st) } }
abbrev owing (u : MediaUnit) (f : Lane → Lane) : Dev := laned 0 (f { sealing with units := [u] })

/-- A segment of number 1, 160 bytes long, for a verify context that has been opened on its stream. -/
def segBytes : List Byte := ascii "QSEG" ++ [1#8, 0x10#8, 0#8, 0#8] ++ le 4 160 ++ zeros 4 ++ le 8 5 ++ le 8 1 ++ zeros 128
def verifying (stream next : Nat) : Dev :=
  laned 0 { st := .active, ring0 := ringUp, ctx0 := { dir := .verifyChain, stream := stream, nextSeq := next, running := true,
                                                      job := some { typ := 2, payloadLen := 160 } } }

theorem witness_laneUnits :
    On (holding .checked) (fun d => (d.lane 0).ctx0.cur = some (unitIn .checked) ∧ (d.lane 0).st = .active ∧ (d.lane 0).ring0.flows = true
      ∧ 96 ≤ (d.lane 0).lengthLimit (unitIn .checked).desc ∧ pagesFor 96 ≤ (d.lane 0).freePages)
    ∧ On (laned 0 { sealing with ctx0 := { sealing.ctx0 with cur := some (unitIn .checked) },
                                 units := List.replicate 64 (unitIn .accepted) }) (fun d => (d.lane 0).freePages < pagesFor 96)
    ∧ On (laned 0 { sealing with regs := { maxUnit := 95 } }) (fun d => (d.lane 0).lengthLimit (unitIn .checked).desc < 96)
    ∧ (∀ x ∈ [(0 : Nat), 1], ∀ b : Bool, let u := { unitIn .fetching with fetchUntil := busy.clk - x, failed := b }
        On (laned 0 { sealing with ctx0 := { sealing.ctx0 with cur := some u } }) fun d => (d.lane 0).ctx0.cur = some u ∧ (d.lane 0).st = .active
          ∧ u.failed = b ∧ (u.fetchUntil < d.clk ↔ x = 1))
    ∧ On (holding .resident) (fun d => (d.lane 0).ctx0.cur = some (unitIn .resident) ∧ (d.lane 0).ctx0.stopped = false ∧ d.power.mode = .record
        ∧ d.floorOk = true ∧ d.store.fullLanes.contains 0 = false ∧ (d.lane 0).acceptAt ≤ d.clk ∧ d.time.servo.run = true
        ∧ (d.lane 0).stream.ended = false)
    ∧ On ({ laned 0 { sealing with ctx0 := { sealing.ctx0 with cur := some (unitIn .resident), policy := .store } } with store := { fullLanes := [0] } }) (fun d =>
        d.store.fullLanes.contains 0 = true ∧ (d.lane 0).ctx0.policy ≠ .host)
    ∧ On { holding .resident with time := {} } (fun d => d.time.servo.run = false)
    ∧ On { holding .resident with store := { blocks := (List.range 245).map fun b => (b, {}) } } (fun d => d.floorOk = false)
    ∧ On (owing (unitIn .accepted) fun l => { l with key := some {} }) (fun d => (d.lane 0).nextUnit = some (unitIn .accepted)
        ∧ (d.lane 0).key = some {} ∧ (d.lane 0).engineBusy = false ∧ (d.lane 0).parked = none)
    ∧ (∀ p, On (owing (unitIn .encrypting) fun l => { l with prev := if p then some {} else none }) fun d =>
        (d.lane 0).inEngine = some (unitIn .encrypting) ∧ (d.lane 0).usesPrev (unitIn .encrypting) = p)
    ∧ (∀ c ∈ [[], [({} : EpochCap)]], ∀ e ∈ [10 * 2 ^ 32 - 1, 10 * 2 ^ 32], ∀ g ∈ [none, some (1, [2#8])],
        On (owing { unitIn .encrypting with segment := [1#8] } fun l => { l with caps := c, stream := { epochStart := e, signed := g } }) fun d =>
          ((d.lane 0).units.find? fun u => decide (u.st = .encrypting) && !u.segment.isEmpty) = some { unitIn .encrypting with segment := [1#8] }
            ∧ (d.lane 0).caps = c ∧ (d.boundaryDue 0 = false ↔ e = 10 * 2 ^ 32) ∧ (d.lane 0).stream.signed = g)
    ∧ (∀ c ∈ [1, 2], ∀ k ∈ [0, 3], ∀ b : Bool, On (laned 0 { sealing with waits := [{ kind := k, cls := c, at_ := some (busy.clk - b.toNat) }] }) fun d =>
        (d.lane 0).waits = [{ kind := k, cls := c, at_ := some (busy.clk - b.toNat) }] ∧ (busy.clk - b.toNat < d.clk ↔ b = true)
          ∧ ((d.lane 0).wants k = true ↔ k = 3))
    ∧ (∀ n ∈ [0, 7], On (busy.onTile n fun x => { x with running := some {} }) fun d => (d.tile n).running ≠ none)
    ∧ On (owing { unitIn .encrypting with desc := { typ := 1, payloadLen := 65552 } } fun l => { l with ctx1 := { job := some {} } }) (fun d =>
        ((d.lane 0).inEngine.map fun u => (u.desc.payloadLen, (d.lane 0).usesPrev u)) = some (65552, false) ∧ (d.lane 0).parked = none
          ∧ (d.lane 0).regs.suspEn = true ∧ (d.lane 0).ctx1.job ≠ none
          ∧ (d.lane 0).ctx1.running = false ∧ 16 % 16 = 0 ∧ (d.lane 0).regs.suspMin * 4096 ≤ 65552 - 16)
    ∧ On (owing (unitIn .suspended) fun l => { l with parked := some {} }) (fun d => (d.lane 0).parked = some {} ∧ ({} : Parked).verify = false ∧ (d.lane 0).mayResume {} = true
        ∧ ({} : Parked).at_ + (d.lane 0).regs.suspMax * 1000 < d.clk)
    ∧ On (owing (unitIn .suspended) fun l => { l with parked := some { at_ := busy.clk - 100000 } }) (fun d =>
        d.clk ≤ busy.clk - 100000 + (d.lane 0).regs.suspMax * 1000)
    ∧ (∀ s ∈ [4, 5], ∀ n ∈ [1, 2], On (verifying s n) fun d => let c := (d.lane 0).ctx 0
        (c.job.map fun j => j.payloadLen) = some 160 ∧ c.running = true ∧ c.closing = false ∧ c.jobFailed = false ∧ c.dir = .verifyChain
          ∧ ((d.lane 0).ring 0).flows = true ∧ elementOk segBytes = true ∧ fitBytes 160 segBytes = segBytes ∧ numAt segBytes 5 1 = 0x10
          ∧ (numAt segBytes 0x10 8 = c.stream ↔ s = 5) ∧ (numAt segBytes 0x18 8 = c.nextSeq ↔ n = 1)) := by
  refine ⟨?_, ?_, ?_, ?_, ?_, ?_, ?_, ?_, ?_, ?_, ?_, ?_, ?_, ?_, ?_, ?_, ?_⟩ <;> decide +kernel

theorem witness_laneControl :
    On (laned 0 sealing) (fun d => 0 < d.nLanes ∧ d.supply.clocks = true ∧ d.power.mode ≠ .close ∧ (d.lane 0).st = .active ∧ (d.lane 0).stream.ended = false
      ∧ (d.lane 0).ctx0.dir ≠ .closed)
    ∧ On (inMode .close) (fun d => d.supply.clocks = true ∧ d.power.mode = .close)
    ∧ On (laned 63 { st := .drain, ctx0 := { dir := .verifyOpen } }) (fun d => (d.lane 63).st = .drain ∧ (d.lane 63).ctx0.dir ≠ .seal)
    ∧ (∀ c : Bool, On (laned 63 { st := .drain, ctx0 := { dir := .seal }, stream := { epochStart := 10 * 2 ^ 32, closing := c } }) fun d => 63 < d.nLanes ∧ (d.lane 63).st = .drain
        ∧ (d.lane 63).stream.closing = c ∧ (d.lane 63).units = [] ∧ (d.lane 63).caps = [] ∧ (d.lane 63).stream.ended = false ∧ (d.lane 63).ctx0.dir = .seal ∧ d.boundaryDue 63 = false)
    ∧ On busy (fun d => (d.lane 0).units = [] ∧ (d.lane 0).ctx0.dir = .closed ∧ (d.lane 0).ctx1.dir = .closed ∧ 7 < d.nCombs
        ∧ (d.comb 7).clkEn = false ∧ d.combsOn < d.combsMax)
    ∧ On { busy with combs := ((Vector.replicate 8 {}).set! 0 { clkEn := true }).set! 1 { clkEn := true } } (fun d => (d.comb 7).clkEn = false ∧ d.combsMax ≤ d.combsOn)
    ∧ On { laned 0 sealing with combs := Vector.replicate 8 { clkEn := true } } (fun d =>
        (d.comb 0).clkEn = true ∧ d.combUsed 0 = true ∧ (d.comb 1).clkEn = true ∧ d.combUsed 1 = false) := by decide +kernel

/-- A store whose queue holds one descriptor, with a block's state. -/
def storing (ws : List W48) (b : Nat) (k : Block) : Dev :=
  { busy with
    store := { st := .ready, queue := { en := true, sqTail := 1, cqBase := 1000 }, blocks := [(b, k)] }
    cores := (Vector.replicate 9 {}).set! 0 { dmem := spSetAll zeroWord [] 0 ws } }

/-- Descriptors of the six operations, on block 256 of the close reserve and on container 1. -/
def storeDesc (op : Nat) : List W48 :=
  [BitVec.ofNat 48 (op + 5 * 2 ^ 16), if op ≤ 3 then (if op = 3 then 256#48 else BitVec.ofNat 48 (256 + 2 ^ 24)) else 0,
   if op = 1 ∨ op = 2 ∨ op = 4 then 4096#48 else 0, 0, if op = 4 then 24#48 else 0, if 4 < op then 1#48 else 0, if 4 < op then 1#48 else 0, 0]

theorem witness_storeDescriptors :
    (∀ t ∈ [16, 17], On { busy with store := { queue := { sizeLog2 := 4 } } } fun d => d.supply.clocks = true ∧ d.power.mode ≠ .close
      ∧ (idxDiff t d.store.queue.sqHead ≤ 2 ^ d.store.queue.sizeLog2 ↔ t = 16))
    ∧ (∀ op ∈ [0, 7], On (storing [BitVec.ofNat 48 op] 256 {}) fun d => d.storeOpcode = some op)
    ∧ (∀ op ∈ [1, 2, 3, 4, 5, 6], On (storing (storeDesc op) 256 { region := .closeReserve, readable := 8 }) fun d =>
        d.storeOpcode = some op ∧ (op ≠ 1 → d.storeCheck d.storeDescWords false = none) ∧ (op = 3 → (d.blk 256).bad = false)
          ∧ (5 ≤ op → (d.inSeqs (parseStoreOp d.storeDescWords)).Nodup))
    ∧ On (storing (storeDesc 1) 256 { region := .closeReserve, next := 8, readable := 8, pages := List.replicate 8 [] }) (fun d =>
        d.storeCheck d.storeDescWords true = none)
    ∧ (∀ op ∈ [1, 2, 3], On (storing (storeDesc op) 256 { region := .spare }) fun d => d.storeCheck d.storeDescWords false = some .regionDenied)
    ∧ (∀ h, On (storing (storeDesc 2) 256 { region := .closeReserve }) fun _ => (frames (if h then [] else [1#8])).2 = h)
    ∧ On { busy with store := { queue := { running := [{ op := 3, block := 3 }, { op := 1, host := true }] } } } (fun d =>
        d.store.queue.running[0]? = some { op := 3, block := 3 } ∧ (d.blk 3).erasing = false ∧ (d.blk 3).region ≠ .retired
          ∧ d.store.queue.running[1]? = some { op := 1, host := true }) := by decide +kernel

/-- A store with one page in programming, one erase, and so on. -/
abbrev stored (s : Store) : Dev := { busy with store := s }

theorem witness_pagesAndStagingMemory :
    (∀ b : Bool, let j : PageJob := { owner := .queue 1, block := 5, page := 0, data := [1#8], started := b }
        On (stored { pages := [j] }) fun d => d.store.pages = [j] ∧ j.done = false ∧ j.owner ≠ .closeReserve ∧ j.page = (d.blk j.block).readable
          ∧ d.power.mode ≠ .close)
    ∧ On (stored { blocks := [(5, { erasing := true })] }) (fun d => (d.blk 5).erasing = true ∧ (d.blk 5).region = .container ∧ (d.blk 6).erasing = false
        ∧ d.eraseSuspended = false ∧ d.logErasing ≠ some 6)
    ∧ On { busy with log := { erasing := true } } (fun d => d.logErasing = some (d.log.physOf 0))
    ∧ On (stored { blocks := [(5, { erasing := true })], pages := [{ owner := .writer, block := 6, page := 0, data := [] }] }) (fun d =>
        (d.blk 5).erasing = true ∧ (d.store.pages.any fun j => !j.done) = true)
    ∧ On (stored { blocks := [(5, { erasing := true })], queue := { running := [{ op := 1 }] } }) (fun d =>
        (d.blk 5).erasing = true ∧ (d.store.queue.running.any fun o => o.op == 1) = true)
    ∧ (∀ b : Bool, On (stored { journal := { inFlight := [[⟨0x50, zeros 100⟩]] }, blocks := [(264, { region := .journal })],
                                pages := [{ owner := .writer, block := 6, page := if b then 0 else 1, data := [], started := true }] }) fun d =>
        d.store.journal.inFlight = [[⟨0x50, zeros 100⟩]] ∧ d.dieTaken (d.blk d.store.journal.block).next = b ∧ (d.blk d.store.journal.block).next < 256
          ∧ (d.blk d.store.journal.block).next + (pieces pageBytes (jbytes [⟨0x50, zeros 100⟩])).length < 256
          ∧ (d.blk d.store.journal.block).region = .journal ∧ d.store.journal.taking = none)
    ∧ On (stored { st := .ready, writerEn := true, container := some { cur := some (⟨0x10, 0, 0, zeros 50, 0⟩, 0, 3) } }) (fun d =>
        d.store.st = .ready ∧ d.store.writerEn = true ∧ d.store.cuts = []
          ∧ (d.store.container.bind fun c => c.cur) = some (⟨0x10, 0, 0, zeros 50, 0⟩, 0, 3)
          ∧ 3 + (((frameOf 0x10 0 0 (zeros 50)).drop 3).take 4).length < (frameOf 0x10 0 0 (zeros 50)).length)
    ∧ On busy (fun d => d.store.st ≠ .ready ∧ d.store.writerEn = false)
    ∧ On (stored { cuts := [(5, 1)] }) (fun d => d.store.cuts ≠ [])
    ∧ (∀ w : Bool, On { pwr (fun p => { p with startStep := if w then .done else .reconcile }) with
            store := { st := .ready, writerEn := w, fresh := 100000, preerase := 8,
                       blocks := [(5, { erased := false, seq := 1 }), (6, { erased := false, seq := 2 })] } }
        fun d => (d.store.writerEn = true ∨ d.power.startStep = .reconcile) ∧ d.victim = some 5 ∧ (d.blk 5).bad = false
          ∧ d.ringErased + (d.store.blocks.filter fun b => decide (b.2.region = .container) && b.2.erasing).length < d.store.preerase)
    ∧ On (stored { st := .ready, trig := { toPlace := [(0, 9)], fifo := [(0, 9)] } }) (fun d =>
        d.store.st = .ready ∧ d.store.trig.toPlace = (0, 9) :: [] ∧ d.store.trig.fifo = (0, 9) :: [] ∧ d.supply.clocks = true ∧ d.power.mode ≠ .close
        ∧ d.store.st ≠ .off)
    ∧ (∀ t, t = busy.clk - 1 ∨ t = busy.clk → On (stored { trig := { rearm := [(31, t)] } }) fun d => d.store.trig.rearm = [(31, t)])
    ∧ On (stored { st := .ready }) (fun d => 0 < d.variant.dies ∧ d.variant.dies ≤ d.variant.dies)
    ∧ (∀ st : StgSt, ∀ en : Bool, On { busy with staging := { st := st, en := en } } fun d => d.staging.st = st ∧ d.staging.en = en ∧ d.stagedSegs = 0)
    ∧ On { busy with staging := { st := .drain } } (fun d => d.stagedSegs = 0)
    ∧ On { owing { unitIn .appended with staged := true } id with staging := { st := .drain } } (fun d => d.stagedSegs ≠ 0) := by
  refine ⟨?_, ?_, ?_, ?_, ?_, ?_, ?_, ?_, ?_, ?_, ?_, ?_, ?_, ?_, ?_, ?_⟩
  iterate 11 decide +kernel
  · rintro t (rfl | rfl) <;> decide +kernel
  · decide +kernel
  · intro st en; cases st <;> cases en <;> decide +kernel
  all_goals decide +kernel

/-! Ports and tiles -/

/-- A request frame, and the header of a datagram of one fragment before its body. -/
def qcmd (op : Nat) (b : List Byte) : List Byte := ascii "QCMD" ++ [1#8, 0#8] ++ le 2 op ++ le 4 b.length ++ le 4 7 ++ b
def qmbx (typ seq len : Nat) (b : List Byte) : List Byte :=
  ascii "QMBX" ++ [1#8] ++ le 1 typ ++ zeros 10 ++ le 8 seq ++ [0#8, 1#8, 0#8, 0#8] ++ le 4 len ++ b

/-- The working device with both network ports at the rate loaded at power-up, and a session of them. -/
def netted : Dev := (busy.onPort 2 fun q => { q with eth := { q.eth with cfg := 1 } }).onPort 3 fun q => { q with eth := { q.eth with cfg := 1 } }
abbrev netSess (p i : Nat) (s : Session) : Dev := netted.onSess p i fun _ => s

abbrev slotIs (p i : Nat) (s : Slot) : Dev := busy.onSlot p i fun _ => s
abbrev sessioned (p i : Nat) (s : Session) : Dev := busy.onSess p i fun _ => s

/-- Random numbers can be drawn by every instance. -/
def drawable : Rng := { ready := true, insts := Vector.replicate 9 { st := .ready } }

/-- Every slot of the ports with windows, and every session. -/
def slotRefs : List (Nat × Nat) := [(0, 0), (0, 3), (1, 0), (4, 0)]
def sessRefs : List (Nat × Nat) := [(0, 0), (1, 0), (2, 0), (3, 7), (4, 0)]

theorem witness_mailboxesAndSessions :
    (∀ r ∈ slotRefs, ((r.1 = 0 ∨ r.1 = 1) ∧ r.2 < 4 ∨ r.1 = 4 ∧ r.2 = 0)
      ∧ (∀ st ∈ [SlotSt.idle, .busy, .done], On (slotIs r.1 r.2 { st := st }) fun d => d.supply.clocks = true ∧ d.power.mode ≠ .standby ∧ (d.slot r.1 r.2).st = st)
      ∧ On (busy.putWindow r.1 (reqWindow r.1 r.2) (qcmd 1 [])) (fun d => d.serves = true ∧ d.portsCfg.arrivals = [] ∧ 16 ≤ windowSize r.1
          ∧ frameShape (spGetAll zeroByte (d.port r.1).mbx.win (reqWindow r.1 r.2) 16) = none)
      ∧ On busy (fun d => d.serves = true ∧ (d.port r.1).pcie.d3hot = false 
          ∧ frameShape (spGetAll zeroByte (d.port r.1).mbx.win (reqWindow r.1 r.2) 16) ≠ none)
      ∧ (∀ b : Bool, On (busy.onPort r.1 fun q => { q with mbx := { q.mbx with notices := { size := 4, tail := if r.1 = 4 then 1 else 16 } } }) fun d =>
          let n := (d.port r.1).mbx.notices
          idxDiff n.tail ((if b then 0 else 2 ^ 32 - 1) % 2 ^ 32) ≤ 2 ^ (if r.1 = 4 then 0 else n.size) ↔ b = true)
      ∧ On (pwr fun p => { p with bootDone := false }) (fun d => d.serves = false ∧ (d.slot r.1 r.2).st = .idle)
      ∧ ∀ b : Bool, On { pwr (fun p => { p with bootDone := false }) with
            portsCfg := { edge := busy.clk - b.toNat, arrivals := [(4, 1)], edgeReqs := [(4, 1)] } } fun d =>
          d.serves = false ∧ (d.portsCfg.edge = d.clk ↔ b = false) ∧ d.portsCfg.arrivals = [(4, 1)] ∧ d.portsCfg.edgeReqs = [(4, 1)]
            ∧ (r.1 < 4 ∨ r.1 = 4 ∧ r.2 < 1))
    ∧ (∀ r ∈ sessRefs, r.1 < 5 ∧ r.2 < nSess r.1
      ∧ On busy (fun d => d.supply.clocks = true ∧ (d.sess r.1 0).st ≠ .locked ∧ (d.sess r.1 r.2).st ≠ .locked)
      ∧ (∀ b : Bool, On (sessioned r.1 r.2 { st := .active, idleAt := some (busy.clk - b.toNat) }) fun d =>
          (d.sess r.1 r.2).idleAt = some (busy.clk - b.toNat) ∧ (d.sess r.1 r.2).st = .active ∧ (busy.clk - b.toNat < d.clk ↔ b = true))
      ∧ (∀ b : Bool, ∀ n ∈ [3, 4, 5], On ((sessioned r.1 r.2 { st := .challenged, expires := 10 * 2 ^ 32 + b.toNat }).onPort r.1 fun q => { q with fails := n }) fun d =>
          (d.sess r.1 r.2).st = .challenged ∧ (d.now < (d.sess r.1 r.2).expires ↔ b = true) ∧ (d.port r.1).fails = n)
      ∧ ∀ b : Bool, On (busy.onPort r.1 fun q => { q with lockAt := some (busy.clk + b.toNat) }) fun d =>
          (d.port r.1).lockAt = some (busy.clk + b.toNat) ∧ (d.clk < busy.clk + b.toNat ↔ b = true)) := by
  refine ⟨?_, ?_⟩ <;> decide +kernel

theorem witness_datagramsAndPortPower :
    (∀ p ∈ [2, 3],
      On netted (fun d => d.udpUp p ∧ udpShape [] = false)
      ∧ (∀ role ∈ [1, 5], On { netted with rng := drawable } fun d => let b := qmbx 1 0 100 (le 1 role ++ [1#8] ++ zeros 98)
          d.udpUp p ∧ udpShape b = true ∧ d.canDraw 0 = true ∧ d.serves = true ∧ d.portLocked p = false ∧ numAt b 5 1 = 1 ∧ numAt b 0x19 1 = 1
          ∧ b.length = 132 ∧ numAt b 0x1C 4 = 100 ∧ helloOk p (b.drop 32) = true ∧ d.life.st ≠ .retired ∧ (d.port p).eth.hello = []
          ∧ (∀ j, j < 8 → (d.sess p j).st ≠ .challenged) ∧ ((List.range 8).find? fun j => (d.sess p j).st == .none) = some 0
          ∧ (d.roleOk p (numAt b 32 1) = true ↔ role = 1))
      ∧ (On { (netSess p 7 { st := .challenged }) with rng := drawable } fun d => let b := qmbx 3 0 8 (zeros 8)
          d.udpUp p ∧ udpShape b = true ∧ d.canDraw 0 = true ∧ d.serves = true ∧ d.portLocked p = false ∧ numAt b 5 1 = 3
          ∧ d.sessBy p (numAt b 8 8) .challenged = some 7 ∧ (d.sess p 7).reasm = [] ∧ numAt b 0x19 1 = 1 ∧ numAt b 0x1C 4 + 32 = b.length
          ∧ numAt b 0x1C 4 ≤ 1288 ∧ bytesAt b 34 6 = zeros 6 ∧ (d.port p).fails < 4)
      ∧ (∀ tl ∈ [(0x10, 16), (0x13, 8), (0x21, 8), (0x1F, 0)], On (netSess p 7 { st := .active }) fun d => let b := qmbx tl.1 1 tl.2 (zeros (tl.2 + 16))
          d.udpUp p ∧ udpShape b = true ∧ d.sessBy p (numAt b 8 8) .active = some 7 ∧ (d.sess p 7).reasm = [] ∧ numAt b 0x19 1 = 1
          ∧ numAt b 0x1C 4 + 48 = b.length ∧ numAt b 5 1 = tl.1 ∧ numAt b 0x1C 4 = tl.2 ∧ numAt b 0x10 8 = (d.sess p 7).rxSeq + 1
          ∧ (d.sess p 7).running = false ∧ d.exportOf p 7 = none)
      ∧ (∀ n ∈ [3, 4], ∀ b : Bool, On (netSess p 7 { unacked := [{ typ := 0x12, at_ := busy.clk - 200000000 - b.toNat, tries := n }] }) fun d =>
          (d.sess p 7).unacked = [{ typ := 0x12, at_ := busy.clk - 200000000 - b.toNat, tries := n }] ∧ (d.sess p 7).classes = 0
          ∧ (busy.clk - 200000000 - b.toNat + ms (d.port p).eth.retx < d.clk ↔ b = true)))
    ∧ (∀ p ∈ [0, 1],
      On busy (fun d => d.supply.pgood = true ∧ d.supply.clocks = true)
      ∧ (∀ n ∈ [0, 63], On (busy.onLane n fun l => { l with ring0 := { valid := true, port := p } }) fun d =>
          (d.lane n).ring0.valid = true ∧ (d.lane n).ring0.port = p)
      ∧ On ((slotIs p 3 { st := .busy, resp := some [] }).onPort p fun q => { q with pcie := { d3hot := true } }) (fun d =>
          (d.port p).pcie.d3hot = true ∧ (d.slot p 3).st = .busy ∧ (d.slot p 3).resp = some [])
      ∧ ∀ w ∈ [0, 7], On { inMode .standby with power := { mode := .standby, wakeEn := BitVec.ofNat 32 w } } fun d =>
          d.power.mode = .standby ∧ d.power.target ≠ some .idle ∧ (flag d.power.wakeEn (1 + p) = true ↔ w = 7) ∧ (flag d.power.wakeEn 0 = true ↔ w = 7))
    ∧ On (pwr fun x => { x with mode := .idle, target := some .standby, wakeEn := 7#32 }) (fun d => d.power.mode = .idle ∧ d.power.target = some .standby
        ∧ flag d.power.wakeEn 0 = true ∧ flag d.power.wakeEn 1 = true ∧ flag d.power.wakeEn 2 = true)
    ∧ ∀ b : Bool, On { busy with portsCfg := { sclAt := some (busy.clk - b.toNat) } } fun d =>
        d.portsCfg.sclAt = some (busy.clk - b.toNat) ∧ (busy.clk - b.toNat < d.clk ↔ b = true) := by
  refine ⟨fun p hp => ?_, by decide +kernel, by decide +kernel, by decide +kernel⟩
  simp only [List.mem_cons, List.not_mem_nil, or_false] at hp
  unfold Dev.udpUp
  rcases hp with rfl | rfl <;> refine ⟨?_, ?_, ?_, ?_, ?_⟩ <;> decide +kernel

/-- The eight words of an ECDSA verification of one byte, or, with code 0, of no operation, and a device whose submitter 1 has them
in its queue. -/
def jobWords (op : Nat) : List Nat := [op + 2 * 1024, 0x7FF07FF, 0, 1, 0, 193, 0, 0]
def queued (op : Nat) (q : TileQueue) : Dev :=
  (busy.onCore 1 fun c => { c with dmem := spSetAll zeroWord [] 0 ((jobWords op).map fun w => BitVec.ofNat 48 w) }).onPkq 1 fun _ => q

theorem witness_tileQueues :
    On busy (fun d => let q := d.pkq 0
      d.supply.clocks = true ∧ d.power.mode ≠ .close ∧ 0 ≤ d.nCombs ∧ 17 < 2 ^ 32 ∧ 2 ^ q.size < idxDiff 17 q.sqHead ∧ idxDiff 16 q.sqHead ≤ 2 ^ q.size
        ∧ q.en = false)
    ∧ On (queued 0x21 { en := true, cqTail := 16 }) (fun d => 2 ^ (d.pkq 1).size ≤ idxDiff (d.pkq 1).cqTail (d.pkq 1).cqHead + d.jobsOf 1)
    ∧ (∀ op ∈ [0x21, 0], ∀ ab ∈ [[], [0]], On (queued op { en := true, cqBase := 64, cqTail := 15, aborted := ab }) fun d => let q := d.pkq 1
        d.supply.clocks = true ∧ 1 ≤ d.nCombs ∧ idxDiff 1 q.sqHead ≤ 2 ^ q.size ∧ q.en = true ∧ (q.aborted = [] ∨ q.aborted = [q.sqHead]) ∧ 1 = idxAdd q.sqHead 1
          ∧ idxDiff q.cqTail q.cqHead + d.jobsOf 1 < 2 ^ q.size
          ∧ (spGetAll zeroWord (d.core 1).dmem (q.sqBase + q.sqHead % 2 ^ q.size * 8) 8).map BitVec.toNat = jobWords op
          ∧ d.jobCheck (jobWords op) (parseJob 1 (jobWords op)) = if op = 0 then some .badDescType else none)
    ∧ 65535 < 2 ^ 16 ∧ 256 % 256 = 0 ∧ 255 % 256 ≠ 0 := by decide +kernel

/-- A tile that runs a job, and jobs that wait; every other tile is off. -/
def tiled (t : Nat) (j : Option Job) (parked ws : List Job) : Dev :=
  (({ busy with rng := drawable } : Dev).onTile t fun x => { x with running := j, parked := parked }).onTiles fun x =>
    { x with waiting := ws, tileEn := 2 ^ t }

theorem witness_tileJobs :
    (∀ r ∈ tileRows, ∀ t ∈ [7],
      On (tiled t none [] [{ op := r.2 }]) (fun d => d.supply.clocks = true ∧ t < 8 ∧ (d.tile t).running = none
        ∧ d.firstFor t (d.tileTop t) ((d.tile t).parked.length - 1) = some { op := r.2 })
      ∧ (∀ c ∈ [none, some 2, some 15, some 16], ∀ k ∈ [none, some (busy.clk - 1), some busy.clk],
        On (tiled t (some { op := r.2, abandon := c, abandonAt := k, outAddr := 512, dst := 256 }) [] []) fun d =>
          (d.tile t).running = some { op := r.2, abandon := c, abandonAt := k, outAddr := 512, dst := 256 } ∧ (d.tile t).parked = []
          ∧ (k ≠ some d.clk ↔ k ≠ some busy.clk) ∧ d.firstFor t (some { op := r.2, abandon := c, abandonAt := k, outAddr := 512, dst := 256 }) 0 = none
          ∧ (d.pkq 0).cqBase + (d.pkq 0).cqTail % 2 ^ (d.pkq 0).size * 2 + 2 ≤ 512))
    ∧ On (tiled 0 (some { op := 0x31, cls := 3, cmp := true }) [] [{ op := 0x21, cls := 2 }]) (fun d => (d.tile 0).running = some { op := 0x31, cls := 3, cmp := true }
        ∧ (d.tile 0).parked.length < 3 ∧ (d.firstFor 0 (some { op := 0x31, cls := 3, cmp := true }) (d.tile 0).parked.length).isSome = true
        ∧ d.belowAlarm 10)
    ∧ On (({ busy with keys := { slots := [(256, { openFor := some 1 })] } }) : Dev) (fun d => (d.keySlot 256).openFor = some 1 ∧ zeros 32 ≠ []) := by
  unfold Dev.belowAlarm
  refine ⟨?_, ?_, ?_⟩ <;> decide +kernel

/-! Keys -/

/-- Key operation registers with an attribute word, and the working device with them for every requester, drawing random numbers. -/
def opRegs (a dst src : Nat) : KeyOpRegs :=
  { attrLo := BitVec.ofNat 32 a, attrHi := BitVec.ofNat 32 (a / 2 ^ 32), dst := dst, src := src, len := 40 }
def keying (o : KeyOpRegs) (slots : List (Nat × KeySlot)) : Dev :=
  { busy with rng := drawable, keys := { ops := Vector.replicate 9 o, slots := slots } }

/-- A key of an attribute word, its bytes zero. -/
def keyOf (a : Nat) : KeySlot := { attr := a, key := zeros (algLen (attrAlg a)) }

/-- Attribute words for the general slots, shared by all requesters: of an ALG and USE, persistent or not, with a flavour. -/
def general (alg use : Nat) (persist : Bool) (flavour : Nat) : Nat := mkAttr alg use 0 true 4 persist 15 7 + flavour * 65536

/-- DST takes the key, and the key log has room for it. -/
abbrev mayEnter (d : Dev) (who n a : Nat) : Prop := d.takesKey who n a ∧ d.logClosed n a = false ∧ d.noLogRoom n a 1536 = false ∧ d.noLogRoom n a 0 = false

theorem witness_keyOperations :
    (∀ b : Bool, On (keying { busy := b } []) fun d => d.supply.clocks = true ∧ d.power.mode ≠ .close ∧ 8 ≤ d.nCombs ∧ d.nCombs < 9
        ∧ (d.keyRegs 8).busy = b)
    ∧ (∀ who ∈ [0, 8], ∀ b : Bool, ∀ alg ∈ [1, 2, 3, 4], On (keying (opRegs (general alg 1 b 0) 512 513) []) fun d =>
        let a := withOrigin (d.keyRegs who).attr 0
        mayEnter d who (d.keyRegs who).dst a ∧ (attrAlg a ≤ 3 ↔ alg ≤ 3) ∧ d.canDraw who = true ∧ attrPersist a = b)
    ∧ (∀ who ∈ [0, 8], On (keying (opRegs (general 1 1 false 0) 512 513) [(512, keyOf (general 1 1 false 0))]) fun d =>
        let a := withOrigin (d.keyRegs who).attr 0
        attrDefined a = true ∧ 1 ≤ attrAlg a ∧ attrAlg a ≤ 3 ∧ d.slotCheck (d.keyRegs who).dst (attrAlg a) true = none ∧ (d.keySlot 512).full = true)
    ∧ (∀ who ∈ [0, 8], ∀ b : Bool, ∀ f ∈ [0, 1, 2], On (keying (opRegs (general 1 1 b f) 512 513) [(67, keyOf (mkAttr 2 4 3 false 4 false 15 2)), (513, keyOf (general 2 4 false 0))]) fun d =>
        let a := withOrigin (d.keyRegs who).attr 2
        mayEnter d who 512 a ∧ f ≤ 2 ∧ attrSec a ≤ (d.signerOf who).2 ∧ d.slotAbsent 513 = false ∧ inSram who (d.keyRegs who).addr 40 = true
          ∧ f = attrFlavour a ∧ (d.keySlot 513).full = true ∧ d.mayUse who 513 4 = true ∧ (d.keySlot 67).full = true ∧ d.mayUse who 67 4 = true
          ∧ attrPersist a = b)
    ∧ (∀ who ∈ [0, 8], ∀ f ∈ [0, 1, 2], ∀ src ∈ [513, 0x7FE], On (keying (opRegs (general 1 1 false f) 512 src) []) fun d =>
        let a := withOrigin (d.keyRegs who).attr 2
        mayEnter d who 512 a ∧ attrSec a ≤ (d.signerOf who).2 ∧ (d.keyRegs who).len ≤ 64 ∧ f = attrFlavour a ∧ (d.keySlot 513).full = false
          ∧ d.hukUsable = true ∧ (d.keyRegs who).src = src)
    ∧ (∀ who ∈ [0, 8], ∀ w : Bool, On (keying (opRegs 0 512 513) [(65, keyOf (mkAttr 1 3 2 false 0 false (if who = 0 then 0 else 15) 2)), (513, keyOf (mkAttr 1 1 0 w 4 false 15 7))]) fun d =>
        (d.keyRegs who).src ≤ 1087 ∧ d.slotAbsent 513 = false ∧ inSram who (d.keyRegs who).addr ((d.keySlot 513).key.length + 8) = true
          ∧ (d.keySlot 513).full = true ∧ (d.keySlot 65).full = true ∧ attrWrapOut (d.keySlot 513).attr = w ∧ owns who (attrOwner (d.keySlot 513).attr) = true
          ∧ lcAdmits (attrLc (d.keySlot 513).attr) d.life.st = true ∧ d.mayUse who 65 3 = true)
    ∧ (∀ who ∈ [0, 8], ∀ b : Bool, On (keying (opRegs (general 1 1 b 0) 512 513) [(513, keyOf (general 1 3 false 0))]) fun d =>
        let a := withOrigin (d.keyRegs who).attr 1
        mayEnter d who 512 a ∧ (d.keyRegs who).len ≠ 0 ∧ (d.keyRegs who).len ≤ 2320 ∧ inSram who (d.keyRegs who).addr (d.keyRegs who).len = true
          ∧ (d.keySlot 513).full = true ∧ d.mayUse who 513 3 = true)
    ∧ (∀ r ∈ [0, 1, 2, 3], ∀ who ∈ [0, 8], On (keying { opRegs 0 512 513 with laneReg := 63 + 64 * r } [(513, keyOf (general 1 (if r ≤ 1 then 1 else 2) false 0))]) fun d =>
        let o := d.keyRegs who
        o.laneReg % 64 = 63 ∧ o.laneReg / 64 % 4 = r ∧ 63 < d.nLanes ∧ (d.keySlot 513).full = true ∧ attrAlg (d.keySlot 513).attr = 1
          ∧ d.mayUse who 513 (if r ≤ 1 then 1 else 2) = true ∧ (who = 0 ∨ who = 1 + 63 / 8))
    ∧ On { keying { opRegs 0 512 513 with laneReg := 32 } [] with variant := .vtz8032 } (fun d => d.nLanes ≤ (d.keyRegs 0).laneReg % 64 ∧ (d.keySlot 513).full = false)
    ∧ (∀ who ∈ [0, 8], On (keying (opRegs (general 1 1 false 0) 512 513) []) fun d => mayEnter d who 512 (withOrigin (d.keyRegs who).attr 3)
        ∧ (d.keyRegs who).dst ≤ 1087 ∧ d.slotAbsent 512 = false ∧ (d.keySlot 512).full = false)
    ∧ (∀ w ∈ [0, 1, 15], ∀ b : Bool, ∀ n ∈ [64, 512, 1024], On (keying (opRegs 0 n 513) [(n, keyOf (mkAttr 1 1 0 false 4 b w (slotClass n)))]) fun d =>
        (d.keySlot n).full = true ∧ (owns 0 (attrOwner (d.keySlot n).attr) = true ↔ w ≠ 1) ∧ (slotClass n = 5 ∨ slotClass n = 6 ↔ n ≠ 512)
          ∧ d.keys.genClosed 2 n = false ∧ attrPersist (d.keySlot n).attr = b) := by
  refine ⟨?_, ?_, ?_, ?_, ?_, ?_, ?_, ?_, ?_, ?_, ?_⟩ <;> decide +kernel

theorem witness_keyRecordsAndEpochs :
    (∀ n ∈ [1, 2], On { busy with keys := { pending := [{ rec_ := { kind := 1 }, done := .op 8, fails := n }] } } fun d =>
      d.keys.pending = [{ rec_ := { kind := 1 }, done := .op 8, fails := n }] ∧ (n < 2 ↔ n = 1))
    ∧ On busy (fun d => d.keys.pending = [] ∧ d.power.mode ≠ .close)
    ∧ (∀ k ∈ [0, 10 * 2 ^ 32], On { busy with rng := drawable, keys := { epochS := 5, kekEpoch := k, trust := Vector.replicate 16 { purpose := 3 }, slots := [(65, keyOf kekAttr)] } } fun d =>
        d.power.bootDone = true ∧ d.canDraw 0 = true ∧ d.time.servo.run = true ∧ d.barred 67 = false ∧ d.keys.trustOf 3 = some { purpose := 3 }
          ∧ (d.kekCurrent = true ↔ k ≠ 0))
    ∧ (∀ k ∈ [none, some { epoch := 10 * 2 ^ 32 : Kek }], On { busy with keys := { epochS := 5, epoch := 5 * 2 ^ 32, nextKek := k, slots := [(65, keyOf kekAttr), (67, keyOf secretAttr)] } } fun d =>
        d.time.servo.run = true ∧ d.keys.epoch < d.keyEpochOf d.now ∧ d.keys.nextKek = k ∧ (∀ x ∈ k, x.epoch = d.keyEpochOf d.now) ∧ (d.keySlot 65).full = true ∧ (d.keySlot 67).full = true)
    ∧ On { busy with keys := { epochS := 5, epoch := 10 * 2 ^ 32 } } (fun d => d.keyEpochOf d.now ≤ d.keys.epoch)
    ∧ (∀ t ∈ [0, 10 * 2 ^ 32], On { busy with keys := { clear66 := some t } } fun d => d.keys.clear66 = some t
        ∧ (Nat.max (boundaryOf (lastBoundary t d.hive.epoch + 1) d.hive.epoch) (t + 2 ^ 32) ≤ d.now ↔ t = 0)) := by
  refine ⟨?_, ?_, ?_, ?_, ?_, ?_⟩ <;> decide +kernel

/-! Random numbers, tamper monitors and the log -/

/-- What holds of every part of a vector and of the value outside it. -/
theorem vget_all {α : Type} {n : Nat} {v : Vector α n} {a : α} {P : α → Prop} (h : ∀ i, i < n → P (vget v i a)) (h0 : P a) (i : Nat) :
    P (vget v i a) := by
  by_cases hi : i < n
  · exact h i hi
  · simpa [vget, hi] using h0

/-- Tamper monitors far from an alarm, with every input in use. -/
abbrev calm : TmpCfg := { cls := Vector.replicate 11 { n := 16 }, inEn := 255, inPol := 255, loopEn := 15 }
abbrev noisy (r : Rng) : Dev := { busy with rng := r, tamper := { cfg := calm } }
abbrev sources (b : Bool) (one other : SrcSt) : Rng := { stA := if b then other else one, stB := if b then one else other }

theorem witness_noiseSourcesAndRandom :
    (noisy {}).power.mode ≠ .close
    ∧ (∀ b : Bool, ∀ one ∈ [SrcSt.off, .start, .ok, .failed], ∀ other ∈ [SrcSt.ok, .failed],
      On (noisy { sources b one other with ready := true, activeB := b }) fun d => d.supply.clocks = true ∧ d.rng.src b = one ∧ d.rng.src (!b) = other
        ∧ d.rng.activeB = b ∧ d.rng.ready = true ∧ d.rng.stopped = false)
    ∧ (noisy {}).belowAlarm 9
    ∧ (∀ b : Bool, ∀ n ∈ [2, 3], ∀ l ∈ [LcSt.fleet, .service], ∀ st ∈ [SrcSt.off, .failed],
      On { noisy { sources b st .ok with failsA := n, failsB := n } with life := { st := l } } fun d =>
        d.life.st = l ∧ (if b then d.rng.failsB else d.rng.failsA) = n ∧ d.rng.src b = st)
    ∧ On (noisy {}) (fun d => d.rng.src d.rng.activeB ≠ .ok)
    ∧ (∀ need ∈ [none, some PoolNeed.reseed, some .instantiate], On (noisy { stA := .ok, cpool := 10240, insts := (Vector.replicate 9 {}).set 8 { need := need } }) fun d =>
        d.rng.stopped = false ∧ d.rng.condFail = false ∧ d.rng.src d.rng.activeB = .ok ∧ d.rng.fills = [] ∧ 10240 ≤ d.rng.cpool ∧ 8 < d.nInst
          ∧ (d.inst 8).need = need)
    ∧ (∀ need, ∀ j, j ≠ 8 → ((noisy { insts := (Vector.replicate 9 {}).set 8 { need := need } }).inst j).need = none)
    ∧ (∀ c : Bool, ∀ i, ((noisy { condFail := c, stA := .ok }).inst i).st ≠ .failed)
    ∧ (1 : Nat).testBit 0 = true ∧ (2 ^ 9 : Nat).testBit (1 + 8) = true
    ∧ (∀ st ∈ [InstSt.uninst, .ready, .wait, .failed], ∀ n ∈ [31, 32, 47, 48], ∀ stop : Bool,
      On (noisy { pool := n, stopped := stop, insts := Vector.replicate 9 { st := st } }) fun d =>
        8 < d.nInst ∧ (d.inst 8).st = st ∧ d.rng.pool = n ∧ d.rng.stopped = stop)
    ∧ (∀ n ∈ [1023, 1024], On (noisy { ready := true, insts := Vector.replicate 9 { st := .ready, reqs := n } }) fun d =>
        d.canDraw 8 = true ∧ (d.rng.reseedInt ≤ (d.inst 8).reqs ↔ n = 1024))
    ∧ (∀ b : Bool, On ((noisy { fills := [{ count := 32, until_ := busy.clk - b.toNat }] }).onSlot 0 0 fun _ => { st := .busy }) fun d =>
        d.rng.fills = [{ count := 32, until_ := busy.clk - b.toNat }] ∧ (busy.clk - b.toNat < d.clk ↔ b = true) ∧ d.waitsAt 0 0) := by
  refine ⟨by decide +kernel, by decide +kernel, ?_, by decide +kernel, by decide +kernel, by decide +kernel, fun need j hj => ?_, fun c i => ?_, by decide, by decide,
    by decide +kernel, by decide +kernel, by decide +kernel⟩
  · unfold Dev.belowAlarm; decide +kernel
  · have h : ∀ i, i < 9 → i ≠ 8 → (vget ((Vector.replicate 9 ({} : Instance)).set 8 { need := need }) i {}).need = none := by
      cases need with
      | none => decide +kernel
      | some x => cases x <;> decide +kernel
    by_cases hi : j < 9
    · exact h j hi hj
    · simp [Dev.inst, vget, hi]
  · exact vget_all (P := fun x : Instance => x.st ≠ .failed) (by cases c <;> decide +kernel) (by decide) i

theorem witness_tamperEventsAndAlarms :
    (∀ c ∈ [0, 4, 5, 6], ∀ site ∈ [3], ∀ det ∈ [1, 2], ∀ k ∈ [[], [(⟨c, 3 - det, 0, busy.clk, false⟩ : Corrob)]],
      On { noisy {} with tamper := { cfg := calm, corrob := k } } fun d => d.watches c = true ∧ d.tamper.takesPart c site = true
        ∧ (d.tamper.corrob.find? fun x => x.cls == c && x.det != det && decide (d.clk ≤ x.until_)) = k.head? ∧ d.power.mode ≠ .close)
    ∧ (∀ c ∈ [0, 1, 2, 3, 4, 5, 6, 7, 8, 9, 10], (noisy {}).belowAlarm c ∧ (noisy {}).supply.clocks = true)
    ∧ (∀ st ∈ [LaneState.active, .idle, .drain], On ((noisy {}).onLane 63 fun x => { x with st := st }) fun d => d.belowAlarm 8 ∧ 63 < d.nLanes ∧ (d.lane 63).st = st)
    ∧ On { noisy {} with store := { st := .ready } } (fun d => d.belowAlarm 8 ∧ d.store.st = .ready)
    ∧ On busy (fun d => d.tamper.takesPart 5 0 = false ∧ d.tamper.takesPart 6 3 = false)
    ∧ (∀ l ∈ [LcSt.fleet, .service], On { noisy {} with life := { st := l } } fun d => d.watches 7 = true ∧ d.life.st = l)
    ∧ (∀ n ∈ [0, 7], ∀ v : Bool, On (noisy {}) fun d => d.watches 5 = true ∧ (∀ x ∈ d.tamper.encDebounce, x.1 ≠ n) ∧ (d.tamper.encLevel.testBit n ≠ v ↔ v = true))
    ∧ (∀ n ∈ [0, 7], ∀ v b : Bool, ∀ en ∈ [0, 255], On { busy with tamper := { cfg := { calm with inEn := en, inPol := if v then 255 else 0 }, encDebounce := [(n, v, busy.clk - b.toNat)] } } fun d =>
        d.tamper.encDebounce = [(n, v, busy.clk - b.toNat)] ∧ (busy.clk - b.toNat < d.clk ↔ b = true) ∧ (d.tamper.cfg.inEn.testBit n = true ↔ en = 255)
          ∧ d.watches 5 = true ∧ d.tamper.cfg.inPol.testBit n = v ∧ d.tamper.corrob = [])
    ∧ (∀ b : Bool, On { busy with tamper := { corrob := [⟨6, 1, 0, busy.clk - b.toNat, false⟩] } } fun d =>
        d.tamper.corrob = [⟨6, 1, 0, busy.clk - b.toNat, false⟩] ∧ (busy.clk - b.toNat < d.clk ↔ b = true))
    ∧ (∀ n ∈ [0, 1], On { busy with aon := { mirror := n } } fun d => d.supply.pgood = true ∧ d.supply.clocks = true ∧ d.power.mode ≠ .close
        ∧ Nat.max d.aon.pending d.aon.mirror = n)
    ∧ (∀ l ∈ [LcSt.fleet, .provision, .service], ∀ n ∈ [3, 4], On { noisy {} with life := { st := l }, tamper := { slots := List.replicate n {} } } fun d =>
        d.power.mode ≠ .close ∧ (d.tmpOpen = true ↔ l ≠ .fleet) ∧ d.tamper.slots.length = n ∧ d.life.st = l)
    ∧ (∀ m ∈ [Mode.idle, .standby, .test, .record, .ingest], On { inMode m with life := { pendingTampered := true } } fun d =>
        d.life.pendingTampered = true ∧ d.power.mode = m)
    ∧ (∀ c ∈ [0, 6], ∀ r ∈ [0, 2, 4, 5], ∀ l ∈ [LcSt.fleet, .blank],
      On ({ busy with tamper := { cfg := { cls := Vector.replicate 11 { resp := r }, loopEn := 8 } }, life := { st := l } }.onLane 63 fun x => { x with st := .active }) fun d =>
        d.watches c = true ∧ d.tamper.takesPart c 3 = true ∧ (vget d.tamper.cfg.cls c {}).resp = r ∧ d.power.mode = .record ∧ 63 < d.nLanes ∧ (d.lane 63).st = .active
          ∧ ((vget d.tamper.events c []).filter fun t => decide (d.clk ≤ t + (vget d.tamper.cfg.cls c {}).window)).length + 1 = (vget d.tamper.cfg.cls c {}).n)
    ∧ (∀ c ∈ [2, 4, 6], On { inMode .vault with tamper := { cfg := { loopEn := 15 } } } fun d => d.watches c = true ∧ d.tamper.takesPart c 0 = true ∧ d.power.mode = .vault) := by
  unfold Dev.belowAlarm
  refine ⟨?_, ?_, ?_, ?_, ?_, ?_, ?_, ?_, ?_, ?_, ?_, ?_, ?_, ?_⟩ <;> decide +kernel

theorem witness_eventLogPages :
    (∀ b h o : Bool, On { busy with log := { open_ := o, held := h, buffer := [{ index := 5 }, { index := 6 }], flushAt := some (busy.clk - b.toNat) } } fun d =>
      d.log.flushAt = some (busy.clk - b.toNat) ∧ (busy.clk - b.toNat < d.clk ↔ b = true) ∧ (d.log.appending = true ↔ o = true) ∧ d.log.held = h
        ∧ d.log.buffer ≠ [] ∧ d.log.buffer.getLast? = some { index := 6 } ∧ d.log.buffer.dropLast ≠ [])
    ∧ (∀ c ∈ [none, some 5], ∀ n ∈ [0, 254], ∀ f : Bool, On { busy with log := { pages := [[{ index := 5 }]], clearIdx := c, openPages := n, frozen := f } } fun d =>
        d.log.pages = [[{ index := 5 }]] ∧ d.log.carry = [] ∧ d.dieTaken d.log.openPages = false ∧ (d.replacement .eventLog).isSome = true ∧ d.replacement .eventLog ≠ some (d.log.physOf 0) ∧ d.log.frozen = f ∧ d.log.clearIdx = c ∧ d.log.openPages + 1 < 256 ∧ d.log.blocks = [[]] ∧ d.log.buffer = [])
    ∧ On (stored { pages := [{ owner := .writer, block := 5, page := 0, data := [], started := true }] }) (fun d => d.dieTaken d.log.openPages = true)
    ∧ On busy (fun d => d.log.pages = [] ∧ d.log.carry = [])
    ∧ (∀ n ∈ [0, 1], ∀ e : Bool, ∀ c ∈ [29999, 30000], On { busy with log := { clearErase := n, erasing := e },
                                                                      store := { blocks := [(({} : Log).physOf 0, { ecnt := c })] } } fun d =>
        d.log.clearErase = n ∧ d.log.erasing = e ∧ d.log.buffer = [] ∧ d.log.frozen = false ∧ d.eraseSuspended = false ∧ (d.blk (d.log.physOf (d.log.blocks.length - 1))).readPins = 0 ∧ ((d.blk (d.log.physOf (d.log.blocks.length - 1))).ecnt + 1 ≤ 30000 ↔ c = 29999))
    ∧ (∀ typ ∈ swTypes, typ < 1024) ∧ 0x019 ∉ swTypes
    ∧ On busy (fun d => d.supply.clocks = true ∧ d.power.mode ≠ .close ∧ d.log.held = false ∧ d.log.buffer.length + 1 < 512 ∧ ∀ r ∈ d.log.buffer, r.sev ≠ 3)
    ∧ (∀ p, (busy.port p).mbx.notices.classes = 0) ∧ (∀ p i, (busy.sess p i).classes = 0) := by
  refine ⟨by decide +kernel, by decide +kernel, by decide +kernel, by decide +kernel, by decide +kernel, by decide +kernel, by decide +kernel,
    by decide +kernel, vget_all (P := fun x : Port => x.mbx.notices.classes = 0) (by decide +kernel) (by decide), fun p i => ?_⟩
  refine vget_all (P := fun x : Port => ∀ i, (vget x.sess i {}).classes = 0) (fun p hp i => ?_) (fun i => ?_) p i
  · exact vget_all (P := fun x : Session => x.classes = 0) (by revert p; decide +kernel) (by decide) i
  · exact vget_all (P := fun x : Session => x.classes = 0) (by decide +kernel) (by decide) i

/-- The life cycle, and the debug port, of the working device at rest in IDLE. -/
abbrev living (l : Life) : Dev := { inMode .idle with life := l, rng := drawable }
abbrev debugging (g : Debug) : Dev := { inMode .idle with dbg := g }

theorem witness_lifeCycleEntries :
    (∀ l ∈ [LcSt.blank, .provision, .fleet, .service, .tampered], ∀ t ∈ [LcSt.provision, .fleet, .service, .tampered, .retired],
      On (living { st := l, going := some { target := t, source := 5, marked := true } }) fun d => d.supply.clocks = true
        ∧ d.life.going = some { target := t, source := 5, marked := true } ∧ spWf (fun _ => {}) d.keys.slots = true)
    ∧ On busy (fun d => d.life.going = none)
    ∧ (∀ n ∈ [0, 1, busy.variant.blocks], ∀ m ∈ [Mode.idle, .standby], ∀ l ∈ [LcSt.retired, .fleet], On { inMode m with life := { st := l, eraseLeft := n } } fun d =>
        d.life.st = l ∧ d.power.mode = m ∧ d.life.eraseLeft = n)
    ∧ (∀ g ∈ [DbgLevel.full, .closed], ∀ l ∈ [LcSt.blank, .fleet], ∀ r ∈ [LcSt.provision, .retired], On { living { st := l } with dbg := { level := g } } fun d =>
        d.power.mode ≠ .standby ∧ d.dbg.level = g ∧ d.life.st = l ∧ d.lcCommon r = true) := by
  refine ⟨?_, ?_, ?_, ?_⟩ <;> decide +kernel

theorem witness_debugPort :
    On busy (fun d => d.debugOn = true ∧ d.power.mode ≠ .standby) ∧ (({} : Dev).debugOn = false)
    ∧ (∀ c ∈ [0, 1, 8], ∀ l ∈ [DbgLevel.full, .closed], On (debugging { level := l, halted := 2 ^ c }) fun d => c < 9 ∧ d.debugOn = true ∧ d.power.mode ≠ .standby
        ∧ (d.coreInReach c = true ↔ l = .full) ∧ d.dbg.halted = 2 ^ c ∧ d.levelNow = l ∧ c ≤ d.nCombs)
    ∧ (∀ b : Bool, On (debugging { until_ := some (10 * 2 ^ 32 + b.toNat), chal := some (2, [], 10 * 2 ^ 32 + b.toNat) }) fun d =>
        d.dbg.until_ = some (10 * 2 ^ 32 + b.toNat) ∧ d.dbg.chal = some (2, [], 10 * 2 ^ 32 + b.toNat) ∧ (d.now < 10 * 2 ^ 32 + b.toNat ↔ b = true))
    ∧ 2 < 3 ∧ 0 < spaceWords 0 ∧ 2 ^ 24 - 1 < spaceWords 0 ∧ (∀ c ∈ [0, 1, 8], ∀ a ∈ [0, sramWords c - 1], inDspace c a = true ∧ a < spaceWords 1)
    ∧ On ((debugging { level := .limited }).onCore 1 fun c => { c with mpu := { inForce := true, sdef := false } }) (fun d =>
        d.levelNow = .limited ∧ 1 ≤ d.nCombs ∧ (d.core 1).mpu.inForce = true ∧ (d.core 1).mpu.allows .user 1 0 16 = false ∧ 16 < spaceWords 1) := by
  refine ⟨?_, ?_, ?_, ?_, ?_, ?_, ?_, ?_, ?_⟩ <;> decide +kernel

/-! Code flash -/

/-- A device with a descriptor in its code flash queue, and with its code flash changed. -/
def flashing (ws : List Nat) (f : CodeFlash → CodeFlash) : Dev :=
  (busy.onCore 0 fun c => { c with dmem := spSetAll zeroWord [] 0 (ws.map fun w => BitVec.ofNat 48 w) }).onFlash fun c =>
    f { c with en := true, sqTail := 1, cqBase := 4096 }

/-- A descriptor with tag 9 for bank 1, one row. -/
def flashDesc (op off n : Nat) : List Nat :=
  [op + 9 * 65536, if op = 5 then 0 else off + 2 ^ 21 + n * 2 ^ 24, if op = 3 ∨ op = 5 then 0 else 64, 0]

theorem witness_codeFlashDescriptors :
    (∀ t ∈ [0, 1, 16, 17], t < 2 ^ 32 ∧ On (flashing [] id) fun d => let c := d.flash
      d.supply.clocks = true ∧ d.power.mode ≠ .close ∧ (2 ^ c.sizeLog2 < idxDiff t c.sqHead ↔ t = 17) ∧ (idxDiff t c.sqHead < idxDiff c.sqTail c.sqHead ↔ t = 0))
    ∧ busy.cflReady = false
    ∧ (∀ op ∈ [0, 1, 2, 3, 4, 5, 6], On (flashing [op, 0, 0, 4] id) fun d => d.cflReady = true ∧ d.power.mode ≠ .close ∧ wordOf d.cflWords 0 % 256 = op
        ∧ d.cflCheck d.cflWords ≠ none)
    ∧ (∀ n ∈ [1, 128], On (flashing (flashDesc 1 0 n) id) fun d => let c := d.flash
        d.cflReady = true ∧ d.cflCheck d.cflWords = none ∧ (c.bank 1).st = .idle ∧ (c.bank 1).job = none ∧ 64 + 8 * n ≤ c.cqBase + c.cqTail % 2 ^ c.sizeLog2 * 2
          ∧ ∀ i, i < n → (c.bank 1).spoilt (0 + 8 * i) = false ∧ (c.bank 1).made (0 + 8 * i) = false)
    ∧ On (flashing (flashDesc 1 0 1) fun c => { c with bank1 := { st := .program, job := some { op := 2, bank := 1 } } }) (fun d =>
        d.cflCheck d.cflWords = none ∧ (d.flash.bank 1).st = .program ∧ (d.flash.bank 1).erasing = none)
    ∧ (∀ r ∈ [(2, 0), (3, 0), (4, actRow), (5, 0)], On (flashing (flashDesc r.1 r.2 1) id) fun d => d.cflReady = true ∧ wordOf d.cflWords 0 % 256 = r.1
        ∧ d.cflCheck d.cflWords = none ∧ (d.flash.bank 1).job = none ∧ (d.flash.bank 1).queue = [])
    ∧ (∀ l ∈ [0, 1, 2, 3], ∀ s ∈ [0, 1], On { flashing [5, 0, 0, l] (fun c => { c with seals := s }) with dbg := { level := .full } } fun d =>
        d.cflReady = true ∧ d.cflCheck d.cflWords = none ∧ wordOf d.cflWords 3 % 4 = l ∧ d.flash.level = s
          ∧ (d.rdpCheck l = none ↔ l < 3 ∧ l ≠ s))
    ∧ (∀ b ∈ [0, 1], ∀ st ∈ [BankSt.program, .erase], ∀ n ∈ [1, 2],
        let j : CflJob := { op := if st = .program then 2 else 3, tag := 65535, bank := b, offset := 0x8000, count := n }
        On (flashing [] fun c => { c with bank0 := { st := st, job := some j }, bank1 := { st := st, job := some j } }) fun d =>
          (d.flash.bank b).job = some j ∧ j.bank = b ∧ (d.flash.bank b).st = st ∧ j.tag < 65536 ∧ (j.done + 1 < j.count ↔ n = 2) ∧ j.offset + 8 * j.done ≠ actRow
            ∧ (d.flash.bank b).queue = [])
    ∧ (∀ b ∈ [0, 1], ∀ x : Bool, On (flashing [] fun c => { c with bank0 := { st := .suspended, quietAt := some (busy.clk - x.toNat) }, bank1 := { st := .suspended, quietAt := some (busy.clk - x.toNat) } }) fun d =>
        (d.flash.bank b).st = .suspended ∧ (d.flash.bank b).quietAt = some (busy.clk - x.toNat) ∧ (busy.clk - x.toNat < d.clk ↔ x = true)) := by
  refine ⟨?_, ?_, ?_, ?_, ?_, ?_, ?_, ?_, ?_⟩ <;> decide +kernel

/-- The hypotheses of the completion statement that no witness above has. -/
theorem witness_queueAndFlashCommandsComplete :
    (∀ sub ∈ [0, 8], ∀ tail ∈ [1, 16], On (busy.onPkq sub fun _ => { en := true, sqTail := 1 }) fun d => let q := d.pkq sub
      sub ≤ d.nCombs ∧ idxDiff tail q.sqHead ≤ 2 ^ q.size)
    ∧ (∀ tail ∈ [1, 16], On (flashing [] id) fun d => let c := d.flash
      d.supply.clocks = true ∧ d.power.mode ≠ .close ∧ idxDiff tail c.sqHead ≤ 2 ^ c.sizeLog2 ∧ idxDiff c.sqTail c.sqHead ≤ idxDiff tail c.sqHead)
    ∧ (∀ r ∈ [(1, 0), (2, 0), (3, 0), (4, actRow)], On (flashing (flashDesc r.1 r.2 1) id) fun d => d.cflReady = true ∧ d.cflCheck d.cflWords = none
        ∧ wordOf d.cflWords 0 % 256 = r.1 ∧ (d.flash.bank 1).st = .idle ∧ (d.flash.bank 1).job = none ∧ (d.flash.bank 1).queue = [])
    ∧ On (flashing [] fun c => { c with bank0 := { st := .eraseFinal, job := some { op := 3, tag := 65535, bank := 0 } } }) (fun d =>
        (d.flash.bank 0).st = .eraseFinal ∧ (d.flash.bank 0).job = some { op := 3, tag := 65535, bank := 0 })
    ∧ On (flashing [] fun c => { c with bank1 := { st := .suspended, susp := 8, quietAt := some (busy.clk - 1) } }) (fun d =>
        (d.flash.bank 1).st = .suspended ∧ (d.flash.bank 1).susp = 8 ∧ (d.flash.bank 1).quietAt = some (busy.clk - 1) ∧ busy.clk - 1 < d.clk) := by
  refine ⟨?_, ?_, ?_, ?_, ?_⟩ <;> decide +kernel

/-! The field link, registers and windows -/

/-- The working device in a reader's field. -/
abbrev tagged (l : FieldLink) : Dev := { busy with supply := { busy.supply with field := true }, field := l }

theorem witness_tagCommands :
    (∀ st ∈ [TagSt.off, .ready, .quiet, .selected, .auth], On (tagged { tag := st }) fun d => d.tagRuns = true ∧ d.supply.field = true ∧ d.field.tag = st)
    ∧ busy.supply.field = false ∧ On { tagged {} with life := { st := .retired } } (fun d => d.tagRuns = false)
    ∧ On (tagged { tag := .arbitrate }) (fun d => d.tagRuns = true ∧ d.supply.field = true ∧ d.field.tag = .arbitrate ∧ d.field.sess = none ∧ 1 ≠ d.field.id
        ∧ d.field.startsWith 64 0 = true ∧ d.field.startsWith 1 1 = false ∧ 64 < 65)
    ∧ (∀ n ∈ [3, 4], ∀ v : Bool, On (tagged { tag := .selected, sess := some {}, fails := n, mem := { key0 := { keyId := 254, valid := v } } }) fun d =>
        d.tagRuns = true ∧ d.supply.field = true ∧ d.field.tag = .selected ∧ d.field.sess = some {} ∧ (d.fieldLocked = true ↔ n = 4)
          ∧ d.field.mem.keyFor 254 = if v then some { keyId := 254, valid := true } else none)
    ∧ (∀ b : Bool, On (tagged { tag := .auth, sess := some { authAt := some (busy.clk + b.toNat) } }) fun d =>
        d.tagRuns = true ∧ d.supply.field = true ∧ d.field.tag = .auth ∧ d.field.sess = some { authAt := some (busy.clk + b.toNat) } ∧ d.power.mode ≠ .close
          ∧ (d.clk < busy.clk + b.toNat ↔ b = true) ∧ [1#8] ≠ ({} : FieldSession).mr)
    ∧ On (tagged { tag := .open_, sess := some {} }) (fun d => d.tagRuns = true ∧ d.supply.field = true ∧ d.field.tag = .open_ ∧ d.field.sess = some {}) := by
  refine ⟨?_, ?_, ?_, ?_, ?_, ?_, ?_⟩ <;> decide +kernel

/-- A page write that waits, and a walk of two prefixes or of the last. -/
def pageWait : FieldWait := { work := .regPage, page := [0#8] }
def walking (t u : Nat) (last : Bool) : ReaderOp := { maxTags := 1, stack := if last then [[]] else [[], [true]], replyAt := some t, until_ := u }

theorem witness_fieldLinkUpkeep :
    On (tagged {}) (fun d => d.supply.field = true)
    ∧ (∀ f : Bool, ∀ n ∈ [0, 63, 64], On { busy with rng := if f then drawable else {}, field := { mem := { used := n } } } fun d =>
        d.supply.field = false ∧ d.mainPower = true ∧ d.tagRuns = true ∧ d.freshIdent = f ∧ d.field.mem.used = n)
    ∧ On { supply := { vbat := false } } (fun d => d.supply.field = false ∧ d.mainPower = false ∧ d.supply.vbat = false)
    ∧ (∀ b : Bool, On (tagged { tag := .auth, sess := some { idleAt := busy.clk - b.toNat, authAt := some (busy.clk + b.toNat) }, lockAt := some (busy.clk + b.toNat) }) fun d =>
        d.field.sess = some { idleAt := busy.clk - b.toNat, authAt := some (busy.clk + b.toNat) } ∧ (busy.clk - b.toNat < d.clk ↔ b = true) ∧ d.field.tag = .auth
          ∧ (d.clk < busy.clk + b.toNat ↔ b = true) ∧ d.field.lockAt = some (busy.clk + b.toNat))
    ∧ On (tagged { waits := [pageWait] }) (fun d => d.supply.clocks = true ∧ d.field.wrBusy = true)
    ∧ (∀ a ∈ [0, 261461, 261462], ∀ l ∈ [LcSt.provision, .fleet], ∀ s ∈ [none, some ({} : FieldSession)],
      On { tagged { wrAddr := a, sess := s } with life := { st := l } } fun d => d.supply.clocks = true ∧ d.power.mode ≠ .close ∧ d.field.wrBusy = false ∧ d.field.waits = []
        ∧ (inSram 0 d.field.wrAddr 4096 = true ↔ a ≠ 261462) ∧ (inSram 0 d.field.wrAddr 512 = true) ∧ (d.pageAllowed = true ↔ l = .fleet) ∧ d.field.sess = s
        ∧ d.field.mem.commitSeq + 1 < 2 ^ 32)
    ∧ (∀ s ∈ [none, some ({} : FieldSession)], On (tagged { waits := [pageWait], sess := s }) fun d => d.field.waits = [pageWait] ∧ pageWait.work = .regPage
        ∧ pageWait.pool = [] ∧ pageWait.page ≠ [] ∧ pageWait.until_ = none ∧ d.field.sess = s)
    ∧ (∀ use ∈ [1, 4], On { busy with keys := { slots := [(1023, keyOf (general 1 use false 0))] } } fun d => let k := d.keySlot (1023 % 2048)
        d.power.mode ≠ .close ∧ 1023 % 2048 < 1024 ∧ attrAlg k.attr = 1 ∧ (attrUse k.attr = 4 ↔ use = 4) ∧ attrClass k.attr = 7 ∧ owns 0 (attrOwner k.attr) = true
          ∧ lcAdmits (attrLc k.attr) d.life.st = true)
    ∧ (∀ v ∈ [0, 1], On { busy with settings := { vals := [(0x70, le 4 v)] } } fun d => d.supply.clocks = true ∧ d.power.mode ≠ .close
        ∧ (d.readerMay = true ↔ v = 1))
    ∧ On (inMode .close) (fun d => d.supply.clocks = true ∧ d.power.mode = .close)
    ∧ (∀ b w last : Bool, let r := walking (busy.clk - b.toNat) (busy.clk - w.toNat) last
        On { busy with field := { reader := some r } } fun d => d.field.reader = some r ∧ r.replyAt = some (busy.clk - b.toNat)
        ∧ r.stack = [] :: (if last then [] else [[true]]) ∧ r.found.length < r.maxTags ∧ (busy.clk - b.toNat < d.clk ↔ b = true)
        ∧ (d.clk ≤ r.until_ ↔ w = false))
    ∧ (∀ f ∈ [[], [5]], On (slotIs 1 3 { st := .busy }) fun d => d.waitsAt 1 3 ∧ ({ d with field := { reader := some { port := 1, slot := 3, found := f } } } : Dev).field.reader
        = some { port := 1, slot := 3, found := f }) := by
  refine ⟨?_, ?_, ?_, ?_, ?_, ?_, ?_, ?_, ?_, ?_, ?_, ?_⟩ <;> decide +kernel

theorem witness_registerAccess :
    ({} : Dev).supply.clocks = false ∧ busy.supply.clocks = true
    ∧ On { busy with variant := .vtz8032 } (fun d => 8 < 9 ∧ d.nCombs < 8) ∧ (inMode .close).power.mode = .close
    ∧ (∀ m : Bool, busy.ioPlace 0 (if m then .machine else .supervisor) 0xFFFFF = none ∧ busy.ioPlace 1 (if m then .machine else .supervisor) 0x4C000 = none)
    ∧ (∀ w ∈ [1, 8], ∀ a ∈ [0x45400, 0x4543F, 0x4C000], 1 ≤ w ∧ w < 9 ∧ 0x45400 ≤ a ∧ (a < 0x45440 ∨ 0x4C000 ≤ a))
    ∧ (∀ p ∈ [0, 1], ∀ st ∈ [SlotSt.idle, .busy], ∀ i ∈ [0, 3], On (slotIs p i { st := st }) fun d => p < 2 ∧ i < 4 ∧ 0x3FFF < 0x4000 ∧ (d.slot p i).st = st)
    ∧ (0x440000 ≤ 0x440000 ∧ 0xFFFFF < 0x100000 ∧ 0xFFFFF % 4 ≠ 0 ∧ 16383 < 16384 ∧ 6 ≤ 7 ∧ 7 < 8 ∧ 5 < 6 ∧ 32764 < 32768 ∧ 32764 % 4 = 0)
    ∧ (∀ st ∈ [SlotSt.idle, .busy], On (slotIs 4 0 { st := st }) fun d => d.power.mode ≠ .standby ∧ d.power.mode ≠ .close ∧ d.portsCfg.sclAt = none
        ∧ d.power.target ≠ some .standby ∧ d.supply.i2c = false ∧ (d.slot 4 0).st = st ∧ (∀ a ∈ [0x1000, 0x1FFF], 0x1000 ≤ a ∧ a < 0x2000) ∧ 0x1000 + 0x3000 ≤ 0x4000)
    ∧ On { busy with supply := { busy.supply with i2c := true } } (fun d => d.power.mode ≠ .standby ∧ d.power.target ≠ some .standby ∧ d.supply.i2c = true
        ∧ d.portsCfg.sclAt = none)
    ∧ On (pwr fun x => { x with mode := .idle, target := some .standby, wakeEn := 1#32 }) (fun d => d.power.mode = .idle ∧ d.power.target = some .standby
        ∧ flag d.power.wakeEn 0 = true) := by
  refine ⟨?_, ?_, ?_, ?_, ?_, ?_, ?_, ?_, ?_, ?_, ?_⟩ <;> decide +kernel

/-! Host commands: each is taken, no check of it fails, and the cases of its effect. No verdict of a primitive that accepts is among
them, since the primitives have no body. -/

/-- `d` with the request of a role waiting in a slot or session, which keeps what else it holds. -/
def asked (d : Dev) (p i op : Nat) (role : Role) (b : List Byte) : Dev :=
  let s := { d.sess p (sessOf p i) with st := if role = .none then .none else .active, role := role }
  let d := { d with portsCfg := { d.portsCfg with arrivals := [(p, i)] } }
  if isUdp p then d.onSess p i fun _ => { s with req := qcmd op b, running := true }
  else (d.onSess p 0 fun _ => s).onSlot p i fun _ => { st := .busy, req := qcmd op b }

/-- Slots and sessions of all ports, and slots of the PCIe ports. -/
def hostRefs : List (Nat × Nat) := [(1, 3), (2, 7), (4, 0)]
def pcieRefs : List (Nat × Nat) := [(0, 3), (1, 0)]

/-- What waits when a command of least length is asked by the last role that may. -/
def askedLeast (l : LcSt) (op p i : Nat) : Dev :=
  match cmdInfo op with
  | some c => asked { busy with life := { st := l } } p i op (c.roles.getLastD .none) (zeros c.min)
  | none => busy

theorem witness_commandFrames :
    (∀ r ∈ commandRows 0 [] none [] 0 0 0, ∀ q ∈ hostRefs, ∀ c, cmdInfo r.2 = some c → q.1 ∈ c.ports →
      (askedLeast .fleet r.2 q.1 q.2).takes r.2 q.1 q.2 (zeros c.min))
    ∧ (pwr fun p => { p with bootDone := false }).serves = false ∧ busy.nextRequest ≠ some (0, 0)
    ∧ On (asked busy 2 7 0x0101 .operator (zeros 64)) (fun d => d.serves = true ∧ d.nextRequest = some (2, 7) ∧ d.waitsAt 2 7
        ∧ d.frameRights 2 7 = some .portDenied)
    ∧ On (asked busy 0 3 0x0101 .fleet (zeros 64)) (fun d => d.nextRequest = some (0, 3) ∧ d.waitsAt 0 3 ∧ d.frameRights 0 3 = some .roleInsufficient)
    ∧ On (asked { busy with life := { st := .service } } 0 3 0x0702 .service (zeros 72)) (fun d => d.frameRights 0 3 = none)
    ∧ On (asked busy 0 3 0x0502 .none (zeros 12)) (fun d => d.nextRequest = some (0, 3) ∧ d.waitsAt 0 3 ∧ d.roleOf 0 3 = .none ∧ d.life.st ≠ .provision)
    ∧ On (asked { busy with life := { st := .provision } } 0 3 0x0502 .none (zeros 12)) (fun d => d.roleOf 0 3 = .none ∧ d.frameRights 0 3 = none)
    ∧ On (asked { busy with life := { st := .tampered } } 0 3 0x0101 .operator (zeros 64)) (fun d => d.waitsAt 0 3 ∧ d.frameRights 0 3 = some .lcDenied)
    ∧ (∀ n ∈ [63, 65], On (asked busy 0 3 0x0101 .operator (zeros n)) fun d => d.waitsAt 0 3 ∧ 16 ≤ (d.request 0 3).length
        ∧ d.frameRights 0 3 = some (if n = 63 then .badLength else .lenTooLarge)) := by
  refine ⟨fun r hr q hq c hc hp => ?_, ?_, ?_, ?_, ?_, ?_, ?_, ?_, ?_, ?_⟩
  · have h : ∀ r ∈ commandRows 0 [] none [] 0 0 0, ∀ q ∈ hostRefs, ∀ c ∈ (cmdInfo r.2).toList, q.1 ∈ c.ports →
        (askedLeast .fleet r.2 q.1 q.2).takes r.2 q.1 q.2 (zeros c.min) := by decide +kernel
    exact h r hr q hq c (by simp [hc]) hp
  all_goals decide +kernel

/-- The working device can draw, and a part of it is changed. -/
abbrev able : Dev := { busy with rng := drawable }

theorem witness_sessionCommands :
    (∀ op ∈ [0x0001, 0x0009], ∀ q ∈ hostRefs, (askedLeast .fleet op q.1 q.2).takes op q.1 q.2 []) ∧ (∀ q ∈ slotRefs, (askedLeast .fleet 0x0004 q.1 q.2).takes 0x0004 q.1 q.2 [])
    ∧ (∀ q ∈ slotRefs, On (asked able q.1 q.2 0x0002 .none (le 1 1 ++ [1#8] ++ zeros 98)) fun d => let b := le 1 1 ++ [1#8] ++ zeros 98
        d.takes 0x0002 q.1 q.2 b ∧ helloOk q.1 b = true ∧ (∀ j, j < 4 → j ≠ q.2 → (d.slot q.1 j).st ≠ .busy) ∧ d.portLocked q.1 = false
          ∧ d.roleOk q.1 (numAt b 0 1) = true ∧ d.canDraw 0 = true)
    ∧ (∀ q ∈ slotRefs, ∀ n ∈ [0, 4, 5], On ((asked busy q.1 q.2 0x0003 .none (zeros 104)).onPort q.1 fun x => { x with fails := n }) fun d => let b := zeros 104
        d.takes 0x0003 q.1 q.2 b ∧ numAt b 2 6 = 0 ∧ (∀ j, j < 4 → j ≠ q.2 → (d.slot q.1 j).st ≠ .busy) ∧ d.portLocked q.1 = false
          ∧ d.proves q.1 0 b = false ∧ (d.port q.1).fails = n)
    ∧ (∀ q ∈ [(2, 7), (4, 0)], ∀ off ∈ [0, bufWords q.1 - 1], On (asked busy q.1 q.2 0x0005 .operator (le 4 off ++ zeros 5)) fun d => let b := le 4 off ++ zeros 5
        d.takes 0x0005 q.1 q.2 b ∧ numAt b 4 4 = 0 ∧ numAt b 0 4 + ceilDiv (b.drop 8).length 6 ≤ bufWords q.1)
    ∧ (∀ q ∈ [(2, 7), (4, 0)], On (asked busy q.1 q.2 0x0006 .operator (le 4 (bufWords q.1 - 1) ++ le 4 6)) fun d => let b := le 4 (bufWords q.1 - 1) ++ le 4 6
        d.takes 0x0006 q.1 q.2 b ∧ numAt b 4 4 ≠ 0 ∧ numAt b 0 4 + ceilDiv (numAt b 4 4) 6 ≤ bufWords q.1 ∧ numAt b 4 4 ≤ 4072)
    ∧ (∀ q ∈ hostRefs, On (asked busy q.1 q.2 0x0007 .operator [31#8, 3#8, 0#8, 0#8]) fun d => let b := [31#8, 3#8, 0#8, 0#8]
        d.takes 0x0007 q.1 q.2 b ∧ numAt b 0 1 < 32 ∧ numAt b 1 1 < 4 ∧ numAt b 2 2 = 0)
    ∧ (∀ c ∈ [(Mode.record, 0, none, false), (.record, 3, some Mode.idle, true), (.test, 3, none, false), (.idle, 3, none, false), (.ingest, 2, none, false),
              (.record, 5, none, true), (.idle, 4, none, true)],
      On (asked (pwr fun x => { x with mode := c.1, target := c.2.2.1 }) 2 7 0x0008 .operator (le 4 c.2.1)) fun d =>
        d.takes 0x0008 2 7 (le 4 c.2.1) ∧ numAt (le 4 c.2.1) 1 3 = 0 ∧ numAt (le 4 c.2.1) 0 1 = c.2.1 ∧ c.2.1 < 8 ∧ (Mode.ofReq c.2.1 = none ↔ c.2.1 = 0)
          ∧ d.power.target = c.2.2.1 ∧ d.power.mode = c.1 ∧ d.power.startStep ≠ .recovery ∧ (Mode.ofReq c.2.1).elim false d.mayGo = c.2.2.2)
    ∧ (∀ m ∈ [Mode.record, .ingest, .idle, .test], On (asked (inMode m) 2 7 0x0009 .operator []) fun d => d.takes 0x0009 2 7 [] ∧ d.power.mode = m
        ∧ d.power.target = none)
    ∧ (∀ st ∈ [StgSt.off, .ready, .fault], On (asked { inMode .ingest with staging := { st := st } } 0 3 0x000A .fleet []) fun d =>
        d.takes 0x000A 0 3 [] ∧ d.power.mode = .ingest ∧ d.anyOpen = false ∧ d.power.target = none ∧ d.staging.st = st)
    ∧ On (asked (inMode .test) 0 3 0x000A .fleet []) (fun d => d.takes 0x000A 0 3 [] ∧ d.power.mode = .test)
    ∧ On (asked (inMode .idle) 0 3 0x000A .fleet []) (fun d => d.takes 0x000A 0 3 [] ∧ d.power.mode = .idle ∧ d.anyOpen = false ∧ d.staging.st = .off
        ∧ d.power.target = none)
    ∧ On (asked able 4 0 0x000B .operator (le 4 4064)) (fun d => d.takes 0x000B 4 0 (le 4 4064) ∧ numAt (le 4 4064) 0 4 = 4064 ∧ d.rng.ready = true
        ∧ d.rng.fills = []) := by
  refine ⟨?_, ?_, ?_, ?_, ?_, ?_, ?_, ?_, ?_, ?_, ?_, ?_, ?_⟩ <;> decide +kernel

/-- The body of a ring pair: lane and context, and bytes from 2 to 8; its sizes stand at 4 and 5. -/
def ringBytes (n x opt : Nat) : List Byte := le 1 n ++ le 1 x ++ le 1 opt ++ [0#8, 4#8, 7#8, 0#8, 0#8]

/-- A KEK of the present epoch, of a device whose authority is installed. -/
def kekKeys : Keys :=
  { epochS := 5, kekEpoch := 10 * 2 ^ 32, trust := Vector.replicate 16 { purpose := 3 }, slots := [(65, keyOf kekAttr), (512, keyOf (mkAttr 1 2 0 false 4 false 15 7))] }

/-- Bodies of VERIFY_OPEN and RING_RETARGET. -/
def verifyBytes (x dir slot : Nat) : List Byte := ringBytes 0 x dir ++ zeros 26 ++ [1#8, 0#8] ++ le 2 slot ++ zeros 146
def retargetBytes (x len : Nat) : List Byte := [0#8] ++ le 1 x ++ zeros 6 ++ [4#8, 7#8] ++ zeros 6 ++ zeros 24 ++ le 8 len

theorem witness_streamCommands :
    (∀ q ∈ pcieRefs, ∀ n ∈ [0, 63], On (asked { able with keys := kekKeys } q.1 q.2 0x0101 .operator (ringBytes n 2 0 ++ zeros 56)) fun d => let b := ringBytes n 2 0 ++ zeros 56
        d.takes 0x0101 q.1 q.2 b ∧ numAt b 0 1 = n ∧ n < d.nLanes ∧ numAt b 1 1 ≤ 2 ∧ numAt b 2 1 ≤ 1 ∧ numAt b 3 1 ≤ 3 ∧ numAt b 4 1 = 4 ∧ numAt b 5 1 = 7
          ∧ numAt b 6 2 ≤ 2047 ∧ numAt b 0x18 2 ≤ 1023 ∧ numAt b 0x1A 6 = 0 ∧ numAt b 8 8 = 0 ∧ numAt b 0x10 8 = 0)
    ∧ (∀ n ∈ [0, 63], On { able with keys := kekKeys } fun d => d.power.mode = .record ∧ d.power.startStep = .done ∧ d.time.aon.pcyc < 0xFFFFFFFF ∧ d.power.opens < 0xFFFFFFFF
        ∧ (d.lane n).ctx0.dir = .closed ∧ (d.lane n).st = .off ∧ d.combsOn < d.combsMax ∧ d.keys.trustOf 3 ≠ none ∧ d.kekCurrent = true ∧ d.canDraw (1 + n / 8) = true)
    ∧ (∀ e : Bool, ∀ o ∈ [0, 1], On (asked (laned 0 { sealing with ctx0 := { sealing.ctx0 with stream := 5 }, stream := { ended := e } }) o 0 0x0102 .operator (le 8 5)) fun d =>
        d.takes 0x0102 o 0 (le 8 5) ∧ d.laneOf (numAt (le 8 5) 0 8) = some 0 ∧ ((d.lane 0).ring0.port = o ↔ o = 0) ∧ (d.lane 0).stream.ended = e ∧ (d.lane 0).st = .active)
    ∧ (∀ x ∈ [0, 1], ∀ c ∈ [(2, Role.operator, 0), (3, .evidence, 512)], On (asked { able with keys := kekKeys } 0 3 0x0103 c.2.1 (verifyBytes x c.1 c.2.2)) fun d =>
        let b := verifyBytes x c.1 c.2.2
        d.takes 0x0103 0 3 b ∧ numAt b 0 1 < d.nLanes ∧ numAt b 1 1 = x ∧ numAt b 2 1 = c.1 ∧ numAt b 8 8 = 0 ∧ numAt b 0x22 1 = 1 ∧ numAt b 0x23 1 = 0
          ∧ numAt b 0x26 2 = 0 ∧ numAt b 0x24 2 = c.2.2 ∧ numAt b 4 1 = 4 ∧ numAt b 5 1 = 7 ∧ numAt b 0x10 8 % 4096 = 0 ∧ numAt b 0x18 8 % 4096 = 0
          ∧ d.power.mode = .record ∧ ((d.lane 0).ctx x).dir = .closed ∧ d.combsOn < d.combsMax ∧ (d.roleOf 0 3 = .evidence ↔ c.1 = 3)
          ∧ (d.keySlot 512).full = true ∧ d.mayUse (1 + 0 / 8) 512 2 = true)
    ∧ (∀ j ∈ [none, some ({} : Desc)], On (asked (laned 0 { st := .active, ctx1 := { dir := .verifyOpen, job := j }, ring1 := ringUp }) 0 3 0x0104 .operator [0#8, 1#8]) fun d =>
        d.takes 0x0104 0 3 [0#8, 1#8] ∧ numAt [0#8, 1#8] 1 1 = 1 ∧ ((d.lane 0).ctx 1).dir = .verifyOpen ∧ d.waits = [] ∧ ((d.lane 0).ctx 1).job = j
          ∧ ((d.lane 0).ring 1).posts = [] ∧ ((d.lane 0).ring 1).faulted = false ∧ ((d.lane 0).ring 1).severed = false)
    ∧ (∀ j ∈ [none, some ({} : Desc)], On (asked (laned 0 { st := .active, ctx1 := { dir := .verifyOpen, broken := true, job := j }, ring1 := ringUp }) 0 3 0x0105 .operator ([0#8, 1#8] ++ zeros 86)) fun d =>
        let b := [0#8, 1#8] ++ zeros 86
        d.takes 0x0105 0 3 b ∧ ((d.lane 0).ctx 1).job = j ∧ numAt b 1 1 = 1 ∧ numAt b 2 6 = 0 ∧ ((d.lane 0).ctx 1).dir = .verifyOpen ∧ ((d.lane 0).ctx 1).broken = true)
    ∧ (∀ us ∈ [[], [unitIn .accepted], [{ unitIn .accepted with staged := true }]], ∀ x ∈ [0, 1], ∀ len ∈ [0, 240],
      On (asked { laned 0 { sealing with ring0 := { ringUp with faulted := true }, ctx1 := { dir := .verifyOpen }, ring1 := { ringUp with dead := true }, units := us } with
            tamper := { cfg := calm } } 0 3 0x0106 .operator (retargetBytes x len)) fun d => let b := retargetBytes x len
        d.takes 0x0106 0 3 b ∧ numAt b 0 1 = 0 ∧ numAt b 1 1 = x ∧ numAt b 8 1 = 4 ∧ numAt b 9 1 = 7 ∧ numAt b 4 2 = 0 ∧ numAt b 6 2 = 0 ∧ numAt b 2 2 = 0
          ∧ numAt b 0x0A 6 = 0 ∧ numAt b 0x10 8 = 0 ∧ numAt b 0x18 8 = 0 ∧ numAt b 0x20 8 = 0 ∧ numAt b 0x28 8 = len ∧ ((d.lane 0).ctx x).dir ≠ .closed
          ∧ (((d.lane 0).ring x).faulted = true ∨ ((d.lane 0).ring x).dead = true) ∧ (d.lane 0).units = us
          ∧ (us.map fun u => ceilDiv (u.payload.length + 144) 16 * 16).sum = 240 * us.length)
    ∧ On (asked busy 2 7 0x0107 .operator [63#8]) (fun d => d.takes 0x0107 2 7 [63#8] ∧ numAt [63#8] 0 1 < d.nLanes) := by
  refine ⟨?_, ?_, ?_, ?_, ?_, ?_, ?_, ?_⟩ <;> decide +kernel

/-- A store with container 1 in a block of the ring, from second 1 to second 2, and a hold of it. -/
def heldStore (h : Nat) (hs : List Hold) : Store :=
  { blocks := [(1000, { seq := 1, readable := 1, first := 2 ^ 32, last := 2 ^ 33, pages := [[1#8]], holds := h })], holds := hs }

theorem witness_recordCommands :
    On (asked (hiving { en := true, st := .armed }) 2 7 0x0201 .operator []) (fun d => d.takes 0x0201 2 7 [] ∧ d.hive.st ≠ .idle ∧ d.hive.st ≠ .stopped)
    ∧ (∀ t ∈ [0, 10 * 2 ^ 32 + 4295], On (asked (hiving { en := true, st := .armed }) 2 7 0x0202 .operator (le 8 t)) fun d =>
        d.takes 0x0202 2 7 (le 8 t) ∧ numAt (le 8 t) 0 8 = t ∧ d.hive.st = .armed ∧ (t = 0 ∨ d.now + 4295 ≤ t ∧ t ≤ timeMax))
    ∧ (∀ due : Bool, ∀ h ∈ [0, 5, 10], On (asked (hiving { en := due, st := .armed }) 2 7 0x0203 .operator (le 4 h ++ le 4 0)) fun d => let b := le 4 h ++ le 4 0
        let at_ := ceilDiv ((d.now * 1000 / (Nat.lcm d.hive.period h * 2 ^ 32) + 1) * Nat.lcm d.hive.period h * 2 ^ 32) 1000
        d.takes 0x0203 2 7 b ∧ d.hiveDue = due ∧ numAt b 0 4 = h ∧ numAt b 4 4 = 0 ∧ (h = 10 → at_ ≤ d.now + 3600 * 2 ^ 32))
    ∧ (∀ kl ∈ [[0#8, 255#8], [1#8, 63#8]], On (asked { busy with receipts := { lastPeriodic := [1#8], lastAny := [1#8] } } 2 7 0x0204 .operator kl) fun d =>
        d.takes 0x0204 2 7 kl ∧ numAt kl 0 1 ≤ 1 ∧ (numAt kl 1 1 = 0xFF ∨ numAt kl 1 1 < d.nLanes) ∧ d.receipts.lastPeriodic ≠ [] ∧ d.receipts.lastAny ≠ [])
    ∧ On (asked { busy with store := heldStore 0 [] } 2 7 0x0301 .operator (le 8 (2 ^ 33) ++ le 8 (2 ^ 34))) (fun d => let b := le 8 (2 ^ 33) ++ le 8 (2 ^ 34)
        d.takes 0x0301 2 7 b ∧ numAt b 0 8 ≤ timeMax ∧ numAt b 8 8 ≤ timeMax ∧ numAt b 0 8 ≤ numAt b 8 8 ∧ d.power.mode = .record ∧ d.power.startStep = .done
          ∧ ((d.containers.filter fun c => decide (c.2.first ≤ numAt b 8 8) && decide (numAt b 0 8 ≤ c.2.last)).map fun c => c.1) = [1000]
          ∧ (d.blk 1000).holds < 255 ∧ d.heldBlocks + 1 ≤ d.holdLimit ∧ [1000].Nodup)
    ∧ On (asked { busy with store := heldStore 1 [{ id := 5, blocks := [1000] }] } 2 7 0x0302 .evidence (le 8 5)) (fun d =>
        d.takes 0x0302 2 7 (le 8 5) ∧ (d.store.holds.find? fun h => h.id == numAt (le 8 5) 0 8) = some { id := 5, blocks := [1000] } ∧ [1000].Nodup)
    ∧ On (asked busy 4 0 0x0303 .operator (le 4 0 ++ le 4 63)) (fun d => let b := le 4 0 ++ le 4 63
        d.takes 0x0303 4 0 b ∧ numAt b 6 2 = 0 ∧ numAt b 4 2 = 63)
    ∧ (∀ q ∈ [(0, 3), (2, 7)], ∀ len ∈ [0, 16], On (asked { busy with store := heldStore 0 [] } q.1 q.2 0x0304 .operator (zeros 16 ++ le 8 1 ++ zeros 8 ++ le 8 (if q.1 = 0 then len else 0))) fun d =>
        let b := zeros 16 ++ le 8 1 ++ zeros 8 ++ le 8 (if q.1 = 0 then len else 0)
        d.takes 0x0304 q.1 q.2 b ∧ numAt b 0 1 = 0 ∧ numAt b 1 7 = 0 ∧ numAt b 0x18 8 = 0 ∧ numAt b 8 8 ≤ numAt b 0x10 8 ∧ d.exports = []
          ∧ ((d.containers.filter fun c => decide (numAt b 8 8 ≤ c.2.seq) && decide (c.2.seq ≤ numAt b 0x10 8)).map fun c => (c.1, c.2.holds, c.2.exported)) = [(1000, 0, [1#8])]
          ∧ (q.1 = 0 → numAt b 0x20 8 = len))
    ∧ (∀ c ∈ [[], [1#8]], ∀ l ∈ [[], [1], [2]], ∀ p ∈ [0, 1],
      On { slotIs p 3 { st := .busy } with store := heldStore 0 [], hive := { st := .stopped },
                                           exports := [{ port := p, slot := 3, cur := c, left := l, block := if c = [] then none else some 1000, addr := some 16 }] } fun d =>
        d.supply.clocks = true ∧ (d.exports.map fun x => x.left) = [l] ∧ (d.port p).pcie.d3hot = false ∧ d.power.mode ≠ .close
          ∧ d.hive.st = .stopped ∧ d.wag.flights = [] ∧ d.wag.pending = [] ∧ d.receipts.lapsed = none ∧ d.receipts.lapsedSigs = []
          ∧ (∀ n, n < d.nLanes → (d.lane n).stream.sig = none) ∧ (d.sess p 3).chunks = 0 ∧ d.waitsAt p 3 ∧ (d.blockOf 1).isSome = true ∧ (d.blockOf 2).isNone = true)
    ∧ (∀ op ∈ [0x0305, 0x0401], On (asked busy 2 7 op .operator []) fun d => d.takes op 2 7 [])
    ∧ (∀ st ∈ [DState.stopped, .startWait, .locked], ∀ x ∈ [(true, true), (true, false), (false, false)], ∀ t ∈ [10 * 2 ^ 32, 11 * 2 ^ 32],
      On (asked { busy with time := { servo := { busy.time.servo with dstate := st, run := true }, cfg := { discEn := x.1, forceHold := x.2, stepEn := true } } } 2 7 0x0402 .operator (le 8 t)) fun d =>
        d.takes 0x0402 2 7 (le 8 t) ∧ numAt (le 8 t) 0 8 = t ∧ t ≤ timeMax ∧ d.time.servo.dstate = st ∧ d.time.cfg.discEn = x.1 ∧ d.time.cfg.forceHold = x.2
          ∧ ((d.time.cfg.stepThr : Int) * 4294967296 / 1000000 < (t : Int) - (d.now : Int) ↔ t = 11 * 2 ^ 32))
    ∧ On (asked (timeCfg fun c => { c with srcA := 1 }) 2 7 0x0403 .operator (le 4 0xFFFF0000)) (fun d =>
        d.takes 0x0403 2 7 (le 4 0xFFFF0000) ∧ numAt (le 4 0xFFFF0000) 0 4 ≤ 0xFFFF0000 ∧ d.time.cfg.srcA = 1)
    ∧ On (asked busy 2 7 0x0404 .operator ([3#8, 3#8] ++ zeros 14)) (fun d => let b := [3#8, 3#8] ++ zeros 14
        d.takes 0x0404 2 7 b ∧ numAt b 0 1 ≤ 3 ∧ numAt b 1 1 ≤ 3 ∧ numAt b 2 2 = 0 ∧ numAt b 8 8 ≤ timeMax) := by
  refine ⟨?_, ?_, ?_, ?_, ?_, ?_, ?_, ?_, ?_, ?_, ?_, ?_, ?_⟩ <;> decide +kernel

theorem witness_keyAndLogCommands :
    On (asked busy 4 0 0x0501 .operator (le 4 4095)) (fun d => d.takes 0x0501 4 0 (le 4 4095)
        ∧ numAt (le 4 4095) 0 4 + ceilDiv (d.keys.identityPub ++ d.keys.cert).length 6 ≤ bufWords 4)
    ∧ (∀ n ∈ [0, 112], On (asked busy 2 7 0x0502 .fleet (le 4 0 ++ le 4 n ++ zeros 4)) fun d => let b := le 4 0 ++ le 4 n ++ zeros 4
        d.takes 0x0502 2 7 b ∧ numAt b 4 4 = n ∧ d.roleOf 2 7 = .fleet ∧ (0 < n → numAt b 0 4 + ceilDiv n 6 ≤ bufWords 2))
    ∧ (∀ st ∈ [[], [1#8]], On (asked { able with keys := { slots := [(512, { keyOf (general 1 1 false 0) with statement := st })] } } 2 7 0x0503 .operator (le 2 512 ++ zeros 6)) fun d =>
        let b := le 2 512 ++ zeros 6
        d.takes 0x0503 2 7 b ∧ numAt b 0 2 = 512 ∧ numAt b 2 2 = 0 ∧ d.slotAbsent 512 = false ∧ (d.keySlot 512).full = true ∧ attrOrigin (d.keySlot 512).attr = 0
          ∧ d.dbg.level ≠ .full ∧ numAt b 4 4 + ceilDiv (statementLen (attrAlg (d.keySlot 512).attr)) 6 ≤ bufWords 2 ∧ (d.keySlot 512).statement = st ∧ d.canDraw 0 = true)
    ∧ On (asked { busy with keys := { slots := [(1087, keyOf (general 1 1 false 0))] } } 2 7 0x0504 .operator (le 2 1087)) (fun d =>
        d.takes 0x0504 2 7 (le 2 1087) ∧ numAt (le 2 1087) 0 2 = 1087 ∧ d.slotAbsent 1087 = false ∧ (d.keySlot 1087).full = true)
    ∧ On (asked busy 4 0 0x0601 .operator (le 8 0 ++ le 2 126 ++ zeros 6)) (fun d => let b := le 8 0 ++ le 2 126 ++ zeros 6
        d.takes 0x0601 4 0 b ∧ numAt b 10 6 = 0 ∧ numAt b 8 2 = 126)
    ∧ (∀ op ∈ [0x0602, 0x0603, 0x0604], ∀ f : Bool, On (asked { busy with log := { frozen := f, holder := some (2, 7), next := 1 } } 2 7 op .fleet (zeros (if op = 0x0604 then 8 else 0))) fun d =>
        d.takes op 2 7 (zeros (if op = 0x0604 then 8 else 0)) ∧ d.log.frozen = f ∧ d.log.holder = some (2, sessOf 2 7) ∧ numAt (zeros 8) 0 8 = d.log.next - 1) := by
  refine ⟨?_, ?_, ?_, ?_, ?_, ?_⟩ <;> decide +kernel

/-- The working device in IDLE, the other bank of its code flash empty. -/
abbrev resting : Dev := { inMode .idle with rng := drawable }

theorem witness_lifeAndCodeCommands :
    (∀ op ∈ [0x0701, 0x0705, 0x0904], On (asked busy 2 7 op .fleet []) fun d => d.takes op 2 7 [])
    ∧ (∀ c ∈ [(LcSt.fleet, 3, some LcSt.service), (.fleet, 5, some .retired), (.fleet, 9, none), (.service, 4, some .tampered)],
      On (asked { resting with life := { st := c.1 } } 0 3 0x0702 .fleet (le 1 c.2.1 ++ zeros 71)) fun d => let b := le 1 c.2.1 ++ zeros 71
        d.takes 0x0702 0 3 b ∧ numAt b 0 1 = c.2.1 ∧ numAt b 1 7 = 0 ∧ bytesAt b 8 64 = fitBytes 64 d.keys.idDigest ∧ LcSt.ofCode c.2.1 = c.2.2 ∧ d.roleOf 0 3 = .fleet
          ∧ d.power.mode = .idle ∧ d.power.target = none ∧ d.canDraw 0 = true ∧ d.life.going = none ∧ 3 ≤ d.life.free ∧ d.store.holds = [])
    ∧ On (asked resting 0 3 0x0703 .fleet [1#8]) (fun d => d.takes 0x0703 0 3 [1#8] ∧ numAt [1#8] 0 1 = 1 ∧ d.life.st = .fleet ∧ d.canDraw 0 = true)
    ∧ (∀ c ∈ [none, some ((1 : Nat), ([] : List Byte), 10 * 2 ^ 32), some (1, [], 10 * 2 ^ 32 + 1)], On (asked { busy with dbg := { chal := c } } 0 3 0x0704 .fleet (le 4 0 ++ le 4 1)) fun d =>
        let b := le 4 0 ++ le 4 1
        d.takes 0x0704 0 3 b ∧ numAt b 4 4 = 1 ∧ numAt b 0 4 + ceilDiv 1 6 ≤ bufWords 0 ∧ d.dbg.chal = c ∧ d.now = 10 * 2 ^ 32 ∧ numAt (d.bufGet 0 3 0 1) 8 4 ≤ 1
          ∧ d.unlockCheck 1 (10 * 2 ^ 32 + 1) [] (d.bufGet 0 3 0 1) = some .badField)
    ∧ (∀ m ∈ [0, 129], On (asked busy 2 7 0x0901 .fleet (le 1 m ++ zeros 11)) fun d => let b := le 1 m ++ zeros 11
        d.takes 0x0901 2 7 b ∧ numAt b 1 3 = 0 ∧ ((List.range 8).filter fun c => (numAt b 0 1).testBit c) = if m = 0 then [] else [0, 7])
    ∧ (∀ op ∈ [0x0902, 0x0903], ∀ x ∈ [0, 1, 2], On (asked { busy with keys := { meas := { extState := Vector.replicate 8 x } } } 2 7 op .fleet [129#8]) fun d =>
        d.takes op 2 7 [129#8] ∧ ((List.range 8).filter fun c => (numAt [129#8] 0 1).testBit c) = [0, 7] ∧ 7 < d.nCombs ∧ vget d.keys.meas.extState 7 0 = x)
    ∧ On (asked busy 2 7 0x0905 .fleet (zeros 8 ++ le 4 48)) (fun d => let b := zeros 8 ++ le 4 48
        d.takes 0x0905 2 7 b ∧ numAt b 0 4 = 0 ∧ numAt b 4 4 = 0 ∧ numAt b 8 4 = 48 ∧ ceilDiv 48 6 ≤ bufWords 2 ∧ (packWords (d.bufGet 2 7 0 48)).length = 8
          ∧ d.flash.permits 2 d.flash.staging 0 = true ∧ d.flash.rowErased d.flash.staging 0 = true)
    ∧ On (asked busy 2 7 0x0906 .fleet []) (fun d => d.takes 0x0906 2 7 []) := by
  refine ⟨?_, ?_, ?_, ?_, ?_, ?_, ?_, ?_⟩ <;> decide +kernel

/-- The working device with a reader mode allowed by its settings. -/
def reading (l : FieldLink) : Dev := { able with settings := { vals := [(0x70, le 4 1)] }, field := l }

/-- A settings shadow of session 7 of P2 that makes a challenge last 11 s, and one of another session. -/
def shadow (slot : Nat) : SetShadow := { port := 2, slot := slot, vals := [(0x02, le 4 11)] }

theorem witness_fieldAndSettingCommands :
    On (asked busy 2 7 0x0801 .operator []) (fun d => d.takes 0x0801 2 7 [])
    ∧ (∀ s ∈ [none, some ({} : FieldSession)], On (asked (tagged { sess := s }) 2 7 0x0802 .operator (zeros 256)) fun d =>
        d.takes 0x0802 2 7 (zeros 256) ∧ d.field.waits = [] ∧ d.field.sess = s ∧ d.field.mem.commitSeq + 1 < 2 ^ 32)
    ∧ (∀ s ∈ [none, some ({ bank := 0 } : FieldSession), some { bank := 1 }], ∀ t ∈ [busy.clk, busy.clk + 1],
      On (asked (tagged { sess := s, waits := [{ work := .command 2 7, page := [0#8], until_ := some t }] }) 2 7 0x0802 .operator []) fun d =>
        d.field.waits = [{ work := .command 2 7, page := [0#8], until_ := some t }] ∧ d.waitsAt 2 7 ∧ d.supply.clocks = true ∧ d.field.sess = s
          ∧ d.field.mem.active = 0 ∧ (d.clk < t ↔ t = busy.clk + 1))
    ∧ On (asked (reading {}) 4 0 0x0803 .operator (le 2 5000 ++ le 2 508)) (fun d => let b := le 2 5000 ++ le 2 508
        d.takes 0x0803 4 0 b ∧ numAt b 0 2 = 5000 ∧ numAt b 2 2 = 508 ∧ (d.setting 0x70).testBit 0 = true ∧ d.power.mode = .record ∧ d.field.sess = none)
    ∧ (∀ f ∈ [[], [5]], ∀ b : Bool, On (asked (reading { reader := some { port := 2, slot := 7, until_ := busy.clk - b.toNat, found := f } }) 2 7 0x0803 .operator []) fun d =>
        d.field.reader = some { port := 2, slot := 7, until_ := busy.clk - b.toNat, found := f } ∧ d.supply.clocks = true ∧ d.waitsAt 2 7
          ∧ (busy.clk - b.toNat < d.clk ↔ b = true))
    ∧ (∀ v : Bool, On (asked (reading { mem := { key0 := { valid := v } } }) 2 7 0x0804 .operator (zeros 8 ++ le 4 2037)) fun d => let b := zeros 8 ++ le 4 2037
        d.takes 0x0804 2 7 b ∧ (d.setting 0x70).testBit 0 = true ∧ d.power.mode = .record ∧ d.field.sess = none ∧ numAt b 8 4 + 11 ≤ bufWords 2 ∧ d.canDraw 0 = true
          ∧ d.field.mem.key0.valid = v)
    ∧ (∀ src ∈ [0, 1, 2], On (asked { busy with settings := { shadow := some (shadow 7) } } 2 7 0x0A01 .operator (le 2 2 ++ le 1 src ++ [0#8])) fun d => let b := le 2 2 ++ le 1 src ++ [0#8]
        d.takes 0x0A01 2 7 b ∧ numAt b 2 1 = src ∧ numAt b 3 1 = 0 ∧ settingInfo (numAt b 0 2) ≠ none ∧ d.settings.shadow = some (shadow 7) ∧ sessOf 2 7 = 7)
    ∧ (∀ h ∈ [none, some (shadow 7)], On (asked { busy with settings := { shadow := h } } 2 7 0x0A02 .fleet (le 2 2 ++ le 2 4 ++ le 4 12)) fun d => let b := le 2 2 ++ le 2 4 ++ le 4 12
        d.takes 0x0A02 2 7 b ∧ numAt b 0 2 = 2 ∧ (settingInfo 2).map (fun x => x.2.1) = some (numAt b 2 2) ∧ (b.drop 4).length = numAt b 2 2 ∧ d.roleOf 2 7 = .fleet
          ∧ settingOk 2 (b.drop 4) = true ∧ d.settings.shadow = h)
    ∧ (∀ h ∈ [none, some (shadow 7), some (shadow 0)], On (asked { busy with settings := { shadow := h } } 2 7 0x0A03 .fleet (zeros 4)) fun d =>
        d.takes 0x0A03 2 7 (zeros 4) ∧ d.settings.shadow = h ∧ numAt (zeros 4) 0 4 = d.settings.generation
          ∧ (settingIds.filter fun id => spGet settingDefault (shadow 7).vals id != spGet settingDefault d.settings.vals id) = [2]
          ∧ d.setConflict (shadow 7).vals = none)
    ∧ On (asked { busy with settings := { shadow := some { shadow 7 with vals := [(0x50, le 4 31)] } } } 2 7 0x0A03 .fleet (zeros 4)) (fun d =>
        d.takes 0x0A03 2 7 (zeros 4) ∧ d.setConflict [(0x50, le 4 31)] = some 0x50)
    ∧ On (asked { busy with settings := { shadow := some (shadow 7) } } 2 7 0x0A04 .operator []) (fun d => d.takes 0x0A04 2 7 [] ∧ d.settings.shadow = some (shadow 7)) := by
  refine ⟨?_, ?_, ?_, ?_, ?_, ?_, ?_, ?_, ?_, ?_, ?_⟩ <;> decide +kernel

/-! The machine -/

theorem witness_emptyQueueTicks :
    (at_ busy).pending = [] ∧ busy.supply.clocks = true ∧ busy.wag.flights = [] ∧ ({} : Dev).supply.clocks = false ∧ ({} : Dev).time.aon.phase < 1000000000 := by
  decide +kernel

theorem witness_commandsTakeNoTime : ∃ t, exec (.timeGet 0 0) (at_ busy) = .next t ∧ t.dev.clk = busy.clk := ⟨_, rfl, by decide +kernel⟩

theorem core_sound : ({} : Core).sound := by
  refine ⟨by decide, by simp, ⟨by decide, by decide, by decide⟩, ⟨by decide, by decide, by decide⟩, by decide, by decide, by decide, by decide,
    by decide, by decide, fun k => ?_, by decide, by decide⟩
  exact vget_all (P := fun m : ModReg => m.len ≤ 2 ^ 20 ∧ m.nbits ≤ 20) (by decide +kernel) (by decide) k

theorem witness_coresStaySound : (∀ n, (busy.core n).sound) ∧ ∃ t, step (at_ busy) = .next t := by
  refine ⟨vget_all (P := Core.sound) (fun n hn => ?_) core_sound, _, rfl⟩
  have h : busy.cores = Vector.replicate 9 {} := rfl
  simpa only [h, vget, Vector.getElem_replicate, hn, ↓reduceDIte] using core_sound

/-- A transition whose mark is written, as its entry is programmed. -/
theorem witness_lifeCycleChanges :
    On (living { st := .fleet, going := some { target := .service, source := 0, marked := true } }) (fun d =>
      ∃ t, exec (.lcEntryProgrammed true) (at_ d) = .next t ∧ t.dev.life.st ≠ d.life.st)
    ∧ On { living { st := .blank, entries := [] } with dbg := { level := .full } } (fun d =>
      ∃ t, exec .dbgCtrlLcProvision (at_ d) = .next t ∧ t.dev.life.going ≠ none) := by
  exact ⟨⟨_, rfl, by decide +kernel⟩, _, rfl, by decide +kernel⟩

/-! Single steps, and fields, whose values stand in the spec's tables and worked examples -/

/-- The step that takes a command of a device leads to a next state, of whose device `P` holds. -/
def after (c : Instr) (d : Dev) (P : Dev → Bool) : Bool :=
  match step { dev := d, pending := [c] } with
  | .next t => P t.dev && t.pending.isEmpty
  | _ => false

/-- ADD wraps at 48 bits, and SUB below zero (R465). -/
theorem test_add_wraps : after (.cpuAdd u1 fR) (cpu 1 (withD 0x7FFFFFFFFFFF 1)) (fun d => (d.core 1).dreg 3 == 0x800000000000#48) = true := by decide +kernel
theorem test_sub_below_zero : after (.cpuSub u1 fR) (cpu 1 (withD 3 5)) (fun d => (d.core 1).dreg 3 == 0xFFFFFFFFFFFE#48) = true := by decide +kernel

/-- The boundaries of the example of chapter 3: 0.6 s, 0.7 s and 0.8 s into second 0x3A2C_5E10, every 100 ms (R110). -/
theorem test_boundaries : [6, 7, 8].map (fun k => boundaryOf (0x3A2C5E10 * 10 + k) 100)
    = [0x3A2C5E109999999A, 0x3A2C5E10B3333334, 0x3A2C5E10CCCCCCCD] := by decide +kernel

/-- The descriptor of the example of chapter 10 (R341). -/
theorem test_job_descriptor : parseJob 0 [0x004100000B01, 0x000007FF0400, 0x000000012000, 0x45, 0, 0, 0x000000012100, 0x500]
    = { op := 1, compare := true, irq := true, cls := 2, tag := 0x41, key := 1024, dst := 0x7FF, inAddr := 0x12000, inLen := 69, outAddr := 0x12100,
        outLen := 1280 } := by decide +kernel

/-- The attribute word of the example of chapter 11 (R359). -/
theorem test_attribute_word : mkAttr 4 2 1 false 1 true 15 3 + 2 * 65536 + 4 * 2 ^ 32 = 0x0000000403F29124
    ∧ attrFits 384 0x0000000403F29124 = true ∧ attrSec 0x0000000403F29124 = 4 ∧ attrFlavour 0x0000000403F29124 = 2 := by decide +kernel

/-- IDCODE of both parts (chapter 20). -/
theorem test_idcode : after .tapIdcode busy (fun d => d.out == [.tap 0x280649CB]) = true
    ∧ after .tapIdcode { busy with variant := .vtz8032 } (fun d => d.out == [.tap 0x280329CB]) = true := by decide +kernel

/-- The first firing of the example of chapter 13: an event and no alarm, and a window of 1 µs for its partner (R402, R403). -/
theorem test_light_event : after (.sensorDetectorFire 3 1 17 none) busy (fun d => !flag d.aon.latch 3 && vget d.tamper.events 3 [] == [busy.clk]
    && d.tamper.corrob.map (fun k => k.until_) == [busy.clk + 1000]) = true := by decide +kernel

/-- A doorbell with a length of zero is answered at once (R255). -/
theorem test_doorbell_empty : after (.mbxDoorbell 0 3 0 9) busy (fun d => (d.slot 0 3).st == .done && (d.slot 0 3).status == 0x102 && (d.slot 0 3).tag == 9)
    = true := by decide +kernel

/-- No tile enabled: the write is refused (R356). -/
theorem test_tile_enable_none : after (.pkTileEnWrite 0) busy (fun d => flag d.tiles.err 0 && d.tiles.tileEn == 0xFF) = true := by decide +kernel

/-- A code flash doorbell one descriptor beyond the queue (R520). -/
theorem test_flash_doorbell : after (.cflSqDoorbell 17) busy (fun d => flag d.flash.err 1 && d.flash.sqTail == 0) = true
    ∧ after (.cflSqDoorbell 16) busy (fun d => !flag d.flash.err 1 && d.flash.sqTail == 16) = true := by decide +kernel

end Sys2Proof.Tests
end

/-! PROOFS. Register writes and the transactions of the management port: the decoders' places, what a write of a byte does
to a window, to the bulk buffer and to the MSI-X table, and the obligation of the registers and windows. -/
namespace Sys2Proof.Machine

/-! What a row completes with -/

theorem completes_on {c : Instr} {s : State} {f : Dev → Dev} {P : Dev → Prop} (hc : exec c s = s.on f) (hP : P (f s.dev)) :
    Completes c s P := ⟨_, hc, rfl, hP⟩

theorem Dev.clocked_of_stopped (d : Dev) (f : Dev → Dev) (h : d.supply.clocks = false) : d.clocked f = d := by simp [Dev.clocked, h]
theorem Dev.clocked_of_running (d : Dev) (f : Dev → Dev) (h : d.supply.clocks = true) : d.clocked f = f d := by simp [Dev.clocked, h]

/-- While the clocks run, REGISTER_WRITE completes as the write of the register. -/
theorem completes_registerWrite {s : State} {who bar a n : Nat} {m : Bool} {v : BitVec 32} {P : Dev → Prop} (h : s.dev.supply.clocks = true)
    (hP : P (s.dev.registerWrite who bar a n m v.toNat)) : Completes (.registerWrite who bar a n m v) s P :=
  completes_on (exec_registerWrite ..) (by rwa [Dev.clocked_of_running _ _ h])

theorem completes_mgtWrite {s : State} {a : Nat} {bs : List Byte} {held : Bool} {P : Dev → Prop}
    (hP : P (s.dev.mgtStart held fun d => d.mgtPut (a % 65536) bs)) : Completes (.mgtWrite a bs held) s P :=
  completes_on (exec_mgtWrite ..) hP

theorem completes_mgtRead {s : State} {a n : Nat} {held : Bool} {P : Dev → Prop}
    (hP : P (s.dev.mgtStart held fun d => d.send (.reads 4 (d.mgtGet (a % 65536) n)))) : Completes (.mgtRead a n held) s P :=
  completes_on (exec_mgtRead ..) hP

@[simp] theorem lo32_toNat (v : Word) : lo32 v.toNat = v := by simp [lo32]

/-! The decoders: which addresses reach which kind of block -/

/-- A decoder tries one run after another: what holds of each place that a run gives holds of the place decoded. -/
theorem of_findSome?_id {α : Type} {P : α → Prop} {os : List (Option α)} {x : α} (h : os.findSome? id = some x)
    (hP : ∀ o ∈ os, ∀ y, o = some y → P y) : P x := by
  obtain ⟨o, ho, hx⟩ := List.exists_of_findSome?_eq_some h
  exact hP o ho x hx

/-- What holds of the places of a run whenever the address lies in it. -/
theorem of_inRun_map {α : Type} {P : α → Prop} {a base n w : Nat} {g : Nat × Nat → α}
    (h : base ≤ a → a < base + n * w → ∀ r, P (g r)) (y : α) (hy : (inRun a base n w).map g = some y) : P y := by
  obtain ⟨r, hr, rfl⟩ := Option.map_eq_some_iff.mp hy
  unfold inRun at hr
  split at hr
  case isTrue hin =>
    simp only [Bool.and_eq_true, decide_eq_true_eq] at hin
    exact h hin.1 hin.2 r
  case isFalse => cases hr

/-- Comb controllers reach neither HIVE_ nor the blocks from PWR_ upwards (R96). -/
theorem ioDecode_reached_by_comb {a n i : Nat} {b : Blk} (hn : 1 ≤ n) (h : ioDecode a = some (b, i)) (hb : b.reaches n = true) :
    a < 0x45400 ∨ 0x45440 ≤ a ∧ a < 0x4C000 := by
  have far : n ≠ 0 := by omega
  refine of_findSome?_id (P := fun x => x.1.reaches n = true → a < 0x45400 ∨ 0x45440 ≤ a ∧ a < 0x4C000) h ?_ hb
  -- One goal for each run of the map: its block is not a comb controller's, or the run lies in the range.
  repeat' refine List.forall_mem_cons.mpr ⟨of_inRun_map fun lo hi r hr => ?_, ?_⟩
  rotate_right
  · exact List.forall_mem_nil _
  all_goals simp [Blk.reaches, far] at hr <;> omega

/-- From BAR0 + 0x0044_0000 upwards no block takes a host's writes (R96, R261, R277). -/
theorem barDecode_host_ignored {p a i : Nat} {b : Blk} (ha : 0x440000 ≤ a) (h : barDecode p a = some (b, i)) (d : Dev) (v : Nat) :
    d.hostWrite p b i v = d := by
  refine of_findSome?_id (P := fun x => d.hostWrite p x.1 x.2 v = d) h ?_
  -- One goal for each run of the map: a port ignores writes to its block, or the run ends below.
  repeat' refine List.forall_mem_cons.mpr ⟨of_inRun_map fun lo hi r => ?_, ?_⟩
  rotate_right
  · exact List.forall_mem_nil _
  all_goals simp [Dev.hostWrite] <;> omega

/-! Register writes by a core (R3, R95, R96) -/

namespace Dev
variable (d : Dev)

/-- A write that a core may not make, or that no block takes, leaves the device. -/
theorem registerWrite_core_refused {w : Nat} (b a n : Nat) {m : Bool} (v : Nat) (hw : w < 9)
    (h : d.nCombs < w ∨ d.power.mode = .close ∨ d.ioPlace w (if m then .machine else .supervisor) a = none) :
    d.registerWrite w b a n m v = d := by
  have core : w < 16 := by omega
  simp only [registerWrite, core, if_true]
  split
  case isTrue hc =>
    simp only [Bool.and_eq_true, decide_eq_true_eq] at hc
    obtain ⟨here, notClosing⟩ := hc
    have nowhere : d.ioPlace w (if m then .machine else .supervisor) a = none := by
      rcases h with h | h | h
      · omega
      · exact absurd h notClosing
      · exact h
    simp [ioWrite, nowhere]
  case isFalse => rfl

/-- No place of HIVE_, or from PWR_ upwards, is a comb controller's. -/
theorem ioPlace_comb_none {w a : Nat} (priv : Priv) (hw : 1 ≤ w) (h : 0x45400 ≤ a) (h' : a < 0x45440 ∨ 0x4C000 ≤ a) :
    d.ioPlace w priv a = none := by
  unfold ioPlace
  split
  case h_1 b i hd =>
    have unreached : b.reaches w = false := Bool.eq_false_iff.mpr fun hb => by
      have := ioDecode_reached_by_comb hw hd hb
      omega
    simp [unreached]
  case h_2 => rfl

/-- The supervisor's write of LOG_SW_DATA0 (R435). -/
theorem registerWrite_swData0 (b n : Nat) (m : Bool) (v : BitVec 32) (h : d.power.mode ≠ .close) :
    d.registerWrite 0 b 0x5300A n m v.toNat = { d with log := { d.log with swData0 := v } } := by
  have place : d.ioPlace 0 (if m then .machine else .supervisor) 0x5300A = some (.log, 10) := by cases m <;> rfl
  have value : lo32 (v.toNat % 0x100000000) = v := by rw [Nat.mod_eq_of_lt v.isLt, lo32_toNat]
  simp [registerWrite, h, ioWrite, place, blkWrite, hasBlk, logWrite, onLog, value]

/-! Register writes by a host port: BAR0, the windows, the bulk window and the MSI-X table (R4, R255, R261) -/

/-- A host port's write is one of its BAR. -/
theorem registerWrite_host {p : Nat} (bar a n : Nat) (m : Bool) (v : Nat) (hp : p < 2) :
    d.registerWrite (16 + p) bar a n m v = d.barWrite p bar a n v := by
  have host : ¬ 16 + p < 16 ∧ 16 + p < 18 := by omega
  simp [registerWrite, host]

theorem barWrite_ignored_high {p a : Nat} (n v : Nat) (ha : 0x440000 ≤ a) : d.barWrite p 0 a n v = d := by
  have outside : ¬ a < 0x120000 := by omega
  simp only [barWrite, outside, decide_false, Bool.and_false]
  split
  case isTrue h => cases h
  case isFalse =>
    split
    · rfl
    · split
      case h_1 b i hd => exact barDecode_host_ignored ha hd d v
      case h_2 => rfl

/-- Registers take aligned 32-bit writes only (R3). -/
theorem barWrite_ignored_unaligned {p a n : Nat} (v : Nat) (ha : a < 0x100000) (h : n ≠ 4 ∨ a % 4 ≠ 0) : d.barWrite p 0 a n v = d := by
  have outside : ¬ 0x100000 ≤ a := by omega
  have odd : (decide (n ≠ 4) || decide (a % 4 ≠ 0)) = true := by simpa using h
  simp only [barWrite, outside, decide_false, Bool.false_and, odd]
  rfl

/-- A byte written in the mailbox windows, and in the bulk window. -/
theorem barWrite_windowByte {p off : Nat} (v : Nat) (h : off < 0x20000) :
    d.barWrite p 0 (0x100000 + off) 1 v = d.barWindow p off (BitVec.ofNat 8 v) := by
  have inside : 0x100000 + off < 0x120000 := by omega
  simp [barWrite, inside, each, le]

theorem barWrite_bulkByte (p off v : Nat) : d.barWrite p 4 off 1 v = d.bulkByte p off (BitVec.ofNat 8 v) := by
  simp [barWrite, each, le]

/-- A byte of the request window of slot `i`, and one of its response window. -/
theorem barWindow_request (p i : Nat) {k : Nat} (v : Byte) (hk : k < 0x4000) : d.barWindow p (i * 0x8000 + k) v = d.windowByte p i k v := by
  have place : (i * 0x8000 + k) % 0x8000 = k ∧ (i * 0x8000 + k) / 0x8000 = i := by omega
  simp only [barWindow, place, hk, if_true]

theorem barWindow_response (p i : Nat) {k : Nat} (v : Byte) (hk : k < 0x4000) : d.barWindow p (i * 0x8000 + 0x4000 + k) v = d := by
  have behind : ¬ (i * 0x8000 + 0x4000 + k) % 0x8000 < 0x4000 := by omega
  simp only [barWindow, behind, if_false]

/-- The request window of an IDLE slot takes the byte, and no other address of the port's windows changes. -/
theorem windowByte_idle {p s : Nat} (off : Nat) (v : Byte) (hp : p < 5) (h : (d.slot p s).st = .idle) :
    spGet zeroByte ((d.windowByte p s off v).port p).mbx.win (reqWindow p s + off) = v
    ∧ ∀ j, j ≠ reqWindow p s + off → spGet zeroByte ((d.windowByte p s off v).port p).mbx.win j = spGet zeroByte (d.port p).mbx.win j := by
  have win : ((d.windowByte p s off v).port p).mbx.win = spSet zeroByte (d.port p).mbx.win (reqWindow p s + off) v := by
    simp [windowByte, h, putWindow, onMbx, hp, spSetAll]
  rw [win]
  exact ⟨spGet_spSet_same .., fun j hj => spGet_spSet_ne _ _ _ hj.symm⟩

/-- The request window of any other slot is locked: the byte raises an error instead (R255). -/
theorem windowByte_locked {p s : Nat} (off : Nat) (v : Byte) (hp : p < 5) (hu : isUdp p = false) (h : (d.slot p s).st ≠ .idle) :
    ((d.windowByte p s off v).port p).mbx.win = (d.port p).mbx.win ∧ flag ((d.windowByte p s off v).port p).mbx.err 1 = true := by
  simp [windowByte, h, mbxErr, hu, onMbx, hp]

theorem sess_onSess_same {p i : Nat} (f : Session → Session) (hp : p < 5) (hi : i < 8) : (d.onSess p i f).sess p i = f (d.sess p i) := by
  simp [sess, onSess, hp, hi]

end Dev

/-! Byte `k` of a word replaced: every byte of the word that results -/

/-- The word with byte `k` replaced, as the bulk window writes it. -/
def putByte (w k v : Nat) : Nat := w % 2 ^ (8 * k) + v * 2 ^ (8 * k) + w / 2 ^ (8 * k + 8) * 2 ^ (8 * k + 8)

theorem putByte_eq (w k v : Nat) : putByte w k v = 2 ^ (8 * k) * (v + 256 * (w / 2 ^ (8 * k + 8))) + w % 2 ^ (8 * k) := by
  unfold putByte
  generalize w / 2 ^ (8 * k + 8) = high
  have shifted : high * 2 ^ (8 * k + 8) = 2 ^ (8 * k) * (256 * high) := by
    rw [Nat.pow_add, Nat.mul_comm high, Nat.mul_assoc]
  rw [shifted, Nat.mul_comm v, Nat.mul_add]
  omega

/-- Without the bytes below byte `k`, the new byte comes first. -/
theorem putByte_div (w k v : Nat) : putByte w k v / 2 ^ (8 * k) = v + 256 * (w / 2 ^ (8 * k + 8)) := by
  have pos : 0 < 2 ^ (8 * k) := Nat.two_pow_pos _
  rw [putByte_eq, Nat.mul_add_div pos, Nat.div_eq_of_lt (Nat.mod_lt _ pos), Nat.add_zero]

/-- The bytes above byte `k`, as one number, stay. -/
theorem putByte_high {w k v : Nat} (hv : v < 256) : putByte w k v / 2 ^ (8 * k + 8) = w / 2 ^ (8 * k + 8) := by
  calc putByte w k v / 2 ^ (8 * k + 8)
    _ = putByte w k v / 2 ^ (8 * k) / 256 := by rw [Nat.pow_add, ← Nat.div_div_eq_div_mul]
    _ = (v + 256 * (w / 2 ^ (8 * k + 8))) / 256 := by rw [putByte_div]
    _ = w / 2 ^ (8 * k + 8) := by omega

/-- The byte itself. -/
theorem putByte_same {w k v : Nat} (hv : v < 256) : putByte w k v / 2 ^ (8 * k) % 256 = v := by
  rw [putByte_div]
  omega

/-- The bytes below it. -/
theorem putByte_below {w k v j : Nat} (h : j < k) : putByte w k v / 2 ^ (8 * j) % 256 = w / 2 ^ (8 * j) % 256 := by
  obtain ⟨c, rfl⟩ := Nat.exists_eq_add_of_lt h
  have pow_split : 2 ^ (8 * (j + c + 1)) = 2 ^ (8 * j) * 256 * 2 ^ (8 * c) := by
    rw [show 8 * (j + c + 1) = 8 * j + 8 + 8 * c by omega, Nat.pow_add, Nat.pow_add]
  rw [putByte_eq, ← Nat.mod_mul_right_div_self, ← Nat.mod_mul_right_div_self, pow_split, Nat.mul_assoc _ (2 ^ (8 * c)),
    Nat.mul_add_mod, Nat.mod_mul_right_mod]

/-- The bytes above it. -/
theorem putByte_above {w k v j : Nat} (hv : v < 256) (h : k < j) : putByte w k v / 2 ^ (8 * j) % 256 = w / 2 ^ (8 * j) % 256 := by
  obtain ⟨c, rfl⟩ := Nat.exists_eq_add_of_lt h
  have pow_split : 2 ^ (8 * (k + c + 1)) = 2 ^ (8 * k + 8) * 2 ^ (8 * c) := by
    rw [show 8 * (k + c + 1) = 8 * k + 8 + 8 * c by omega, Nat.pow_add]
  rw [pow_split, ← Nat.div_div_eq_div_mul, ← Nat.div_div_eq_div_mul, putByte_high hv]

/-- The word stays one of 48 bits. -/
theorem putByte_lt {w k v : Nat} (hw : w < 2 ^ 48) (hk : k < 6) (hv : v < 256) : putByte w k v < 2 ^ 48 := by
  have pow_split : 2 ^ 48 = 2 ^ (40 - 8 * k) * 2 ^ (8 * k + 8) := by
    rw [← Nat.pow_add, show 40 - 8 * k + (8 * k + 8) = 48 by omega]
  rw [pow_split, ← Nat.div_lt_iff_lt_mul (Nat.two_pow_pos _)] at hw ⊢
  rwa [putByte_high hv]

theorem putByte_byte {w k v : Nat} (hv : v < 256) (j : Nat) :
    putByte w k v / 2 ^ (8 * j) % 256 = if j = k then v else w / 2 ^ (8 * j) % 256 := by
  rcases Nat.lt_trichotomy j k with h | rfl | h
  · rw [if_neg (Nat.ne_of_lt h), putByte_below h]
  · rw [if_pos rfl, putByte_same hv]
  · rw [if_neg (Nat.ne_of_gt h), putByte_above hv h]

namespace Dev
variable (d : Dev)

/-- Bytes 6 and 7 of a slot of the bulk window ignore writes (R4). -/
theorem bulkByte_ignored (p w : Nat) {k : Nat} (v : Byte) (h6 : 6 ≤ k) (h8 : k < 8) : d.bulkByte p (8 * w + k) v = d := by
  have pad : 6 ≤ (8 * w + k) % 8 := by omega
  simp only [bulkByte, pad, decide_true, Bool.true_or, if_true]

/-- A byte of a word in the bulk window replaces that byte of the buffer's word. -/
theorem bulkByte_buf {p w k : Nat} (v : Byte) (hp : p < 5) (hw : w < 16384) (hk : k < 6) :
    ((d.bulkByte p (8 * w + k) v).sess p 0).buf = spSet zeroWord (d.sess p 0).buf w
      (BitVec.ofNat 48 (putByte (spGet zeroWord (d.sess p 0).buf w).toNat k v.toNat)) := by
  have place : (8 * w + k) % 8 = k ∧ (8 * w + k) / 8 = w := by omega
  have inside : (decide (6 ≤ k) || decide (131072 ≤ 8 * w + k)) = false := by simp; omega
  simp only [bulkByte, place, inside, Bool.false_eq_true, if_false, sess_onSess_same _ _ hp (by decide : 0 < 8)]
  rfl

theorem bulkByte_bytes {p w k : Nat} (v : Byte) (hp : p < 5) (hw : w < 16384) (hk : k < 6) :
    (∀ j, (spGet zeroWord ((d.bulkByte p (8 * w + k) v).sess p 0).buf w).toNat / 2 ^ (8 * j) % 256
      = if j = k then v.toNat else (spGet zeroWord (d.sess p 0).buf w).toNat / 2 ^ (8 * j) % 256)
    ∧ ∀ x, x ≠ w → spGet zeroWord ((d.bulkByte p (8 * w + k) v).sess p 0).buf x = spGet zeroWord (d.sess p 0).buf x := by
  rw [bulkByte_buf d v hp hw hk]
  refine ⟨fun j => ?_, fun x hx => spGet_spSet_ne _ _ _ hx.symm⟩
  rw [spGet_spSet_same, BitVec.toNat_ofNat, Nat.mod_eq_of_lt (putByte_lt (BitVec.isLt _) hk v.isLt), putByte_byte v.isLt]

/-- An aligned 32-bit write of BAR2 is one of the MSI-X table (R261). -/
theorem barWrite_msix {p a : Nat} (v : Nat) (ha : a < 32768) (h4 : a % 4 = 0) : d.barWrite p 2 a 4 v = d.msixWrite p (a / 4) v := by
  simp [barWrite, ha, h4]

theorem port_send (o : Output) (p : Nat) : (d.send o).port p = d.port p := rfl

/-- The table holds the dword, whether or not its pending message goes out. -/
theorem msixWrite_msix {p : Nat} (i v : Nat) (hp : p < 5) :
    ((d.msixWrite p i v).port p).pcie.msix = spSet (fun _ => 0#32) (d.port p).pcie.msix i (lo32 v) := by
  unfold msixWrite
  dsimp only
  split
  · simp [port_send, hp]
  · simp [hp]

/-! Transactions of the management port (R225, R274 to R276) -/

theorem mgtStart_stopped (held : Bool) (f : Dev → Dev) (h : d.supply.clocks = false) : d.mgtStart held f = d := by
  simp [mgtStart, h]

/-- A transaction that nothing holds up runs, and ends the time that SCL may stay low. -/
theorem mgtStart_runs (f : Dev → Dev) (hc : d.supply.clocks = true) (hm : d.power.mode ≠ .standby) (ht : d.power.target ≠ some .standby) :
    d.mgtStart false f = f (d.onPorts fun c => { c with sclAt := none }) := by
  simp [mgtStart, hc, hm, ht]

/-- On I²C with SCL held low, the time that it may stay low begins, and nothing else happens (R276). -/
theorem mgtStart_held (f : Dev → Dev) (hc : d.supply.clocks = true) (hm : d.power.mode ≠ .standby) (ht : d.power.target ≠ some .standby)
    (hi : d.supply.i2c = true) : d.mgtStart true f = d.onPorts fun c => { c with sclAt := some (c.sclAt.getD (d.clk + ms 25)) } := by
  simp [mgtStart, hc, hm, ht, hi]

/-- A port without SCL holds nothing. -/
theorem mgtStart_not_i2c (held : Bool) (f : Dev → Dev) (ht : d.power.target ≠ some .standby) (hi : d.supply.i2c = false) :
    d.mgtStart held f = d.mgtStart false f := by
  simp [mgtStart, ht, hi]

/-- A wake source during IDLE to STANDBY ends the transition (R225). -/
theorem wake_aborts_standby {bit : Nat} (hm : d.power.mode = .idle) (ht : d.power.target = some .standby) (hw : flag d.power.wakeEn bit = true) :
    (d.wake bit).power.mode = .idle ∧ (d.wake bit).power.target = none := by
  have kept : ∀ (e : Dev), (e.finish .mode id).power = e.power := fun e => finish_frame e .mode id (π := .power) (by decide)
  simp [wake, hw, wakeBy, hm, ht, kept, onPower]

theorem mgtStart_aborts_standby (held : Bool) {f : Dev → Dev} (hf : ∀ e, (f e).power = e.power) (hc : d.supply.clocks = true)
    (hm : d.power.mode = .idle) (ht : d.power.target = some .standby) (hw : flag d.power.wakeEn 0 = true) :
    (d.mgtStart held f).power.mode = .idle ∧ (d.mgtStart held f).power.target = none := by
  have power : (d.mgtStart held f).power = (d.wake 0).power := by
    have starts : (!d.supply.clocks || decide (d.power.mode = .standby)) = false := by simp [hc, hm]
    simp only [mgtStart, starts, Bool.false_eq_true, ht, if_true, if_false]
    split
    · exact onPorts_power ..
    · rw [hf, onPorts_power]
  rw [power]
  exact wake_aborts_standby d hm ht hw

/-- A byte written to the request window of P4. -/
theorem mgtPut_window {a : Nat} (v : Byte) (h : 0x1000 ≤ a) (h' : a < 0x2000) : d.mgtPut a [v] = d.windowByte 4 0 (a - 0x1000) v := by
  have above : ¬ a < 256 := by omega
  simp [mgtPut, above, h, h']

/-- A read of the windows of P4. -/
theorem mgtGet_window {a n : Nat} (h : 0x1000 ≤ a) (h' : a + n ≤ 0x4000) :
    d.mgtGet a n = (List.range n).map fun k => spGet zeroByte (d.port 4).mbx.win (a + k) := by
  refine List.map_congr_left fun k hk => ?_
  have hk := List.mem_range.mp hk
  have place : ¬ a + k < 256 ∧ 0x1000 ≤ a + k ∧ a + k < 0x4000 := by omega
  simp [mgtByte, place]

end Dev

/-- ARP, NDP and ICMP echo are answered, and fragments are dropped; the answer is all that is sent (R265). -/
theorem completes_arpNdpIcmpEcho {s : State} {p k : Nat} {bs : List Byte} {P : Dev → Prop} (hp : p = 2 ∨ p = 3)
    (hc : s.dev.supply.clocks = true) (hm : s.dev.power.mode ≠ .standby) (hm' : s.dev.power.mode ≠ .close)
    (hP : P (if k < 3 then (s.dev.ethUp p).send (.frame p k bs) else s.dev.ethUp p)) : Completes (.arpNdpIcmpEcho p k bs) s P := by
  have udp : isUdp p = true := by rcases hp with rfl | rfl <;> rfl
  refine completes_on (exec_arpNdpIcmpEcho ..) ?_
  simpa only [udp, hc, hm, hm', Bool.not_true, decide_false, Bool.or_false, Bool.false_eq_true, if_false] using hP

/-! The rows that the obligation speaks of, and the obligation -/

section
variable {s : State}

/-- With the fast clocks stopped, no register write, transaction or network frame does anything (R217). -/
theorem registerAccess_stopped (h : s.dev.supply.clocks = false) :
    (∀ w b a n m v, Completes (.registerWrite w b a n m v) s fun e => e = s.dev)
    ∧ (∀ a bs h, Completes (.mgtWrite a bs h) s fun e => e = s.dev) ∧ (∀ a n h, Completes (.mgtRead a n h) s fun e => e = s.dev)
    ∧ ∀ p k bs, Completes (.arpNdpIcmpEcho p k bs) s fun e => e = s.dev := by
  refine ⟨fun w b a n m v => completes_on (exec_registerWrite ..) (Dev.clocked_of_stopped _ _ h), fun a bs held => ?_, fun a n held => ?_, fun p k bs => ?_⟩
  · exact completes_mgtWrite (Dev.mgtStart_stopped _ _ _ h)
  · exact completes_mgtRead (Dev.mgtStart_stopped _ _ _ h)
  · exact completes_on (exec_arpNdpIcmpEcho ..) (by simp [h])

section
variable {p : Nat}

theorem completes_hostWrite {bar a n : Nat} {m : Bool} {v : BitVec 32} {P : Dev → Prop} (hc : s.dev.supply.clocks = true) (hp : p < 2)
    (hP : P (s.dev.barWrite p bar a n v.toNat)) : Completes (.registerWrite (16 + p) bar a n m v) s P :=
  completes_registerWrite hc (by rwa [Dev.registerWrite_host _ _ _ _ _ _ hp])

/-- A byte written to a request window, and to a response window (R255). -/
theorem completes_requestByte {i k : Nat} {m : Bool} {v : BitVec 32} {P : Dev → Prop} (hc : s.dev.supply.clocks = true) (hp : p < 2)
    (hi : i < 4) (hk : k < 0x4000) (hP : P (s.dev.windowByte p i k (BitVec.ofNat 8 v.toNat))) :
    Completes (.registerWrite (16 + p) 0 (0x100000 + i * 0x8000 + k) 1 m v) s P := by
  refine completes_hostWrite hc hp ?_
  rw [Nat.add_assoc, Dev.barWrite_windowByte _ _ (by omega)]
  rwa [Dev.barWindow_request _ _ _ _ hk]

theorem completes_responseByte {i k : Nat} {m : Bool} {v : BitVec 32} (hc : s.dev.supply.clocks = true) (hp : p < 2)
    (hi : i < 4) (hk : k < 0x4000) : Completes (.registerWrite (16 + p) 0 (0x104000 + i * 0x8000 + k) 1 m v) s fun e => e = s.dev := by
  refine completes_hostWrite hc hp ?_
  rw [show 0x104000 + i * 0x8000 + k = 0x100000 + (i * 0x8000 + 0x4000 + k) by omega, Dev.barWrite_windowByte _ _ (by omega)]
  exact Dev.barWindow_response _ _ _ _ hk

end

section
variable (hc : s.dev.supply.clocks = true) (hm : s.dev.power.mode ≠ .standby) (ht : s.dev.power.target ≠ some .standby)
include hc hm ht

/-- A byte written to P4's request window, by whether its slot is IDLE. -/
theorem completes_mgtWrite_byte {a : Nat} {v : Byte} {P : Dev → Prop} (h : 0x1000 ≤ a) (h' : a < 0x2000)
    (hP : P ((s.dev.onPorts fun c => { c with sclAt := none }).windowByte 4 0 (a - 0x1000) v)) : Completes (.mgtWrite a [v] false) s P := by
  refine completes_mgtWrite ?_
  rwa [Dev.mgtStart_runs _ _ hc hm ht, Nat.mod_eq_of_lt (by omega), Dev.mgtPut_window _ _ h h']

theorem completes_mgtRead_windows {a n : Nat} (h : 0x1000 ≤ a) (h' : a + n ≤ 0x4000) : Completes (.mgtRead a n false) s fun e =>
    e.out = .reads 4 ((List.range n).map fun k => spGet zeroByte (s.dev.port 4).mbx.win (a + k)) :: s.dev.out := by
  refine completes_mgtRead ?_
  rw [Dev.mgtStart_runs _ _ hc hm ht, Nat.mod_eq_of_lt (by omega), Dev.mgtGet_window _ h h']
  rfl

/-- With SCL held low the transaction only begins the time that SCL may stay so (R276). -/
theorem mgtStart_held_first (f : Dev → Dev) (hi : s.dev.supply.i2c = true) (hs : s.dev.portsCfg.sclAt = none) :
    s.dev.mgtStart true f = { s.dev with portsCfg := { s.dev.portsCfg with sclAt := some (s.dev.clk + ms 25) } } := by
  rw [Dev.mgtStart_held _ _ hc hm ht hi]
  simp [Dev.onPorts, hs]

end

theorem exec_mgtRead_not_i2c {a n : Nat} (ht : s.dev.power.target ≠ some .standby) (hi : s.dev.supply.i2c = false) :
    exec (.mgtRead a n true) s = exec (.mgtRead a n false) s := by
  simp only [exec_mgtRead, execMgtRead, State.on, Dev.mgtStart_not_i2c _ true _ ht hi]

theorem exec_mgtWrite_not_i2c {a : Nat} {bs : List Byte} (ht : s.dev.power.target ≠ some .standby) (hi : s.dev.supply.i2c = false) :
    exec (.mgtWrite a bs true) s = exec (.mgtWrite a bs false) s := by
  simp only [exec_mgtWrite, execMgtWrite, State.on, Dev.mgtStart_not_i2c _ true _ ht hi]

end

/-- Settles O44: each kind of access is one of the shared operations above — a core's write, a byte or dword of a host port's BAR, a
transaction of P4, a network frame — and its lemma says what the access does. -/
theorem registerAccess : Obligations.RegisterAccess := by
  intro s
  refine ⟨registerAccess_stopped, fun hc => ⟨?_, ?_, ?_, fun p hp => ⟨?_, ?_, ?_, ?_, ?_⟩, ?_, fun hm ht => ⟨?_, ?_, ?_, ?_, ?_⟩⟩⟩
  -- The cores' writes.
  · exact fun w b a n m v hw h => completes_registerWrite hc (Dev.registerWrite_core_refused _ b a n _ hw h)
  · intro w b a n m v h1 hw h h'
    have nowhere := Dev.ioPlace_comb_none s.dev (if m then .machine else .supervisor) h1 h h'
    exact completes_registerWrite hc (Dev.registerWrite_core_refused _ b a n _ hw (.inr (.inr nowhere)))
  · exact fun b n m v h => completes_registerWrite hc (Dev.registerWrite_swData0 _ b n m v h)
  -- The host ports: registers, windows, the bulk window, the MSI-X table.
  · exact fun a n m v h => completes_hostWrite hc hp (Dev.barWrite_ignored_high _ n _ h)
  · exact fun a n m v h h' => completes_hostWrite hc hp (Dev.barWrite_ignored_unaligned _ _ h h')
  · intro i k m v hi hk
    have windows : isUdp p = false := by
      obtain rfl | rfl : p = 0 ∨ p = 1 := by omega
      · rfl
      · rfl
    refine ⟨fun h => ?_, fun h => ?_, completes_responseByte hc hp hi hk⟩
    · exact completes_requestByte hc hp hi hk (Dev.windowByte_idle _ k _ (by omega) h)
    · exact completes_requestByte hc hp hi hk (Dev.windowByte_locked _ k _ (by omega) windows h)
  · refine fun w k m v hw => ⟨fun h6 h8 => completes_hostWrite hc hp ?_, fun hk => completes_hostWrite hc hp ?_⟩
    · rw [Dev.barWrite_bulkByte]
      exact Dev.bulkByte_ignored _ _ _ _ h6 h8
    · rw [Dev.barWrite_bulkByte]
      obtain ⟨bytes, others⟩ := Dev.bulkByte_bytes s.dev (BitVec.ofNat 8 v.toNat) (by omega : p < 5) hw hk
      exact ⟨fun j _ => by rw [bytes, BitVec.toNat_ofNat], others⟩
  · refine fun a m v ha h4 => completes_hostWrite hc hp ?_
    rw [Dev.barWrite_msix _ _ ha h4, Dev.msixWrite_msix _ _ _ (by omega), lo32_toNat]
    exact ⟨spGet_spSet_same .., fun x hx => spGet_spSet_ne _ _ _ hx.symm⟩
  -- The management port, and the network.
  · exact fun hm ht hw a n held => completes_mgtRead (Dev.mgtStart_aborts_standby _ held (fun _ => rfl) hc hm ht hw)
  · refine fun a v h h' => ⟨fun hi => completes_mgtWrite_byte hc hm ht h h' ?_, fun hi => completes_mgtWrite_byte hc hm ht h h' ?_⟩
    · have taken := Dev.windowByte_idle (p := 4) (s.dev.onPorts fun c => { c with sclAt := none }) (a - 0x1000) v (by decide) hi
      rwa [show reqWindow 4 0 + (a - 0x1000) = a from Nat.add_sub_cancel' h] at taken
    · exact Dev.windowByte_locked _ _ _ (by decide) rfl hi
  · exact fun a n h h' => completes_mgtRead_windows hc hm ht h h'
  · exact fun hi => ⟨fun a n => exec_mgtRead_not_i2c ht hi, fun a bs => exec_mgtWrite_not_i2c ht hi⟩
  · exact fun hi hs => ⟨fun a bs => completes_mgtWrite (mgtStart_held_first hc hm ht _ hi hs),
      fun a n => completes_mgtRead (mgtStart_held_first hc hm ht _ hi hs)⟩
  · refine fun p k bs hp hm' => ⟨fun hk => completes_arpNdpIcmpEcho hp hc hm hm' ?_, fun hk => completes_arpNdpIcmpEcho hp hc hm hm' ?_⟩
    · rw [if_pos hk]; rfl
    · rw [if_neg (Nat.not_lt.mpr hk)]; rfl

end Sys2Proof.Machine

/-! PROOFS. The rules of a lane's shared operations: what an update of a ring, a context or the registers leaves, what settling a
lane changes, and what is sent. -/
namespace Sys2Proof.Machine

/-! A lane's rings, contexts and registers apart from each other -/

namespace Lane
variable (l : Lane) (x : Nat) (f : RingPair → RingPair) (g : Ctx → Ctx)

@[simp] theorem onRing_st : (l.onRing x f).st = l.st := by unfold onRing; split <;> rfl
@[simp] theorem onRing_regs : (l.onRing x f).regs = l.regs := by unfold onRing; split <;> rfl
@[simp] theorem onRing_units : (l.onRing x f).units = l.units := by unfold onRing; split <;> rfl
@[simp] theorem onRing_parked : (l.onRing x f).parked = l.parked := by unfold onRing; split <;> rfl
@[simp] theorem onRing_ctx (y : Nat) : (l.onRing x f).ctx y = l.ctx y := by unfold onRing; split <;> rfl

@[simp] theorem onCtx_st : (l.onCtx x g).st = l.st := by unfold onCtx; split <;> rfl
@[simp] theorem onCtx_regs : (l.onCtx x g).regs = l.regs := by unfold onCtx; split <;> rfl
@[simp] theorem onCtx_units : (l.onCtx x g).units = l.units := by unfold onCtx; split <;> rfl
@[simp] theorem onCtx_ring (y : Nat) : (l.onCtx x g).ring y = l.ring y := by unfold onCtx; split <;> rfl

/-- The lane with its registers changed. -/
def onRegs (h : LaneRegs → LaneRegs) : Lane := { l with regs := h l.regs }

section
variable (h : LaneRegs → LaneRegs) (k : Nat)

@[simp] theorem onRegs_st : (l.onRegs h).st = l.st := rfl
@[simp] theorem onRegs_regs : (l.onRegs h).regs = h l.regs := rfl
@[simp] theorem onRegs_units : (l.onRegs h).units = l.units := rfl
@[simp] theorem onRegs_ring : (l.onRegs h).ring x = l.ring x := rfl
@[simp] theorem onRegs_ctx : (l.onRegs h).ctx x = l.ctx x := rfl
@[simp] theorem onRegs_ctx0 : (l.onRegs h).ctx0 = l.ctx0 := rfl

@[simp] theorem granted_st : (l.granted k).st = l.st := rfl
@[simp] theorem granted_regs : (l.granted k).regs = l.regs := rfl
@[simp] theorem granted_units : (l.granted k).units = l.units := rfl
@[simp] theorem granted_ring : (l.granted k).ring x = l.ring x := rfl
@[simp] theorem granted_ctx : (l.granted k).ctx x = l.ctx x := rfl

end

end Lane

/-! Settling (R82, R84, R86) -/

/-- `m` is `l` but for the jobs that the engine runs, their timeouts, and the requests that wait at the arbiter. -/
def Lane.Settled (l m : Lane) : Prop :=
  ∃ r0 u0 r1 u1 w, m = { l with ctx0 := { l.ctx0 with running := r0, jobUntil := u0 }
                                ctx1 := { l.ctx1 with running := r1, jobUntil := u1 }, waits := w }

namespace Lane.Settled
variable {l m k : Lane}

theorem refl (l : Lane) : l.Settled l := ⟨_, _, _, _, _, rfl⟩
theorem trans (h : l.Settled m) (h' : m.Settled k) : l.Settled k := by
  obtain ⟨_, _, _, _, _, rfl⟩ := h
  obtain ⟨_, _, _, _, _, rfl⟩ := h'
  exact ⟨_, _, _, _, _, rfl⟩

theorem settle (l : Lane) : l.Settled l.settle := by
  unfold Lane.settle
  split
  · exact refl l
  split
  · exact ⟨_, _, _, _, _, rfl⟩
  split
  · exact ⟨_, _, _, _, _, rfl⟩
  · exact refl l

theorem units (h : l.Settled m) : m.units = l.units := by obtain ⟨_, _, _, _, _, rfl⟩ := h; rfl
theorem ring (h : l.Settled m) (x : Nat) : m.ring x = l.ring x := by obtain ⟨_, _, _, _, _, rfl⟩ := h; rfl

theorem jobUntil (l : Lane) (x t : Nat) : l.Settled (l.onCtx x fun k => { k with jobUntil := t }) := by
  unfold onCtx
  split
  · exact ⟨_, _, _, _, _, rfl⟩
  · exact ⟨_, _, _, _, _, rfl⟩

theorem ask (l : Lane) (clk age : Nat) : l.Settled (l.ask clk age) := ⟨_, _, _, _, _, rfl⟩

end Lane.Settled

namespace Dev
variable (d : Dev)

/-- What holds of a lane and of its changed self holds of every lane after the change. -/
theorem lane_onLane_of {P : Lane → Lane → Prop} (hP : ∀ l, P l l) (n m : Nat) {f : Lane → Lane} (hf : P (d.lane n) (f (d.lane n))) :
    P (d.lane m) ((d.onLane n f).lane m) := by
  simp only [lane, onLane, vget_vupd]
  split
  case isTrue h => obtain ⟨rfl, -⟩ := h; exact hf
  case isFalse => exact hP _

theorem lane_of_lanes {d e : Dev} (h : e.lanes = d.lanes) (n : Nat) : e.lane n = d.lane n := by rw [lane, h, lane]

@[simp] theorem readRequests_lane (p a k n : Nat) : (d.readRequests p a k).lane n = d.lane n :=
  lane_of_lanes (readRequests_frame d p a k (π := .lanes) (by decide)) n

theorem startReads_settled (n x m : Nat) : (d.lane m).Settled ((d.startReads n x).lane m) := by
  unfold startReads
  dsimp only
  split
  · split
    · rw [readRequests_lane]
      exact lane_onLane_of d Lane.Settled.refl n m (Lane.Settled.jobUntil ..)
    · exact .refl _
  · exact .refl _

/-- Settling changes of a lane only what `Lane.Settled` names. -/
theorem settle_settled (n m : Nat) : (d.lane m).Settled ((d.settle n).lane m) :=
  (lane_onLane_of d Lane.Settled.refl n m (.settle _)).trans
    ((startReads_settled _ n 0 m).trans ((startReads_settled _ n 1 m).trans (lane_onLane_of _ Lane.Settled.refl n m (.ask ..))))

section
variable (n m x : Nat)

@[simp] theorem settle_st : ((d.settle n).lane m).st = (d.lane m).st := by
  obtain ⟨_, _, _, _, _, h⟩ := d.settle_settled n m; rw [h]
@[simp] theorem settle_regs : ((d.settle n).lane m).regs = (d.lane m).regs := by
  obtain ⟨_, _, _, _, _, h⟩ := d.settle_settled n m; rw [h]
@[simp] theorem settle_units : ((d.settle n).lane m).units = (d.lane m).units := (d.settle_settled n m).units
@[simp] theorem settle_ring0 : ((d.settle n).lane m).ring0 = (d.lane m).ring0 := by
  obtain ⟨_, _, _, _, _, h⟩ := d.settle_settled n m; rw [h]
@[simp] theorem settle_ring : ((d.settle n).lane m).ring x = (d.lane m).ring x := (d.settle_settled n m).ring x
@[simp] theorem settle_cur : (((d.settle n).lane m).ctx x).cur = ((d.lane m).ctx x).cur := by
  obtain ⟨_, _, _, _, _, h⟩ := d.settle_settled n m
  rw [h]
  unfold Lane.ctx
  split <;> rfl
@[simp] theorem settle_job : (((d.settle n).lane m).ctx x).job = ((d.lane m).ctx x).job := by
  obtain ⟨_, _, _, _, _, h⟩ := d.settle_settled n m
  rw [h]
  unfold Lane.ctx
  split <;> rfl

end

/-! Errors, causes, notices and faults of a lane -/

theorem nLanes_le : d.nLanes ≤ 64 := by unfold nLanes; split <;> decide
theorem nCombs_le : d.nCombs ≤ 8 := by unfold nCombs; split <;> decide

section
variable {n : Nat} (x b : Nat) (hn : n < 64)

@[simp] theorem laneNotice_lane (n x m : Nat) : (d.laneNotice n x).lane m = d.lane m :=
  lane_of_lanes (laneNotice_frame d n x (π := .lanes) (by decide)) m
@[simp] theorem logEvent_lane (typ sev m : Nat) (data : List Byte) : (d.logEvent typ sev data).lane m = d.lane m :=
  lane_of_lanes (logEvent_frame d typ sev data (π := .lanes) (by decide)) m
@[simp] theorem laneFault_lane (n x m : Nat) : (d.laneFault n x).lane m = d.lane m :=
  lane_of_lanes (laneFault_frame d n x (π := .lanes) (by decide)) m

include hn

@[simp] theorem onRing_lane (f : RingPair → RingPair) : (d.onRing n x f).lane n = (d.lane n).onRing x f := d.lane_onLane_same _ _ hn
@[simp] theorem onCtx_lane (f : Ctx → Ctx) : (d.onCtx n x f).lane n = (d.lane n).onCtx x f := d.lane_onLane_same _ _ hn
@[simp] theorem laneErr_lane : (d.laneErr n b).lane n = (d.lane n).onRegs fun r => { r with err := setBit r.err b } :=
  d.lane_onLane_same _ _ hn
@[simp] theorem laneIrq_lane : (d.laneIrq n b).lane n = (d.lane n).onRegs fun r => { r with irqStatus := setBit r.irqStatus b } :=
  d.lane_onLane_same _ _ hn

/-- A ring's error bit and the lane's cause for it (R64, R96). -/
@[simp] theorem ringErr_lane : (d.ringErr n x b).lane n =
    ((d.lane n).onRing x fun r => { r with err := setBit r.err b }).onRegs fun r => { r with irqStatus := setBit r.irqStatus 5 } := by
  unfold ringErr
  simp [hn]

end

/-! What is sent stays sent -/

theorem out_subset_send (o : Output) : d.out ⊆ (d.send o).out := List.subset_cons_self ..
theorem mem_out_send (o : Output) : o ∈ (d.send o).out := List.mem_cons_self ..

theorem out_subset_each {α : Type} (xs : List α) {f : Dev → α → Dev} (hf : ∀ e a, e.out ⊆ (f e a).out) : d.out ⊆ (d.each xs f).out := by
  unfold each
  induction xs generalizing d with
  | nil => exact List.Subset.refl _
  | cons a xs ih => exact List.Subset.trans (hf d a) (ih (f d a))

theorem out_subset_msix (p v : Nat) : d.out ⊆ (d.msix p v).out := by
  unfold msix
  dsimp only
  split
  · exact List.Subset.refl _
  · exact out_subset_send ..

theorem out_subset_readRequests (p a k : Nat) : d.out ⊆ (d.readRequests p a k).out :=
  out_subset_each _ _ fun _ _ => out_subset_send ..

theorem out_subset_startReads (n x : Nat) : d.out ⊆ (d.startReads n x).out := by
  unfold startReads
  dsimp only
  split
  · split
    · exact out_subset_readRequests (d.onCtx n x _) ..
    · exact List.Subset.refl _
  · exact List.Subset.refl _

theorem out_subset_settle (n : Nat) : d.out ⊆ (d.settle n).out :=
  List.Subset.trans (out_subset_startReads (d.onLane n Lane.settle) n 0) (out_subset_startReads _ n 1)

theorem out_subset_sendUdp (p i typ seq : Nat) (body : List Byte) : d.out ⊆ (d.sendUdp p i typ seq body).out := by
  unfold sendUdp
  dsimp only
  split
  · exact List.Subset.refl _
  · refine out_subset_each _ _ fun e b => ?_
    split <;> exact out_subset_send ..

theorem out_subset_fillSlot (p s : Nat) (frame : List Byte) : d.out ⊆ (d.fillSlot p s frame).out := by
  unfold fillSlot
  dsimp only
  split
  · exact List.Subset.refl _
  split
  · exact List.Subset.refl _
  split
  · exact out_subset_msix ((d.putWindow ..).onSlot ..) ..
  · exact out_subset_send ((d.putWindow ..).onSlot ..) _

theorem out_subset_answer (p s st : Nat) (body : List Byte) : d.out ⊆ (d.answer p s st body).out := by
  unfold answer deliver
  dsimp only
  split
  · split
    · exact out_subset_sendUdp (d.onSess ..) ..
    · exact List.Subset.refl _
  split
  · exact out_subset_fillSlot ..
  · exact List.Subset.refl _

theorem out_subset_finish (w : WaitFor) (body : List Byte → List Byte) : d.out ⊆ (d.finish w body).out := by
  unfold finish
  exact out_subset_each { d with waits := d.waits.filter fun c => !(c.for_ == w) } _ fun _ _ => out_subset_answer ..

end Dev

end Sys2Proof.Machine

/-! PROOFS. The rings of a lane: doorbells and consumer writes, descriptor reads, completion entries, failed writes and combined
messages. -/
namespace Sys2Proof.Machine

/-! Doorbells and consumer writes (R64, R65) -/

@[simp] theorem Lane.ring_rung (l : Lane) (x v clk : Nat) : (l.rung x v clk).ring x = { l.ring x with inTail := v % 2 ^ 32 } := by
  rw [← Lane.ring_onRing l x fun r => { r with inTail := v % 2 ^ 32 }]
  unfold rung
  dsimp only
  split
  · split <;> rfl
  · rfl

@[simp] theorem Lane.units_rung (l : Lane) (x v clk : Nat) : (l.rung x v clk).units = l.units := by
  rw [← Lane.onRing_units l x fun r => { r with inTail := v % 2 ^ 32 }]
  unfold rung
  dsimp only
  split
  · split <;> rfl
  · rfl

/-- Only a doorbell of ring 1 with a unit parked may do more than move the tail (R94). -/
theorem Lane.rung_eq_onRing (l : Lane) {x : Nat} (v clk : Nat) (h : x = 0 ∨ l.parked = none) :
    l.rung x v clk = l.onRing x fun r => { r with inTail := v % 2 ^ 32 } := by
  unfold rung
  dsimp only
  rw [Lane.onRing_parked]
  rcases h with rfl | h
  · split <;> rfl
  · rw [h]

namespace Dev
variable (d : Dev)

/-- Changes of a lane that agree on it are one. -/
theorem onLane_congr (n : Nat) {f g : Lane → Lane} (h : f (d.lane n) = g (d.lane n)) : d.onLane n f = d.onLane n g := by
  have e : vupd d.lanes n f = vupd d.lanes n g := by
    ext i hi
    by_cases c : i = n
    · subst c
      simpa [vupd, lane, vget, hi] using h
    · simp [vupd, c]
  simp only [onLane, e]

section
variable {p n x : Nat} (hn : n < d.nLanes) (hx : x ≤ 1)

theorem ringWrite_closed (h : ((d.lane n).ring x).valid = false) : d.ringWrite p n x = (false, d) := by simp [ringWrite, h]

include hn hx

theorem ringWrite_owner (h : ((d.lane n).ring x).valid = true) (hp : ((d.lane n).ring x).port = p) : d.ringWrite p n x = (true, d) := by
  simp [ringWrite, h, hp, hn, hx]
theorem ringWrite_other (h : ((d.lane n).ring x).valid = true) (hp : ((d.lane n).ring x).port ≠ p) :
    d.ringWrite p n x = (false, d.ringErr n x 2) := by
  simp [ringWrite, h, hp, hn, hx]

end

end Dev

namespace Dev
variable (d : Dev) {p n x : Nat} (v : Nat) (hn : n < d.nLanes) (hx : x ≤ 1)

/-- A write of a closed context's ring does nothing. -/
theorem ringTail_closed (h : ((d.lane n).ring x).valid = false) : d.ringTail p n x v = d := by simp [ringTail, ringWrite_closed d h]
theorem cmpHeadWrite_closed (h : ((d.lane n).ring x).valid = false) : d.cmpHeadWrite p n x v = d := by
  simp [cmpHeadWrite, ringWrite_closed d h]

include hn hx

section
variable (h : ((d.lane n).ring x).valid = true)
include h

theorem ringTail_other (hp : ((d.lane n).ring x).port ≠ p) : d.ringTail p n x v = d.ringErr n x 2 := by
  simp [ringTail, ringWrite_other d hn hx h hp]
theorem cmpHeadWrite_other (hp : ((d.lane n).ring x).port ≠ p) : d.cmpHeadWrite p n x v = d.ringErr n x 2 := by
  simp [cmpHeadWrite, ringWrite_other d hn hx h hp]

variable (hp : ((d.lane n).ring x).port = p)
include hp

theorem ringTail_taken (hv : idxDiff v ((d.lane n).ring x).inHead ≤ 2 ^ ((d.lane n).ring x).inSize) :
    d.ringTail p n x v = (d.onLane n fun l => l.rung x v d.clk).settle n := by
  simp [ringTail, ringWrite_owner d hn hx h hp, hv]
theorem ringTail_overrun (hv : 2 ^ ((d.lane n).ring x).inSize < idxDiff v ((d.lane n).ring x).inHead) :
    d.ringTail p n x v = d.ringErr n x 0 := by
  simp [ringTail, ringWrite_owner d hn hx h hp, Nat.not_le.mpr hv]

theorem cmpHeadWrite_taken (hv : idxDiff ((d.lane n).ring x).cmpTail v ≤ 2 ^ ((d.lane n).ring x).cmpSize) :
    d.cmpHeadWrite p n x v = (d.onRing n x fun r => { r with cmpHead := v % 2 ^ 32 }).settle n := by
  simp [cmpHeadWrite, ringWrite_owner d hn hx h hp, hv]
theorem cmpHeadWrite_overrun (hv : 2 ^ ((d.lane n).ring x).cmpSize < idxDiff ((d.lane n).ring x).cmpTail v) :
    d.cmpHeadWrite p n x v = d.ringErr n x 1 := by
  simp [cmpHeadWrite, ringWrite_owner d hn hx h hp, Nat.not_le.mpr hv]

end

end Dev

/-! Descriptor reads (R54 to R56, R58, R59) -/

namespace Lane
variable (l : Lane) (x : Nat) (c : Desc)

/-- The checks of a descriptor's type and direction (R56). -/
theorem descCheck_type (h1 : c.typ ≠ 1) (h2 : c.typ ≠ 2) : l.descCheck x c = some .badDescType := by
  simp [descCheck, firstBad, h1, h2]
theorem descCheck_seal_direction (h : c.typ = 1) (hd : (l.ctx x).dir ≠ .seal) : l.descCheck x c = some .wrongDirection := by
  simp [descCheck, firstBad, h, hd]
theorem descCheck_verify_direction (h : c.typ = 2) (hd : (l.ctx x).dir = .seal) : l.descCheck x c = some .wrongDirection := by
  simp [descCheck, firstBad, h, hd]

end Lane

namespace Dev
variable (d : Dev) (n x : Nat)

/-- The device once lane `n` has read the next descriptor of ring `x` (R55). -/
def descTaken : Dev := (d.onLane n fun l => l.granted (3 + x)).onRing n x fun r => { r with inHead := idxAdd r.inHead 1 }

@[simp] theorem descTaken_lane (hn : n < 64) :
    (d.descTaken n x).lane n = ((d.lane n).granted (3 + x)).onRing x fun r => { r with inHead := idxAdd r.inHead 1 } := by
  simp [descTaken, hn]

section
variable {n x} (bs : List Byte) (hn : n < d.nLanes) (hx : x ≤ 1) (h : (d.lane n).mayRead x = true)
include hn hx h

theorem readDesc_failed : d.readDesc n x bs false = (d.onRing n x fun r => { r with dead := true }).ringErr n x 3 := by
  simp [readDesc, hn, hx, h]

variable {c : Desc} (hc : c = parseDesc bs ((d.lane n).ring x).inHead)
include hc

theorem readDesc_rejected {st : Status} (hs : (d.lane n).descCheck x c = some st) :
    d.readDesc n x bs true =
      if st = .seqExhausted then ((((d.descTaken n x).laneIrq n 4).postError n x c st).settle n).laneIrq n 2
      else (((d.descTaken n x).laneIrq n 4).postError n x c st).settle n := by
  subst hc
  simp [readDesc, hn, hx, h, hs, descTaken]

theorem readDesc_seal (hs : (d.lane n).descCheck x c = none) (ht : c.typ = 1) :
    d.readDesc n x bs true = (d.descTaken n x).onCtx n x fun k => { k with cur := some { desc := c } } := by
  subst hc
  simp [readDesc, hn, hx, h, hs, ht, descTaken]

theorem readDesc_verify (hs : (d.lane n).descCheck x c = none) (ht : c.typ ≠ 1) :
    d.readDesc n x bs true =
      ((d.descTaken n x).onCtx n x fun k => { k with job := some c, jobFailed := false, jobUntil := 0, jobAt := 0 }).settle n := by
  subst hc
  simp [readDesc, hn, hx, h, hs, ht, descTaken]

end

@[simp] theorem postError_lane {n : Nat} (x : Nat) (c : Desc) (st : Status) (hn : n < 64) : (d.postError n x c st).lane n =
    (d.lane n).onRing x fun r =>
      { r with posts := r.posts ++ [{ entry := entryBytes 4 st.code c.index 0 0 0 c.payloadLen c.cookie [], irq := true }] } := by
  simp [postError, queuePost, hn]

/-- A descriptor that fails a check is consumed, and its ERROR entry queued; the context has taken nothing (R56, R59). -/
theorem readDesc_rejected_lane {n x : Nat} {bs : List Byte} {c : Desc} {st : Status} (hn : n < d.nLanes) (hx : x ≤ 1)
    (h : (d.lane n).mayRead x = true) (hc : c = parseDesc bs ((d.lane n).ring x).inHead) (hs : (d.lane n).descCheck x c = some st) :
    let l := d.lane n; let m := (d.readDesc n x bs true).lane n
    (m.ring x).inHead = idxAdd (l.ring x).inHead 1 ∧ flag m.regs.irqStatus 4 = true
      ∧ (m.ring x).posts = (l.ring x).posts ++
          [{ entry := entryBytes 4 st.code c.index 0 0 0 c.payloadLen c.cookie [], irq := true }]
      ∧ (m.ctx x).cur = (l.ctx x).cur ∧ (m.ctx x).job = (l.ctx x).job := by
  have hn' : n < 64 := Nat.lt_of_lt_of_le hn d.nLanes_le
  rw [readDesc_rejected d bs hn hx h hc hs]
  split <;> simp [hn', flag_setBit_of]

end Dev

end Sys2Proof.Machine

/-! PROOFS. Completion entries: a posted entry goes out, leaves its queue and moves its ring's tail; a unit's token and discharge; a
segment ahead of its SEALED entry. -/
namespace Sys2Proof.Machine

namespace Lane
variable (l : Lane) (seq : Nat) (f : MediaUnit → MediaUnit) (x : Nat)

@[simp] theorem onUnit_ring : (l.onUnit seq f).ring x = l.ring x := rfl
@[simp] theorem onUnit_ring0 : (l.onUnit seq f).ring0 = l.ring0 := rfl
@[simp] theorem onUnit_ctx0 : (l.onUnit seq f).ctx0 = l.ctx0 := rfl
@[simp] theorem onUnit_units : (l.onUnit seq f).units = l.units.map fun u => if u.seq = seq then f u else u := rfl

theorem mayPost_iff {p : Post} {rest : List Post} (h : (l.ring x).posts = p :: rest) :
    l.mayPost x = true ↔ (l.ring x).flows = true ∧ l.runs = true ∧ 1 + p.conts.length ≤ (l.ring x).room := by
  simp [mayPost, h, and_assoc]

theorem runs_of (h : l.st = .active ∨ l.st = .drain) : l.runs = true := by simp [runs, h]

theorem discharge_units : l.discharge.units = l.units.filter fun u => !u.taken l.ctx0.policy := (Settled.settle _).units
theorem discharge_ring : l.discharge.ring x = l.ring x := (Settled.settle _).ring x

/-- Where the ring is a stream's only destination, an appended unit leaves the custody table as its SEALED entry is posted (R21). -/
theorem discharge_of_ringTook (h : l.ctx0.policy = .host) {u : MediaUnit}
    (hu : u ∈ ((l.onUnit seq fun u => { u with ringTook := true }).discharge).units) (hs : u.seq = seq) : u.st ≠ .appended := by
  simp only [discharge_units, onUnit_units, onUnit_ctx0, h, List.mem_filter, List.mem_map] at hu
  obtain ⟨⟨v, -, rfl⟩, kept⟩ := hu
  split at hs
  case isTrue e => simpa [e, MediaUnit.taken] using kept
  case isFalse e => exact absurd hs e

end Lane

namespace Dev
variable (d : Dev)

/-- An entry goes out with its continuation entries, and the message that follows it (R60, R62, R94). -/
def entrySent (d : Dev) (r : RingPair) (p : Post) : Dev :=
  let slot := fun i => r.cmpBase + (idxAdd r.cmpTail i) % 2 ^ r.cmpSize * 64
  let d := d.each p.conts.zipIdx fun d c => d.send (.hostWrite r.port (slot (c.2 + 1)) c.1)
  let d := d.send (.hostWrite r.port (slot 0) (p.entry.set 1 (u8 (phaseOf r.cmpTail r.cmpSize))))
  if p.irq && r.coalTime = 0 then d.msix r.port r.msix else d

/-- It leaves the queue of its ring, whose tail moves behind it (R61, R63). -/
def putEntry (d : Dev) (n x : Nat) (r : RingPair) (p : Post) (rest : List Post) : Dev :=
  let d := d.entrySent r p
  (d.onLane n fun l => l.granted (5 + x)).onRing n x fun r =>
    { r with posts := rest, cmpTail := idxAdd r.cmpTail (1 + p.conts.length),
             coalAt := if p.irq && r.coalTime != 0 && r.coalAt.isNone then some (d.clk + r.coalTime * 1000) else r.coalAt }

section
variable {n x : Nat} {p : Post} {rest : List Post} (hp : ((d.lane n).ring x).posts = p :: rest)
include hp

theorem postEntry_held (h : (d.lane n).mayPost x = false) : d.postEntry n x = d := by
  simp [postEntry, hp, h]

variable (h : (d.lane n).mayPost x = true) (he : p.ends = none)
include h he

theorem postEntry_accept (ht : numAt p.entry 0 1 = 1) : d.postEntry n x =
    ((d.putEntry n x ((d.lane n).ring x) p rest).onLane n fun l => l.onUnit p.seq fun u => { u with tokenPosted := true }).settle n := by
  simp [postEntry, hp, h, he, ht, putEntry, entrySent]

theorem postEntry_sealed (ht : numAt p.entry 0 1 = 2) : d.postEntry n x =
    ((((d.writeSegment n p.seq).putEntry n x ((d.lane n).ring x) p rest).onLane n fun l =>
      (l.onUnit p.seq fun u => { u with ringTook := true }).discharge).redelivered n p.seq).settle n := by
  simp [postEntry, hp, h, he, ht, putEntry, entrySent]
end


section
variable (n x : Nat) (r : RingPair) (p : Post) (rest : List Post)

/-- What is sent leaves the lanes. -/
@[simp] theorem send_lane (o : Output) : (d.send o).lane n = d.lane n := rfl
@[simp] theorem each_send_lane {α : Type} (xs : List α) (g : α → Output) : (d.each xs fun d c => d.send (g c)).lane n = d.lane n :=
  lane_of_lanes (get_each (p := .lanes) d xs (fun d c => d.send (g c)) fun _ _ => rfl) n
@[simp] theorem msix_lane (q v : Nat) : (d.msix q v).lane n = d.lane n := lane_of_lanes (msix_frame d q v (π := .lanes) (by decide)) n
@[simp] theorem entrySent_lane : (d.entrySent r p).lane n = d.lane n := by
  unfold entrySent
  dsimp only
  split <;> simp

theorem entrySent_sends : Output.hostWrite r.port (r.cmpBase + idxAdd r.cmpTail 0 % 2 ^ r.cmpSize * 64)
    (p.entry.set 1 (u8 (phaseOf r.cmpTail r.cmpSize))) ∈ (d.entrySent r p).out := by
  unfold entrySent
  dsimp only
  split
  · exact out_subset_msix _ _ _ (mem_out_send ..)
  · exact mem_out_send ..

theorem out_subset_entrySent : d.out ⊆ (d.entrySent r p).out := by
  have continued : ∀ (g : List Byte × Nat → Output) (o : Output), d.out ⊆ ((d.each p.conts.zipIdx fun d c => d.send (g c)).send o).out :=
    fun g o => List.Subset.trans (d.out_subset_each _ fun _ _ => out_subset_send ..) (out_subset_send ..)
  unfold entrySent
  dsimp only
  split
  · exact List.Subset.trans (continued _ _) (out_subset_msix ..)
  · exact continued _ _

@[simp] theorem putEntry_out : (d.putEntry n x r p rest).out = (d.entrySent r p).out := rfl
theorem putEntry_lane (hn : n < 64) : (d.putEntry n x r p rest).lane n = ((d.lane n).granted (5 + x)).onRing x fun q =>
    { q with posts := rest, cmpTail := idxAdd q.cmpTail (1 + p.conts.length),
             coalAt :=
               if p.irq && q.coalTime != 0 && q.coalAt.isNone then some ((d.entrySent r p).clk + q.coalTime * 1000) else q.coalAt } := by
  unfold putEntry
  dsimp only
  rw [onRing_lane _ _ hn, lane_onLane_same _ _ _ hn, entrySent_lane]

end

/-! A segment ahead of its SEALED entry (R59, R65), and the end of a redelivery (R303) -/

section
variable (n seq : Nat)

theorem writeSegment_cases : d.writeSegment n seq = d ∨ ∃ o, d.writeSegment n seq =
    (d.onLane n fun l => l.onUnit seq fun u => { u with written := true }).send o := by
  unfold writeSegment
  dsimp only
  split
  · split
    · exact .inl rfl
    · exact .inr ⟨_, rfl⟩
  · exact .inl rfl

theorem writeSegment_sends {u : MediaUnit} (hu : ((d.lane n).units.find? fun u => u.seq == seq) = some u) (hw : u.written = false)
    (h : (d.lane n).ctx0.policy = .host) :
    Output.hostWrite (d.lane n).ring0.port u.desc.outputAddr u.segment ∈ (d.writeSegment n seq).out := by
  have writes : ¬ ((d.lane n).ctx0.policy = .storeOnly || u.written) = true := by simp [h, hw]
  unfold writeSegment
  dsimp only
  rw [hu]
  dsimp only
  rw [if_neg writes]
  exact mem_out_send ..

theorem writeSegment_ctx0 (hn : n < 64) : ((d.writeSegment n seq).lane n).ctx0 = (d.lane n).ctx0 := by
  obtain h | ⟨o, h⟩ := d.writeSegment_cases n seq
  · rw [h]
  · rw [h, send_lane, lane_onLane_same _ _ _ hn]; rfl

theorem redelivered_lane (hn : n < 64) : ((d.redelivered n seq).lane n).units = (d.lane n).units
    ∧ ((d.redelivered n seq).lane n).ring0 = (d.lane n).ring0 := by
  unfold redelivered
  split
  · rw [lane_of_lanes (finish_frame _ _ _ (π := .lanes) (by decide)), lane_onLane_same _ _ _ hn]
    exact ⟨rfl, rfl⟩
  · exact ⟨rfl, rfl⟩

theorem out_subset_redelivered : d.out ⊆ (d.redelivered n seq).out := by
  unfold redelivered
  split
  · exact out_subset_finish (d.onLane n fun l => { l with redeliverTo := none }) _ _
  · exact List.Subset.refl _

end

end Dev

end Sys2Proof.Machine

/-! PROOFS. What a completion entry, a failed write and a combined message leave, and the obligation of the rings. -/
namespace Sys2Proof.Machine

namespace Dev
variable (d : Dev)

section
variable {n x : Nat} {p : Post} {rest : List Post} (hp : ((d.lane n).ring x).posts = p :: rest) (hn : n < 64)
  (h : (d.lane n).mayPost x = true) (he : p.ends = none)
include hp hn h he

/-- A posted ACCEPT entry ends its unit's wait for a token (R17, R61, R63). -/
theorem postEntry_accept_effect (ht : numAt p.entry 0 1 = 1) :
    let r := (d.lane n).ring x; let e := d.postEntry n x
    ((e.lane n).ring x).posts = rest ∧ ((e.lane n).ring x).cmpTail = idxAdd r.cmpTail (1 + p.conts.length)
      ∧ Output.hostWrite r.port (r.cmpBase + idxAdd r.cmpTail 0 % 2 ^ r.cmpSize * 64)
          (p.entry.set 1 (u8 (phaseOf r.cmpTail r.cmpSize))) ∈ e.out
      ∧ ∀ u ∈ (e.lane n).units, u.seq = p.seq → u.tokenPosted = true := by
  dsimp only
  rw [postEntry_accept d hp h he ht]
  have lane := d.putEntry_lane n x ((d.lane n).ring x) p rest hn
  refine ⟨by simp [hn, lane], by simp [hn, lane], out_subset_settle _ _ (d.entrySent_sends ..), fun u hu hs => ?_⟩
  simp only [settle_units, lane_onLane_same _ _ _ hn, Lane.onUnit_units, List.mem_map] at hu
  obtain ⟨v, -, rfl⟩ := hu
  split at hs
  case isTrue e => simp [e]
  case isFalse e => exact absurd hs e

end

/-- A posted SEALED entry of a HOST stream discharges its unit, and is behind the unit's segment (R21, R59, R65). -/
theorem postEntry_sealed_effect {n : Nat} {p : Post} {rest : List Post} (hn : n < 64) (hp : (d.lane n).ring0.posts = p :: rest)
    (h : (d.lane n).mayPost 0 = true) (he : p.ends = none) (ht : numAt p.entry 0 1 = 2) (host : (d.lane n).ctx0.policy = .host) :
    let l := d.lane n; let e := d.postEntry n 0
    (e.lane n).ring0.posts = rest ∧ (∀ u ∈ (e.lane n).units, u.seq = p.seq → u.st ≠ .appended)
      ∧ ∀ u, l.units.find? (fun u => u.seq == p.seq) = some u → u.written = false →
          Output.hostWrite l.ring0.port u.desc.outputAddr u.segment ∈ e.out := by
  dsimp only
  rw [postEntry_sealed d (x := 0) hp h he ht]
  have lane := (d.writeSegment n p.seq).putEntry_lane n 0 ((d.lane n).ring 0) p rest hn
  generalize hf : (d.writeSegment n p.seq).putEntry n 0 ((d.lane n).ring 0) p rest = f at lane ⊢
  obtain ⟨units, ring0⟩ := redelivered_lane
    (f.onLane n fun l => (l.onUnit p.seq fun u => { u with ringTook := true }).discharge) n p.seq hn
  have kept : (d.writeSegment n p.seq).out ⊆ f.out := by rw [← hf]; exact out_subset_entrySent ..
  refine ⟨?_, fun u hu hs => ?_, fun u hu hw => ?_⟩
  · rw [settle_ring0, ring0, lane_onLane_same _ _ _ hn]
    exact (congrArg RingPair.posts (Lane.discharge_ring _ 0)).trans (by simp [lane])
  · rw [settle_units, units, lane_onLane_same _ _ _ hn] at hu
    refine Lane.discharge_of_ringTook _ _ ?_ hu hs
    rw [lane]
    exact (congrArg Ctx.policy (d.writeSegment_ctx0 n p.seq hn)).trans host
  · exact out_subset_settle _ _ (out_subset_redelivered _ _ _ (kept (d.writeSegment_sends n p.seq hu hw host)))

/-! Failed writes (R87) and combined messages (R94) -/

theorem outFault_effect {n x : Nat} (hn : n < 64) (hf : ((d.lane n).ring x).flows = true) (hr : (d.lane n).runs = true) :
    let l := d.lane n; let m := (d.outFault n x).lane n
    (m.ring x).faulted = true ∧ (m.ctx x).stopped = true ∧ flag m.regs.err 3 = true ∧ flag m.regs.irqStatus 1 = true ∧ m.units = l.units := by
  simp [outFault, hf, hr, hn]

theorem coalExpiry_waits {n x t : Nat} (ht : ((d.lane n).ring x).coalAt = some t) (h : d.clk ≤ t ∨ d.power.mode = .close) :
    d.coalExpiry n x = d := by
  have stays : ¬ (d.past t && d.portsSend) = true := by
    rcases h with early | closed
    · simp [past, Nat.not_lt.mpr early]
    · simp [portsSend, closed]
  unfold coalExpiry
  dsimp only
  rw [ht]
  exact if_neg stays

theorem coalExpiry_sends {n x t : Nat} (ht : ((d.lane n).ring x).coalAt = some t) (h : t < d.clk) (hm : d.power.mode ≠ .close) :
    d.coalExpiry n x = (d.msix ((d.lane n).ring x).port ((d.lane n).ring x).msix).onRing n x fun r => { r with coalAt := none } := by
  have goes : (d.past t && d.portsSend) = true := by simp [past, portsSend, h, hm]
  unfold coalExpiry
  dsimp only
  rw [ht]
  exact if_pos goes

/-- A masked vector's message becomes its pending bit; any other goes out (R261). -/
theorem msix_unmasked {p v : Nat} (h : flag (spGet (fun _ => 0#32) (d.port p).pcie.msix (4 * v + 3)) 0 = false) :
    d.msix p v = d.send (.msix p v) := by simp [msix, h]
theorem msix_masked {p v : Nat} (h : flag (spGet (fun _ => 0#32) (d.port p).pcie.msix (4 * v + 3)) 0 = true) :
    (d.msix p v).out = d.out
    ∧ (p < 5 → flag (spGet (fun _ => 0#32) ((d.msix p v).port p).pcie.pba (v / 32)) (v % 32) = true) := by
  unfold msix
  dsimp only
  rw [if_pos h]
  refine ⟨rfl, fun hp => ?_⟩
  rw [port_onPort_same _ _ _ hp]
  simp [Nat.mod_lt]

end Dev

section
variable {s : State} {n x : Nat}

theorem completes_ringInDoorbell {p v : Nat} {P : Dev → Prop} (hc : s.dev.supply.clocks = true) (hP : P (s.dev.ringTail p n x v)) :
    Completes (.ringInDoorbell p n x v) s P := completes_on (exec_ringInDoorbell ..) (by rwa [Dev.clocked_of_running _ _ hc])
theorem completes_ringCmpHeadWrite {p v : Nat} {P : Dev → Prop} (hc : s.dev.supply.clocks = true) (hP : P (s.dev.cmpHeadWrite p n x v)) :
    Completes (.ringCmpHeadWrite p n x v) s P := completes_on (exec_ringCmpHeadWrite ..) (by rwa [Dev.clocked_of_running _ _ hc])

/-- SEAL_UNIT reads a descriptor of any type but VERIFY_ELEMENT, or whose read fails. -/
theorem completes_sealUnit {bs : List Byte} {ok : Bool} {P : Dev → Prop} (h : ok = false ∨ numAt bs 0 1 ≠ 2)
    (hP : P (s.dev.readDesc n x bs ok)) : Completes (.sealUnit n x bs ok) s P := by
  refine completes_on (exec_sealUnit ..) ?_
  rcases h with rfl | h
  · simpa using hP
  · simpa [h] using hP
theorem completes_verifyElement {bs : List Byte} {P : Dev → Prop} (h : numAt bs 0 1 = 2) (hP : P (s.dev.readDesc n x bs true)) :
    Completes (.verifyElement n x bs true) s P := completes_on (exec_verifyElement ..) (by simpa [h] using hP)

/-- Settles O25: each row is one shared operation of the rings, and the lemma of its case says what it leaves. -/
theorem laneRings : Obligations.LaneRings := by
  intro s n x d l r hn hx
  have hn' : n < 64 := Nat.lt_of_lt_of_le hn d.nLanes_le
  refine ⟨fun p v hc => ?_, fun hm => ⟨fun bs => ?_, fun bs c hc => ?_⟩, fun p rest hp hf hr => ?_, fun hf hr => ?_, fun t ht => ?_⟩
  case refine_1 => -- Doorbells and consumer writes.
    refine ⟨fun hv hp hi => completes_ringInDoorbell hc ?_, fun hv hp hi => completes_ringInDoorbell hc ?_,
      fun hv hp hi => completes_ringCmpHeadWrite hc (Dev.cmpHeadWrite_taken d v hn hx hv hp hi),
      fun hv hp hi => completes_ringCmpHeadWrite hc ?_,
      fun hv hp => ⟨completes_ringInDoorbell hc ?_, completes_ringCmpHeadWrite hc ?_⟩,
      fun hv => ⟨completes_ringInDoorbell hc (Dev.ringTail_closed d v hv), completes_ringCmpHeadWrite hc (Dev.cmpHeadWrite_closed d v hv)⟩⟩
    · rw [Dev.ringTail_taken d v hn hx hv hp hi]
      refine ⟨by simp [hn', l, r], by simp [hn', l], fun h => ?_⟩
      exact congrArg (Dev.settle · n) (Dev.onLane_congr d n (Lane.rung_eq_onRing _ _ _ h))
    · rw [Dev.ringTail_overrun d v hn hx hv hp hi]
      simp [hn', l, r]
    · rw [Dev.cmpHeadWrite_overrun d v hn hx hv hp hi]
      simp [hn', l, r]
    · rw [Dev.ringTail_other d v hn hx hv hp]
      simp [hn', l, r]
    · rw [Dev.cmpHeadWrite_other d v hn hx hv hp]
      simp [hn', l, r]
  case refine_2 => -- A descriptor read that fails.
    refine completes_sealUnit (.inl rfl) ?_
    rw [Dev.readDesc_failed d bs hn hx hm]
    simp [hn', l, r]
  case refine_3 => -- A descriptor read: rejected by its type or direction, or taken.
    intro errs
    have typ : numAt bs 0 1 = c.typ := by rw [hc]; rfl
    have rejected : ∀ st, l.descCheck x c = some st → errs st (d.readDesc n x bs true) := fun st hs =>
      Dev.readDesc_rejected_lane d hn hx hm hc hs
    refine ⟨fun h1 h2 => ?_, fun h1 hd => ?_, fun h2 hd => ?_, fun h1 hs => ?_, fun h2 hs => ?_⟩
    · exact completes_sealUnit (.inr (typ ▸ h2)) (rejected _ (l.descCheck_type x c h1 h2))
    · exact completes_sealUnit (.inr (by omega)) (rejected _ (l.descCheck_seal_direction x c h1 hd))
    · exact completes_verifyElement (typ.trans h2) (rejected _ (l.descCheck_verify_direction x c h2 hd))
    · refine completes_sealUnit (.inr (by omega)) ?_
      rw [Dev.readDesc_seal d bs hn hx hm hc hs h1]
      simp [hn', l, r]
    · refine completes_verifyElement (typ.trans h2) ?_
      rw [Dev.readDesc_verify d bs hn hx hm hc hs (by omega)]
      simp [hn', l, r]
  case refine_4 => -- Completion entries: posted while their slots are free.
    have fits : 1 + p.conts.length ≤ r.room → l.mayPost x = true := fun hk => (l.mayPost_iff x hp).mpr ⟨hf, l.runs_of hr, hk⟩
    refine ⟨fun hk he ht => ?_, fun hx0 hk he ht host => ?_, fun hk => ?_⟩
    · exact completes_on (exec_completionEntryPost ..) (Dev.postEntry_accept_effect d hp hn' (fits hk) he ht)
    · subst hx0
      exact completes_on (exec_completionEntryPost ..) (Dev.postEntry_sealed_effect d hn' hp (fits hk) he ht host)
    · have full : l.mayPost x = false := Bool.eq_false_iff.mpr fun h => Nat.not_le.mpr hk ((l.mayPost_iff x hp).mp h).2.2
      exact completes_on (exec_completionEntryPost ..) (Dev.postEntry_held d hp full)
  case refine_5 => -- Failed writes.
    exact completes_on (exec_outputWriteFault ..) (Dev.outFault_effect d hn' hf (l.runs_of hr))
  case refine_6 => -- Combined messages.
    refine ⟨fun h hcl => completes_on (exec_coalTimeExpiry ..) ?_, fun h => completes_on (exec_coalTimeExpiry ..) (Dev.coalExpiry_waits d ht h)⟩
    rw [Dev.coalExpiry_sends d ht h hcl]
    exact ⟨by simp [hn'], fun hu => congrArg Dev.out (Dev.msix_unmasked d hu), fun hk => Dev.msix_masked d hk⟩

end

end Sys2Proof.Machine

/-! PROOFS. Drain and reset of a lane, the comb clocks, and their obligation. -/
namespace Sys2Proof.Machine

namespace Lane
variable (l : Lane)

@[simp] theorem stopIntake_units : (l.stopIntake 0).units = l.units := by
  unfold stopIntake
  split <;> simp
@[simp] theorem stopIntake_cur : ((l.stopIntake 0).ctx 0).cur = none := by
  unfold stopIntake
  split
  case h_1 => simp
  case h_2 h => exact h

/-- A lane that has left its stream's or its drain's state rests in OFF, IDLE or ACTIVE (R90). -/
theorem rest_st : l.rest.st =
    if l.ctx0.dir = .closed ∧ l.ctx1.dir = .closed then (if l.regs.en then .idle else .off) else .active := by
  simp [rest]
theorem rest_st_ne_drain : l.rest.st ≠ .drain := by
  rw [rest_st]
  split
  · split <;> decide
  · decide
theorem rest_st_ne_off (h : l.regs.en = true) : l.rest.st ≠ .off := by
  rw [rest_st, if_pos h]
  split <;> decide
theorem rest_st_open (h : l.ctx0.dir ≠ .closed) : l.rest.st = .active := by rw [rest_st, if_neg fun c => h c.1]

/-- The condition of a lane reset (R91). -/
theorem resettable_iff : l.resettable = true ↔ l.units = [] ∧ l.ctx0.dir = .closed ∧ l.ctx1.dir = .closed := by
  simp [resettable, and_assoc]

end Lane

namespace Dev
variable (d : Dev)

theorem byCore_closed (f : Dev → Dev) (h : d.power.mode = .close) : d.byCore f = d := by simp [byCore, h]
theorem byCore_running (f : Dev → Dev) (hc : d.supply.clocks = true) (h : d.power.mode ≠ .close) : d.byCore f = f d := by
  simp [byCore, hc, h]

section
variable {n : Nat}

theorem drain_dropped (h : (d.lane n).st ≠ .active) : d.drain n = d := by simp [drain, h]

theorem drain_effect (hn : n < 64) (h : (d.lane n).st = .active) (he : (d.lane n).ctx0.dir ≠ .seal ∨ (d.lane n).stream.ended = false) :
    let m := (d.drain n).lane n
    m.st = .drain ∧ m.regs.drain = true ∧ (m.ctx 0).cur = none ∧ m.units = (d.lane n).units := by
  have taken : ((d.lane n).st = .active && !(decide ((d.lane n).ctx0.dir = .seal) && (d.lane n).stream.ended)) = true := by
    rcases he with he | he <;> simp [h, he]
  simp only [drain, taken, if_true]
  refine ⟨by simp [hn], by simp [hn], ?_, by simp [hn]⟩
  rw [settle_cur, lane_onLane_same _ _ _ hn]
  exact (d.lane n).stopIntake_cur

theorem drainEnds_lane (hn : n < 64) : (d.drainEnds n).lane n =
    ((d.lane n).onRegs fun r => { r with drain := false }).rest.onRegs fun r => { r with irqStatus := setBit r.irqStatus 0 } := by
  simp only [drainEnds, laneIrq_lane _ _ hn, lane_onLane_same _ _ _ hn]
  rfl

theorem laneReset_effect (hn : n < 64) (h : (d.lane n).resettable = true) : (d.laneReset n).lane n = (d.lane n).afterReset := by
  simp [laneReset, h, hn]
theorem laneReset_refused (hn : n < 64) (h : (d.lane n).resettable = false) :
    (d.laneReset n).lane n = (d.lane n).onRegs fun r => { r with err := setBit r.err 1 } := by
  simp [laneReset, h, hn]

end

/-! Comb clocks (R218) -/

/-- What the clock of its comb does to a lane. -/
def clockLane (on : Bool) (l : Lane) : Lane :=
  if on then (if l.regs.en && decide (l.st = .off) then l.rest else l)
  else if l.st = .frozen || l.st = .schuss then l else { l with st := .off }

/-- Lanes updated one after another, each once. -/
theorem lane_each_onLane (f : Lane → Lane) (k : Nat) {is : List Nat} (once : is.Nodup) {m : Nat} (hm : m < 64) :
    (d.each is fun d i => d.onLane (k + i) f).lane m = if ∃ i ∈ is, k + i = m then f (d.lane m) else d.lane m := by
  unfold each
  induction is generalizing d with
  | nil => simp
  | cons i is ih =>
    obtain ⟨fresh, once⟩ := List.nodup_cons.mp once
    rw [List.foldl_cons, ih _ once]
    by_cases h : k + i = m
    · have later : ¬ ∃ j ∈ is, k + j = m := fun ⟨j, hj, e⟩ => fresh ((Nat.add_left_cancel (e.trans h.symm)) ▸ hj)
      rw [if_neg later, if_pos ⟨i, List.mem_cons_self, h⟩, h, lane_onLane_same _ _ _ hm]
    · simp [h, lane_onLane_ne]

theorem combClock_lane {c : Nat} (on : Bool) {m : Nat} (hm : m < 64) (h : m / 8 = c) :
    (d.combClock c on).lane m = clockLane on (d.lane m) := by
  have own : ∃ i ∈ List.range 8, 8 * c + i = m := ⟨m % 8, List.mem_range.mpr (Nat.mod_lt _ (by decide)), by omega⟩
  exact (lane_each_onLane (d.onComb c fun b => { b with clkEn := on }) (clockLane on) (8 * c) List.nodup_range hm).trans (if_pos own)

theorem combClock_clkEn {c : Nat} (on : Bool) (hc : c < 8) : ((d.combClock c on).comb c).clkEn = on := by
  have kept : (d.combClock c on).combs = (d.onComb c fun b => { b with clkEn := on }).combs :=
    get_each (p := .combs) _ _ (fun d i => d.onLane (8 * c + i) (clockLane on)) fun _ _ => rfl
  rw [comb, kept]
  exact congrArg Comb.clkEn (d.comb_onComb_same c _ hc)

/-! The four ends of a write of CLK_EN that asks for a change (R96) -/

section
variable {c : Nat} (hc : c < d.nCombs)
include hc

theorem combWrite_starts (h : (d.comb c).clkEn = false) (hm : d.combsOn < d.combsMax) : d.combWrite c true = d.combClock c true := by
  simp [combWrite, Nat.not_le.mpr hc, h, hm]
theorem combWrite_limit (h : (d.comb c).clkEn = false) (hm : d.combsMax ≤ d.combsOn) :
    d.combWrite c true = d.onComb c fun b => { b with modeLimit := true } := by
  simp [combWrite, Nat.not_le.mpr hc, h, Nat.not_lt.mpr hm]
theorem combWrite_used (h : (d.comb c).clkEn = true) (hu : d.combUsed c = true) :
    d.combWrite c false = d.onComb c fun b => { b with clkRefused := true } := by
  simp [combWrite, Nat.not_le.mpr hc, h, hu]
theorem combWrite_gates (h : (d.comb c).clkEn = true) (hu : d.combUsed c = false) : d.combWrite c false = d.combClock c false := by
  simp [combWrite, Nat.not_le.mpr hc, h, hu]

end

/-! The end of a drain (R90, R134, R298) -/

section
variable {n : Nat}

theorem setBody_lane (w : WaitFor) (b : List Byte) (m : Nat) : (d.setBody w b).lane m = d.lane m := rfl

theorem queueStore_lane (hn : n < 64) (kind seq : Nat) (body : List Byte) :
    ∃ q, (d.queueStore n kind seq body).lane n = { d.lane n with storeQ := q } := by
  unfold queueStore
  split
  · exact ⟨_, rfl⟩
  · exact ⟨_, lane_onLane_same _ _ _ hn⟩

theorem postElement_lane (hn : n < 64) (e : List Byte) (ends : Option WaitFor) :
    ∃ ps, (d.postElement n e ends).lane n = { d.lane n with ring0 := { (d.lane n).ring0 with posts := ps } } :=
  ⟨_, onRing_lane _ 0 hn _⟩

/-- An element moves the head and the count of its chain, and waits for its ring and its store (R73, R75). -/
theorem appendElement_lane (hn : n < 64) (kind time : Nat) (body : List Byte) (ends : Option WaitFor) : ∃ ps q,
    (d.appendElement n kind 0 time body ends).lane n = { d.lane n with
      ctx0 := { (d.lane n).ctx0 with
        head := chainNext (d.lane n).ctx0.head (element kind (b2n d.time.servo.uncertain * 4) (d.lane n).ctx0.stream time body)
        elements := (d.lane n).ctx0.elements + 1 }
      ring0 := { (d.lane n).ring0 with posts := ps }, storeQ := q } := by
  simp only [appendElement, Nat.zero_ne_one, if_false, Nat.zero_mul, Nat.add_zero]
  generalize element _ _ _ _ _ = x
  obtain ⟨q, stored⟩ := queueStore_lane (n := n) _ hn kind 0 x
  obtain ⟨ps, posted⟩ := postElement_lane (n := n) _ hn x ends
  rw [onCtx_lane _ _ hn] at posted
  exact ⟨ps, q, stored.trans (by rw [posted]; rfl)⟩

theorem appendClose_lane (hn : n < 64) (reason : Nat) : ∃ ps q,
    (d.appendClose n reason 0).lane n = { d.lane n with
      ctx0 := { (d.lane n).ctx0 with
        head := chainNext (d.lane n).ctx0.head (element 4 (b2n d.time.servo.uncertain * 4) (d.lane n).ctx0.stream d.now
          (closeBody (d.lane n).ctx0.lastSeq (d.lane n).ctx0.elements reason (d.lane n).ctx0.head))
        elements := (d.lane n).ctx0.elements + 1 }
      ring0 := { (d.lane n).ring0 with posts := ps }, storeQ := q, stream := { (d.lane n).stream with ended := true } } := by
  obtain ⟨ps, q, h⟩ := d.appendElement_lane hn 4 d.now
    (closeBody (d.lane n).ctx0.lastSeq (d.lane n).ctx0.elements reason (d.lane n).ctx0.head) (some (.closed n))
  refine ⟨ps, q, ?_⟩
  rw [appendClose, lane_onLane_same _ _ _ hn, h]

theorem drainComplete_unsealed (h : (d.lane n).st = .drain) (hd : (d.lane n).ctx0.dir ≠ .seal) : d.drainComplete n = d.drainEnds n := by
  simp [drainComplete, h, hd]

/-- The drain of a seal stream stands until STREAM_CLOSE has come and nothing is owed. -/
theorem drainComplete_stands (hd : (d.lane n).ctx0.dir = .seal)
    (h : (d.lane n).stream.closing = false ∨ (d.lane n).units ≠ [] ∨ (d.lane n).caps ≠ []) : d.drainComplete n = d := by
  have owed : ((d.lane n).drained && (d.lane n).stream.closing) = false := by
    rcases h with h | h | h <;> simp [Lane.drained, h]
  simp [drainComplete, hd, owed]

/-- The drain that may end does so with the CLOSE element, under the reason that the sequence numbers give (R134). -/
theorem drainComplete_closes (h : (d.lane n).st = .drain) (hd : (d.lane n).ctx0.dir = .seal) (hu : (d.lane n).units = [])
    (hcap : (d.lane n).caps = []) (hcl : (d.lane n).stream.closing = true) (hen : (d.lane n).stream.ended = false)
    (hb : d.boundaryDue n = false) :
    (d.drainComplete n).lane n = ((d.appendClose n (if 0xFFFFFFFFFFFF < (d.lane n).ctx0.nextSeq then 3 else 1) 0).drainEnds n).lane n := by
  have mayEnd : (!((d.lane n).drained && (d.lane n).stream.closing) || (d.lane n).stream.ended || d.boundaryDue n) = false := by
    simp [Lane.drained, hu, hcap, hcl, hen, hb]
  simp only [drainComplete, h, hd, mayEnd, ne_eq, not_true_eq_false, if_false, Bool.false_eq_true, setBody_lane]

end

end Dev

/-! The rows and the obligation -/

section
variable {s : State}

/-- A core's writes of DRAIN, LANE_RESET and CLK_EN take effect outside a close only (R231). -/
theorem coreWrites_closed (h : s.dev.power.mode = .close) (n c : Nat) (on : Bool) :
    Completes (.laneDrain n) s (fun e => e = s.dev) ∧ Completes (.laneReset n) s (fun e => e = s.dev)
      ∧ Completes (.combClkEnWrite c on) s fun e => e = s.dev :=
  ⟨completes_on (exec_laneDrain ..) (Dev.byCore_closed _ _ h), completes_on (exec_laneReset ..) (Dev.byCore_closed _ _ h),
    completes_on (exec_combClkEnWrite ..) (Dev.byCore_closed _ _ h)⟩

variable {P : Dev → Prop} (hc : s.dev.supply.clocks = true) (h : s.dev.power.mode ≠ .close)
include hc h

theorem completes_laneDrain {n : Nat} (hP : P (s.dev.drain n)) : Completes (.laneDrain n) s P :=
  completes_on (exec_laneDrain ..) (by rwa [Dev.byCore_running _ _ hc h])
theorem completes_laneReset {n : Nat} (hP : P (s.dev.laneReset n)) : Completes (.laneReset n) s P :=
  completes_on (exec_laneReset ..) (by rwa [Dev.byCore_running _ _ hc h])
theorem completes_combClkEnWrite {c : Nat} {on : Bool} (hP : P (s.dev.combWrite c on)) : Completes (.combClkEnWrite c on) s P :=
  completes_on (exec_combClkEnWrite ..) (by rwa [Dev.byCore_running _ _ hc h])

end

/-- Settles O27: each clause is one branch of a core's write or of the drain's end, and the lemma of the branch says what it leaves
of the lane. -/
theorem laneControl : Obligations.LaneControl := by
  intro s d hc
  refine ⟨fun h n c on => coreWrites_closed h n c on, fun n => ?_, fun c hcn hm =>
    ⟨fun h hmax => ?_, fun h hmax => ?_, fun h hu => ?_, fun h hu => ?_⟩⟩
  · intro l hn hm
    have hn' : n < 64 := Nat.lt_of_lt_of_le hn d.nLanes_le
    refine ⟨fun ha he => ?_, fun ha => ?_, fun hd hs => ?_, fun hd hu hcap hen hs hb hcl => ?_,
      fun hs h => ?_, fun hu h0 h1 => ?_, fun h => ?_⟩
    · exact completes_laneDrain hc hm (Dev.drain_effect d hn' ha he)
    · exact completes_laneDrain hc hm (by rw [Dev.drain_dropped d ha])
    · refine completes_on (exec_drainComplete ..) ?_
      rw [Dev.drainComplete_unsealed d hd hs, Dev.drainEnds_lane d hn']
      exact ⟨Lane.rest_st_ne_drain _, rfl, flag_setBit_same _ _ (by decide)⟩
    · refine completes_on (exec_drainComplete ..) ?_
      rw [Dev.drainComplete_closes d hd hs hu hcap hcl hen hb, Dev.drainEnds_lane _ hn']
      obtain ⟨ps, q, closed⟩ := d.appendClose_lane hn' (if 0xFFFFFFFFFFFF < l.ctx0.nextSeq then 3 else 1)
      rw [closed]
      have sealing : l.ctx0.dir ≠ .closed := by rw [hs]; decide
      exact ⟨rfl, rfl, Lane.rest_st_open _ sealing, flag_setBit_same _ _ (by decide), rfl, rfl⟩
    · exact completes_on (exec_drainComplete ..) (Dev.drainComplete_stands d hs h)
    · exact completes_laneReset hc hm (Dev.laneReset_effect d hn' (l.resettable_iff.mpr ⟨hu, h0, h1⟩))
    · have held : l.resettable = false := Bool.eq_false_iff.mpr fun free => by
        obtain ⟨hu, h0, h1⟩ := l.resettable_iff.mp free
        simp [hu, h0, h1] at h
      refine completes_laneReset hc hm ?_
      rw [Dev.laneReset_refused d hn' held]
      exact ⟨flag_setBit_same _ _ (by decide), rfl, rfl⟩
  all_goals have hc8 : c < 8 := Nat.lt_of_lt_of_le hcn d.nCombs_le
  · refine completes_combClkEnWrite hc hm ?_
    rw [Dev.combWrite_starts d hcn h hmax]
    refine ⟨Dev.combClock_clkEn d true hc8, fun n hn hen hoff => ?_⟩
    rw [Dev.combClock_lane d true (by omega) hn]
    simpa [Dev.clockLane, hen, hoff] using Lane.rest_st_ne_off _ hen
  · refine completes_combClkEnWrite hc hm ?_
    rw [Dev.combWrite_limit d hcn h hmax]
    simp [hc8, h]
  · refine completes_combClkEnWrite hc hm ?_
    rw [Dev.combWrite_used d hcn h hu]
    simp [hc8, h]
  · refine completes_combClkEnWrite hc hm ?_
    rw [Dev.combWrite_gates d hcn h hu]
    refine ⟨Dev.combClock_clkEn d false hc8, fun n hn hf hs => ?_⟩
    rw [Dev.combClock_lane d false (by omega) hn]
    simp [Dev.clockLane, hf, hs]

end Sys2Proof.Machine

/-! PROOFS. STREAM_CLOSE may send: the refutation of the obligation of the stream commands. -/
namespace Sys2Proof.Machine

/-- A STREAM_CLOSE frame for the stream 5, as a slot holds it. -/
def closeFrame : List Byte := zeros 6 ++ le 2 0x0102 ++ zeros 8 ++ le 8 5

/-- A lane that seals the stream 5. The fetch of its next unit holds 62 of the 64 pages, so that a verify job of context 1 still
waits for its reservation of 4 (R57). -/
def crowdedLane : Lane :=
  { st := .active
    ctx0 := { dir := .seal, stream := 5, cur := some { st := .fetching, desc := { typ := 1, payloadLen := 62 * 8192 } } }
    ctx1 := { dir := .verifyChain, job := some { typ := 2, payloadLen := 512 } }
    ring0 := { valid := true }, ring1 := { valid := true } }

/-- A device in RECORD whose lane 0 is crowded, about to take a STREAM_CLOSE of its stream from slot 0 of P0. -/
def crowdedDev : Dev :=
  { supply := { clocks := true }
    power := { mode := .record, startStep := .done, bootDone := true }
    life := { st := .fleet }
    lanes := (Vector.replicate 64 {}).set 0 crowdedLane
    portsCfg := { arrivals := [(0, 0)] }
    ports := Vector.replicate 5 { sess := Vector.replicate 8 { st := .active, role := .operator }
                                  mbx := { slots := Vector.replicate 4 { st := .busy, req := closeFrame } } } }

theorem crowdedDev_takes : crowdedDev.takes 0x0102 0 0 (le 8 5) := by decide +kernel
theorem crowdedDev_laneOf : crowdedDev.laneOf (numAt (le 8 5) 0 8) = some 0 := by decide +kernel

/-- The drain gives up the fetch with its pages, the engine takes the verify job, and the job's reads go out (R57, R82, R86). -/
theorem crowdedDev_streamClose_reads :
    Completes (.streamClose 0 0) { dev := crowdedDev } fun e => e.out = [.hostRead 0 0 512] :=
  completes_of_takes crowdedDev_takes (exec_streamClose ..) (by decide +kernel)

/-- A command completes in one way only: what is known of its end in two ways holds of one device. -/
theorem Completes.both {c : Instr} {s : State} {P Q : Dev → Prop} (hP : Completes c s P) (hQ : Completes c s Q) : ∃ e, P e ∧ Q e := by
  obtain ⟨t, ht, -, hP⟩ := hP
  obtain ⟨u, hu, -, hQ⟩ := hQ
  cases ht.symm.trans hu
  exact ⟨_, hP, hQ⟩

/-- Refutes O47: its clause for STREAM_CLOSE says that the command sends nothing. But the drain gives up the fetch of context 0 with
its pages, they complete the reservation of context 1, and the reads of the verify job that waited for it go out (R57, R82, R86). -/
theorem not_streamCommands : ¬ Obligations.StreamCommands := by
  intro h
  obtain ⟨-, close, -⟩ := h { dev := crowdedDev } 0 0 (le 8 5)
  obtain ⟨-, -, onLane⟩ := close crowdedDev_takes
  obtain ⟨-, onItsPort⟩ := onLane 0 (by decide) crowdedDev_laneOf
  have closes := onItsPort (by decide +kernel)
  obtain ⟨e, ⟨body, unsent, -⟩, reads⟩ := closes.both crowdedDev_streamClose_reads
  rw [unsent] at reads
  cases reads

end Sys2Proof.Machine

/-! PROOFS. The rules of the sealed store's shared operations: what a change of a block leaves of the others, what dies that take their
next pages change, and what an erase, a retirement and the journal leave of the queue and of the blocks' read pins. -/
namespace Sys2Proof.Machine

/-- What every step of an iteration leaves as it was, the iteration leaves. -/
theorem Dev.each_keeps {α β : Type} (g : Dev → β) {f : Dev → α → Dev} (hf : ∀ e a, g (f e a) = g e) (xs : List α) (d : Dev) :
    g (d.each xs f) = g d := by
  induction xs generalizing d with
  | nil => rfl
  | cons x xs ih => exact (ih _).trans (hf d x)

namespace Dev
variable (d : Dev)

/-! Blocks -/

theorem blk_of_blocks {d e : Dev} (hv : e.variant = d.variant) (hb : e.store.blocks = d.store.blocks) (b : Nat) : e.blk b = d.blk b := by
  rw [blk, hv, hb, blk]

section
variable (b : Nat) (f : Block → Block)

@[simp] theorem blk_onBlk_same : (d.onBlk b f).blk b = f (d.blk b) := by simp [blk, onBlk]
theorem blk_onBlk_ne {b k : Nat} (h : b ≠ k) : (d.onBlk b f).blk k = d.blk k := by simp [blk, onBlk, spGet_spSet_ne _ _ _ h]
theorem blk_onBlk (k : Nat) : (d.onBlk b f).blk k = if b = k then f (d.blk k) else d.blk k := by
  split
  case isTrue h => rw [← h, blk_onBlk_same]
  case isFalse h => exact blk_onBlk_ne d f h

end

theorem blk_eraseBlock_same (b : Nat) : (d.eraseBlock b).blk b =
    { region := (d.blk b).region, fast := (d.blk b).fast, ecnt := (d.blk b).ecnt, erased := false, erasing := true } :=
  blk_onBlk_same ..

/-- An event leaves the store. -/
@[simp] theorem logEvent_store (t s : Nat) (bs : List Byte) : (d.logEvent t s bs).store = d.store :=
  logEvent_frame d t s bs (π := .store) (by decide)

/-! Page programs begin (R202) -/

/-- The pending pages apart from which of them the dies program. -/
def unstarted (js : List PageJob) : List PageJob := js.map fun j => { j with started := false }

/-- A die that takes its next page changes only which pages are being programmed. -/
theorem serveDie_starts (die : Nat) : ∃ ps, d.serveDie die = d.onStore (fun s => { s with pages := ps })
    ∧ unstarted ps = unstarted d.store.pages := by
  unfold serveDie
  dsimp only
  split
  · exact ⟨_, rfl, rfl⟩
  split
  · exact ⟨_, rfl, rfl⟩
  split
  · exact ⟨_, rfl, rfl⟩
  · refine ⟨_, rfl, ?_⟩
    simp only [unstarted, List.map_map]
    refine List.map_congr_left fun q _ => ?_
    simp only [Function.comp]
    split <;> rfl

theorem each_serveDie_starts (dies : List Nat) : ∃ ps, d.each dies serveDie = d.onStore (fun s => { s with pages := ps })
    ∧ unstarted ps = unstarted d.store.pages := by
  induction dies generalizing d with
  | nil => exact ⟨_, rfl, rfl⟩
  | cons die dies ih =>
    obtain ⟨ps, first, same⟩ := d.serveDie_starts die
    obtain ⟨qs, others, same'⟩ := ih (d.serveDie die)
    exact ⟨qs, others.trans (by rw [first]; rfl), same'.trans (by rw [first]; exact same)⟩

/-- Pages that join the pending ones change of the store only the pending pages. -/
theorem enqueue_starts (js : List PageJob) : ∃ ps, d.enqueue js = d.onStore (fun s => { s with pages := ps })
    ∧ unstarted ps = unstarted (d.store.pages ++ js) :=
  each_serveDie_starts _ _

section
variable (js : List PageJob)

theorem enqueue_pages : unstarted (d.enqueue js).store.pages = unstarted (d.store.pages ++ js) := by
  obtain ⟨ps, queued, same⟩ := d.enqueue_starts js
  rw [queued]
  exact same

@[simp] theorem enqueue_queue : (d.enqueue js).store.queue = d.store.queue := by
  obtain ⟨ps, queued, -⟩ := d.enqueue_starts js
  rw [queued, onStore_store]

@[simp] theorem enqueue_blk (b : Nat) : (d.enqueue js).blk b = d.blk b := by
  obtain ⟨ps, queued, -⟩ := d.enqueue_starts js
  rw [queued]
  rfl

end

end Dev

/-! Retirement and erases pin no block for a READ -/

/-- `e` has the descriptor queue of `d`, and no READ pins a block in `e` that none pins in `d`. -/
def Dev.PinsNone (d e : Dev) : Prop := e.store.queue = d.store.queue ∧ ∀ k, (d.blk k).readPins = 0 → (e.blk k).readPins = 0

namespace Dev.PinsNone
variable {d e e' : Dev}

theorem refl (d : Dev) : d.PinsNone d := ⟨rfl, fun _ h => h⟩
theorem trans (h : d.PinsNone e) (h' : e.PinsNone e') : d.PinsNone e' := ⟨h'.1.trans h.1, fun k hk => h'.2 k (h.2 k hk)⟩
theorem ite {c : Prop} [Decidable c] (h : d.PinsNone e) (h' : d.PinsNone e') : d.PinsNone (if c then e else e') := by split <;> assumption

/-- A change of the store apart from its queue and blocks. -/
theorem of_blocks (hv : e.variant = d.variant) (hq : e.store.queue = d.store.queue) (hb : e.store.blocks = d.store.blocks) :
    d.PinsNone e := ⟨hq, fun k hk => by rwa [blk_of_blocks hv hb]⟩

variable (h : d.PinsNone e)
include h

theorem onBlk {b : Nat} {f : Block → Block} (hf : ∀ q, q.readPins = 0 → (f q).readPins = 0) : d.PinsNone (e.onBlk b f) :=
  h.trans ⟨rfl, fun k hk => by
    rw [blk_onBlk]
    split
    case isTrue => exact hf _ hk
    case isFalse => exact hk⟩

theorem logEvent (t s : Nat) (bs : List Byte) : d.PinsNone (e.logEvent t s bs) :=
  h.trans (of_blocks (logEvent_frame e t s bs (π := .variant) (by decide)) (by rw [logEvent_store]) (by rw [logEvent_store]))

theorem onStore {f : Store → Store} (hq : (f e.store).queue = e.store.queue) (hb : (f e.store).blocks = e.store.blocks) :
    d.PinsNone (e.onStore f) := h.trans (of_blocks rfl hq hb)

theorem storeErr (n : Nat) : d.PinsNone (e.storeErr n) := h.onStore rfl rfl
theorem unstall : d.PinsNone e.unstall := h.onStore rfl rfl
theorem journal (kind : Nat) (body : List Byte) (persist : Bool) : d.PinsNone (e.journal kind body persist) := h.onStore rfl rfl

theorem eraseBlock (b : Nat) : d.PinsNone (e.eraseBlock b) := h.onBlk fun _ _ => rfl

theorem eraseCounted (b : Nat) (r : Region) (fast : Bool) : d.PinsNone (e.eraseCounted b r fast) :=
  ite ((h.onBlk fun _ _ => rfl).logEvent ..) (h.onBlk fun _ _ => rfl)

theorem ringShrinks : d.PinsNone e.ringShrinks := (h.storeErr 7).logEvent ..

/-- A replacement for a container block joins the ring; one for a fast region is erased in its mode (R205). -/
theorem replaceBlock (r : Region) : d.PinsNone (e.replaceBlock r) := by
  unfold Dev.replaceBlock
  split
  · exact ite h.ringShrinks h
  next b _ =>
    have joins : d.PinsNone ((((e.onBlk b fun k => { region := r, ecnt := k.ecnt }).onStore fun s =>
        { s with erasedRing := s.erasedRing ++ [b] })).unstall) :=
      ((h.onBlk fun _ _ => rfl).onStore rfl rfl).unstall
    have erased : d.PinsNone (e.eraseCounted b r true) := h.eraseCounted b r true
    exact ite (ite (((ite joins erased).storeErr 6).logEvent ..) (ite joins erased)) erased.ringShrinks

theorem retireBlock (b cause : Nat) : d.PinsNone (e.retireBlock b cause) :=
  (((h.onBlk fun _ _ => rfl).journal ..).logEvent ..).replaceBlock _

theorem beginErase (b : Nat) : d.PinsNone (e.beginErase b) := ite (h.onBlk fun _ hq => hq) (ite (h.retireBlock b 2) (h.eraseBlock b))

end Dev.PinsNone

namespace Dev
variable (d : Dev) (b : Nat)

/-! The end of a READ (R202) -/

/-- An erase that waited for a READ begins with the last pin; no pin is left then, and otherwise one less (R202). -/
theorem readUnpin_effect : (d.readUnpin b).store.queue = d.store.queue ∧ ((d.readUnpin b).blk b).readPins = (d.blk b).readPins - 1 := by
  unfold readUnpin
  dsimp only
  split
  case isTrue h =>
    simp only [Bool.and_eq_true, beq_iff_eq, blk_onBlk_same] at h
    obtain ⟨queue, unpinned⟩ := (PinsNone.refl (d.onBlk b fun k => { k with readPins := k.readPins - 1 })).beginErase b
    exact ⟨queue, (unpinned b (by rw [blk_onBlk_same]; exact h.2)).trans h.2.symm⟩
  case isFalse => exact ⟨rfl, by rw [blk_onBlk_same]⟩

/-- It sends nothing unless the erase retires the block. -/
theorem readUnpin_out (h : (d.blk b).eraseDue = false ∨ (d.blk b).bad = false) : (d.readUnpin b).out = d.out := by
  unfold readUnpin beginErase
  dsimp only
  split
  case isTrue due =>
    simp only [Bool.and_eq_true, beq_iff_eq, blk_onBlk_same] at due
    obtain ⟨due, pins⟩ := due
    have sound : (d.blk b).bad = false := by simpa [due] using h
    simp only [blk_onBlk_same, pins, sound]
    rfl
  case isFalse => rfl

theorem journalAhead_out : d.journalAhead.out = d.out := journalAhead_frame d (π := .out) (by decide)

/-- The journal erases a block ahead only when no READ pins it (R190, R202). -/
theorem journalAhead_queue : d.journalAhead.store.queue = d.store.queue := by
  unfold journalAhead
  dsimp only
  split
  · split <;> rfl
  · split <;> rfl

theorem journalAhead_readPins (k : Nat) : (d.journalAhead.blk k).readPins = (d.blk k).readPins := by
  unfold journalAhead
  dsimp only
  split
  · split <;> rfl
  next b _ =>
    split
    case isTrue => rfl
    case isFalse h =>
      have unpinned : (d.blk b).readPins = 0 := by simp at h; exact h.2
      show ((d.eraseBlock b).blk k).readPins = _
      rw [eraseBlock, blk_onBlk]
      split
      case isTrue e => rw [← e, unpinned]
      case isFalse => rfl

end Dev

end Sys2Proof.Machine

/-! PROOFS. The descriptor queue of the sealed store: doorbell, checks, consumption, completion, and its obligation. -/
namespace Sys2Proof.Machine

/-- A list of checks lets pass exactly what fails none of them. -/
theorem firstBad_eq_none {cs : List (Bool × Status)} : firstBad cs = none ↔ ∀ c ∈ cs, c.1 = false := by
  induction cs with
  | nil => simp [firstBad]
  | cons c cs ih =>
    obtain ⟨bad, st⟩ := c
    cases bad <;> simp [firstBad, ih]

namespace Dev
variable (d : Dev)

/-! The doorbell (R197) -/

theorem storeDoorbell_taken {tail : Nat} (h : idxDiff tail d.store.queue.sqHead ≤ 2 ^ d.store.queue.sizeLog2) :
    d.storeDoorbell tail = d.onStoreQueue fun q => { q with sqTail := tail % 2 ^ 32 } := if_pos h
theorem storeDoorbell_overrun {tail : Nat} (h : 2 ^ d.store.queue.sizeLog2 < idxDiff tail d.store.queue.sqHead) :
    d.storeDoorbell tail = d.storeErr 1 := if_neg (Nat.not_le.mpr h)

/-! Checks (R200) -/

theorem storeCheck_unlisted (ws : List W48) (m : Bool) (h : (parseStoreOp ws).op = 0 ∨ 6 < (parseStoreOp ws).op) :
    d.storeCheck ws m = some .badDescType := by
  have unlisted : inRange 1 6 (parseStoreOp ws).op = false := by simp only [inRange, Bool.and_eq_false_iff, decide_eq_false_iff_not]; omega
  simp only [storeCheck, firstBad, unlisted, Bool.not_false, if_true]

/-- A block that passes the checks of an ERASE is not pinned by a READ. -/
theorem storeCheck_erase {ws : List W48} {m : Bool} (hop : (parseStoreOp ws).op = 3) (h : d.storeCheck ws m = none) :
    (d.blk (parseStoreOp ws).block).readPins = 0 := by
  have free : ((parseStoreOp ws).op == 3 && d.eraseBusy (parseStoreOp ws).block) = false :=
    -- BLOCK_BUSY is the tenth check of R200.
    firstBad_eq_none.mp h (_, .blockBusy) (List.mem_of_getElem? (i := 9) rfl)
  simp [hop, eraseBusy] at free
  omega

/-! Completions (R201) -/

/-- The word of a completion that names the descriptor, its status and its phase; and the address of the next completion. -/
def cqWord (d : Dev) (tag status : Nat) : W48 :=
  BitVec.ofNat 48 (tag + status % 4096 * 2 ^ 16 + phaseOf d.store.queue.cqTail d.store.queue.sizeLog2 * 2 ^ 28)
def cqAddr (d : Dev) : Nat := d.store.queue.cqBase + d.store.queue.cqTail % 2 ^ d.store.queue.sizeLog2 * 2

section
variable (o : StoreOp)

@[simp] theorem storeComplete_store : (d.storeComplete o).store =
    { d.store with queue := { d.store.queue with cqTail := idxAdd d.store.queue.cqTail 1, irq := d.store.queue.irq || o.irq } } := rfl
@[simp] theorem storeComplete_out : (d.storeComplete o).out = d.out := rfl

/-- The words of the completion. -/
theorem storeComplete_dmem : ((d.storeComplete o).core 0).dmem = spSetAll zeroWord (d.core 0).dmem d.cqAddr
    [d.cqWord o.tag o.status, BitVec.ofNat 48 (o.done % 2 ^ 24 + (if o.op = 3 then (d.blk o.block).ecnt else 0) * 2 ^ 24)] :=
  congrArg Core.dmem (core_onCore_same d 0 _ (by decide))

theorem storeComplete_status : spGet zeroWord ((d.storeComplete o).core 0).dmem d.cqAddr = d.cqWord o.tag o.status := by
  rw [storeComplete_dmem]
  exact spGet_spSetAll_in zeroWord [_, _] _ _ 0 Nat.zero_lt_two

theorem storeComplete_erase (h : o.op = 3) : spGet zeroWord ((d.storeComplete o).core 0).dmem (d.cqAddr + 1)
    = BitVec.ofNat 48 (o.done % 2 ^ 24 + (d.blk o.block).ecnt * 2 ^ 24) := by
  rw [storeComplete_dmem, if_pos h]
  exact spGet_spSetAll_in zeroWord [_, _] _ _ 1 Nat.one_lt_two

end

/-! Consumption (R199, R200) -/

/-- The descriptor at the head of the queue. -/
def headOp (d : Dev) : StoreOp := parseStoreOp d.storeDescWords

theorem headOp_of_opcode {op : Nat} (h : d.storeOpcode = some op) : d.headOp.op = op := by
  unfold storeOpcode at h
  split at h
  · exact Option.some.inj h
  · cases h

/-- The head of the submission queue has moved past it. -/
def consumed (d : Dev) : Dev := d.onStoreQueue fun q => { q with sqHead := idxAdd q.sqHead 1 }

/-- `e` is `d` once the descriptor at the head is completed with a status and no side effect on blocks and pages. -/
def Turned (d : Dev) (st : Status) (e : Dev) : Prop :=
  e.store.blocks = d.store.blocks ∧ e.store.pages = d.store.pages
    ∧ e.store.queue = { d.store.queue with sqHead := idxAdd d.store.queue.sqHead 1, cqTail := idxAdd d.store.queue.cqTail 1,
                                           irq := d.store.queue.irq || d.headOp.irq }
    ∧ spGet zeroWord (e.core 0).dmem d.cqAddr = d.cqWord d.headOp.tag st.code

/-- `e` is `d` once an operation is in progress, as far as the queue and the cores go. -/
def Begun (d : Dev) (o : StoreOp) (e : Dev) : Prop :=
  e.store.queue = { d.store.queue with sqHead := idxAdd d.store.queue.sqHead 1, running := d.store.queue.running ++ [o] }
    ∧ e.cores = d.cores

/-- An operation that has begun joins those in progress. -/
def joined (d : Dev) (o : StoreOp) : Dev := d.onStoreQueue fun q => { q with running := q.running ++ [o] }

@[simp] theorem joined_blk (o : StoreOp) (b : Nat) : (d.joined o).blk b = d.blk b := rfl

section
variable {m : Bool} {act : StoreOp → Dev → StoreOp × Dev}

/-- A failed check turns the descriptor away. -/
theorem storeExec_turned {st : Status} (h : d.storeCheck d.storeDescWords m = some st) : d.Turned st (d.storeExec m act) := by
  have turns : d.storeExec m act = d.consumed.storeComplete { d.headOp with status := st.code } := by
    simp only [storeExec, h]
    rfl
  rw [turns]
  exact ⟨rfl, rfl, rfl, storeComplete_status ..⟩

theorem storeExec_passed (h : d.storeCheck d.storeDescWords m = none) :
    d.storeExec m act = (act d.headOp d.consumed).2.joined (act d.headOp d.consumed).1 := by
  simp only [storeExec, h]
  rfl

/-- An operation that leaves the queue and the cores is in progress once its descriptor has passed the checks. -/
theorem begun_joined {e : Dev} (o : StoreOp) (hq : e.store.queue = d.consumed.store.queue) (hc : e.cores = d.cores) :
    d.Begun o (e.joined o) :=
  ⟨by show { e.store.queue with running := e.store.queue.running ++ [o] } = _; rw [hq]; rfl, hc⟩

end

/-! What each operation begins (R199) -/

section
variable (o : StoreOp) (data : List Byte)

/-- A READ pins its block. -/
theorem storeActRead_readPins : ((storeActRead o d).2.blk o.block).readPins = (d.blk o.block).readPins + 1 := by
  rw [storeActRead, blk_onBlk_same]

/-- The page programs of a PROGRAM. -/
def programJobs (d : Dev) (o : StoreOp) (data : List Byte) : List PageJob :=
  (pieces pageBytes (d.storeSource o data)).zipIdx.map fun p =>
    { owner := .queue o.tag, block := o.block, page := o.page + p.2, data := p.1 }

theorem programJobs_data : (d.programJobs o data).map PageJob.data = pieces pageBytes (d.storeSource o data) := by
  simp only [programJobs, List.map_map]
  exact List.zipIdx_map_fst ..

theorem programJobs_mem {j : PageJob} (h : j ∈ d.programJobs o data) : j.block = o.block ∧ j.owner = .queue o.tag := by
  obtain ⟨p, -, rfl⟩ := List.mem_map.mp h
  exact ⟨rfl, rfl⟩

/-- The pages of a PROGRAM join the pending ones, and its block is no longer erased. -/
theorem storeActProgram_ok : storeActProgram data true o d = (o, (d.onBlk o.block fun k =>
    { k with next := k.next + (pieces pageBytes (d.storeSource o data)).length, erased := false }).enqueue (d.programJobs o data)) := by
  simp only [storeActProgram, Bool.not_true, Bool.and_false, Bool.false_eq_true, if_false, programJobs]

/-- A failed host read programs nothing. -/
theorem storeActProgram_fault (h : o.host = true) : storeActProgram data false o d = ({ o with status := 0x016 }, d) := by
  simp [storeActProgram, h, Status.code]

/-- A sound block that no READ pins is being erased from then on. -/
theorem beginErase_sound {b : Nat} (unpinned : (d.blk b).readPins = 0) (sound : (d.blk b).bad = false) :
    d.beginErase b = d.eraseBlock b := by
  simp [beginErase, unpinned, sound]

/-- The records of an APPEND. -/
def appendRecs (d : Dev) (o : StoreOp) (data : List Byte) : List StoreRec :=
  (frames (d.storeSource o data)).1.map fun f => { kind := f.1, lane := f.2.1, seq := 0, body := f.2.2, era := d.store.era }

theorem storeActAppend_whole (h : (frames (d.storeSource o data)).2 = true) : storeActAppend data true o d =
    ({ o with done := o.bytes }, d.onStore fun s => { s with supQ := s.supQ ++ d.appendRecs o data }) := by
  simp only [storeActAppend, Bool.not_true, Bool.and_false, Bool.false_eq_true, if_false, h, if_true]
  rfl

theorem storeActAppend_broken (h : (frames (d.storeSource o data)).2 = false) :
    storeActAppend data true o d = ({ o with status := 0x40A }, d) := by
  simp [storeActAppend, h, Status.code]

end

/-! Holds of a PIN and an UNPIN (R196) -/

/-- Steps that each change the holds of one block, over blocks each named once. -/
theorem each_holds {f : Dev → Nat → Dev} {u : Nat → Nat}
    (hf : ∀ e b k, ((f e b).blk k).holds = if b = k then u (e.blk k).holds else (e.blk k).holds) {bs : List Nat} (once : bs.Nodup)
    (k : Nat) : ((d.each bs f).blk k).holds = if k ∈ bs then u (d.blk k).holds else (d.blk k).holds := by
  induction bs generalizing d with
  | nil => rfl
  | cons b bs ih =>
    obtain ⟨fresh, once⟩ := List.nodup_cons.mp once
    refine (ih (f d b) once).trans ?_
    rw [hf]
    by_cases e : b = k
    · subst e
      simp [fresh]
    · simp [e, Ne.symm e]

theorem pin_holds (b k : Nat) : ((d.pin b).blk k).holds = if b = k then (d.blk k).holds + 1 else (d.blk k).holds := by
  rw [pin, blk_onBlk]
  split <;> rfl

theorem unpin_holds (b k : Nat) : ((d.unpin b).blk k).holds = if b = k then (d.blk k).holds - 1 else (d.blk k).holds := by
  have taken : (d.unpin b).blk k = (d.onBlk b fun q => { q with holds := q.holds - 1 }).blk k := by
    unfold unpin
    dsimp only
    split <;> rfl
  rw [taken, blk_onBlk]
  split <;> rfl

theorem unpin_queue (b : Nat) : (d.unpin b).store.queue = d.store.queue := by
  unfold unpin
  dsimp only
  split <;> rfl

section
variable (o : StoreOp)

theorem storeActPin_queue : (storeActPin o d).2.store.queue = d.store.queue :=
  each_keeps (fun e => e.store.queue) (f := pin) (fun _ _ => rfl) _ _
theorem storeActPin_cores : (storeActPin o d).2.cores = d.cores := each_keeps cores (f := pin) (fun _ _ => rfl) _ _

/-- Every block whose container lies in the range has one hold more. -/
theorem storeActPin_holds (once : (d.inSeqs o).Nodup) (b : Nat) :
    ((storeActPin o d).2.blk b).holds = (d.blk b).holds + if b ∈ d.inSeqs o then 1 else 0 := by
  refine (d.each_holds (u := (· + 1)) pin_holds once b).trans ?_
  split <;> rfl

theorem storeActUnpin_queue : (storeActUnpin o d).2.store.queue = d.store.queue :=
  each_keeps (fun e => e.store.queue) unpin_queue _ _
theorem storeActUnpin_cores : (storeActUnpin o d).2.cores = d.cores :=
  each_keeps cores (f := unpin) (fun e b => unpin_frame e b (π := .cores) (by decide)) _ _

/-- Every held block whose container lies in the range has one hold less. -/
theorem storeActUnpin_holds (once : (d.inSeqs o).Nodup) (b : Nat) :
    ((storeActUnpin o d).2.blk b).holds = (d.blk b).holds - if b ∈ d.inSeqs o then 1 else 0 := by
  refine (d.each_holds (u := (· - 1)) unpin_holds (once.filter _) b).trans ?_
  simp only [List.mem_filter, decide_eq_true_eq]
  by_cases named : b ∈ d.inSeqs o
  · simp only [named, true_and, if_true]
    split <;> omega
  · simp only [named, false_and, if_false, Nat.sub_zero]

end

/-! The end of an operation (R201) -/

/-- The `i`-th descriptor in progress is in progress no more. -/
def ended (d : Dev) (i : Nat) : Dev := d.onStoreQueue fun q => { q with running := q.running.eraseIdx i }

section
variable {i : Nat} {o : StoreOp} (h : d.store.queue.running[i]? = some o)
include h

/-- An ERASE whose block has not retired completes as it stands. -/
theorem storeDescComplete_erase (hop : o.op = 3) (idle : (d.blk o.block).erasing = false) (hr : (d.blk o.block).region ≠ .retired) :
    d.storeDescComplete i none true = (d.ended i).storeComplete o := by
  have finished : d.storeOpOver o = true := by simp [storeOpOver, hop, idle]
  have noRead : ¬o.op = 1 := by omega
  have kept : ¬((d.ended i).blk o.block).region = .retired := hr
  unfold ended at kept ⊢
  simp only [storeDescComplete, h, finished, noRead, kept, decide_false, Bool.and_false, Bool.not_true, Bool.false_eq_true, if_false]

/-- A READ to the host that fails gives up its pin, and the journal may go on to erase its next block. -/
theorem storeDescComplete_fault (hop : o.op = 1) (host : o.host = true) : d.storeDescComplete i none false =
    ((d.ended i).readUnpin o.block).journalAhead.storeComplete { o with status := 0x016 } := by
  have finished : d.storeOpOver o = true := by simp [storeOpOver, hop]
  have fault (e : Dev) : e.readEnd o none false = ({ o with status := 0x016 }, e.readUnpin o.block) := by
    simp only [readEnd, host, Bool.not_false, Bool.and_self, if_true]
    rfl
  unfold ended
  simp only [storeDescComplete, h, finished, hop, fault, Bool.not_true, Bool.false_eq_true, if_false, if_true]

/-- It completes with DMA_FAULT (R201, R202). -/
theorem storeDescComplete_fault_effect (hop : o.op = 1) (host : o.host = true) : let e := d.storeDescComplete i none false
    e.store.queue.running = d.store.queue.running.eraseIdx i
      ∧ ((d.blk o.block).eraseDue = false ∨ (d.blk o.block).bad = false → e.out = d.out)
      ∧ (e.blk o.block).readPins = (d.blk o.block).readPins - 1
      ∧ spGet zeroWord (e.core 0).dmem d.cqAddr = d.cqWord o.tag 0x016 := by
  obtain ⟨queue, pins⟩ := (d.ended i).readUnpin_effect o.block
  rw [← journalAhead_queue] at queue
  rw [← journalAhead_readPins] at pins
  have addr : ((d.ended i).readUnpin o.block).journalAhead.cqAddr = d.cqAddr := by simp only [cqAddr, queue]; rfl
  have word : ((d.ended i).readUnpin o.block).journalAhead.cqWord = d.cqWord := by unfold cqWord; rw [queue]; rfl
  rw [storeDescComplete_fault d h hop host]
  refine ⟨by rw [storeComplete_store, queue]; rfl, fun sends => ?_, pins, ?_⟩
  · rw [storeComplete_out, journalAhead_out]
    exact (d.ended i).readUnpin_out o.block sends
  · rw [← addr, ← word]
    exact storeComplete_status ((d.ended i).readUnpin o.block).journalAhead { o with status := 0x016 }

end

end Dev

/-! The rows -/

section
variable {s : State} {P : Dev → Prop}

theorem completes_storeSqDoorbell {tail : Nat} (hc : s.dev.supply.clocks = true) (hm : s.dev.power.mode ≠ .close)
    (hP : P (s.dev.storeDoorbell tail)) : Completes (.storeSqDoorbell tail) s P :=
  completes_on (exec_storeSqDoorbell ..) (by rwa [Dev.byCore_running _ _ hc hm])

/-- READ takes the descriptors of no listed operation too (log entry 17). -/
theorem completes_storeRead {op : Nat} {m : Bool} (h : s.dev.storeOpcode = some op) (hop : op = 1 ∨ op = 0 ∨ 6 < op)
    (hP : P (s.dev.storeExec m storeActRead)) : Completes (.storeRead m) s P := by
  have takes : (op == 1 || !inRange 1 6 op) = true := by simp [inRange]; omega
  exact completes_on (exec_storeRead ..) (by simpa only [h, takes, if_true] using hP)

section
variable {c : Instr} {op : Nat} {act : StoreOp → Dev → StoreOp × Dev}
  (hc : exec c s = s.on fun d => if d.storeOpcode = some op then d.storeExec false act else d) (h : s.dev.storeOpcode = some op)
include hc h

/-- A row of one operation consumes its descriptor at the head. -/
theorem completes_of_storeOpcode (hP : P (s.dev.storeExec false act)) : Completes c s P := completes_on hc (by rwa [if_pos h])

/-- The descriptor fails a check. -/
theorem completes_turned {st : Status} (bad : s.dev.storeCheck s.dev.storeDescWords false = some st) :
    Completes c s (s.dev.Turned st) :=
  completes_of_storeOpcode hc h (s.dev.storeExec_turned bad)

/-- The descriptor passes the checks, and its operation begins. -/
theorem completes_passed {o : StoreOp} {e : Dev} (ok : s.dev.storeCheck s.dev.storeDescWords false = none)
    (acts : act s.dev.headOp s.dev.consumed = (o, e)) (hq : e.store.queue = s.dev.consumed.store.queue)
    (hcores : e.cores = s.dev.cores) (hP : P (e.joined o)) : Completes c s fun f => s.dev.Begun o f ∧ P f :=
  completes_of_storeOpcode hc h (by
    rw [s.dev.storeExec_passed ok, acts]
    exact ⟨s.dev.begun_joined o hq hcores, hP⟩)

end

end

/-- Settles O28: a descriptor at the head of the queue is turned away by its first failed check, or its operation begins, and the lemma
of each operation says what it changes; one that ends writes its completion. -/
theorem storeDescriptors : Obligations.StoreDescriptors := by
  intro s d q ws o
  refine ⟨fun tail hc hm => ⟨fun h => ?_, fun h => ?_⟩, fun op hop => ?_, fun i o hi => ⟨fun h3 idle kept => ?_, fun h1 host => ?_⟩⟩
  · exact completes_storeSqDoorbell hc hm (d.storeDoorbell_taken h)
  · refine completes_storeSqDoorbell hc hm ?_
    rw [d.storeDoorbell_overrun h]
    exact ⟨rfl, flag_setBit_same _ _ (by decide)⟩
  · have head : d.headOp.op = op := d.headOp_of_opcode hop
    refine ⟨fun m h => ?_, fun m st h bad => ?_, fun st bad => ⟨?_, ?_, ?_, ?_, ?_⟩, fun m h ok => ?_,
      fun ok => ⟨?_, ?_, ?_, ?_, ?_, ?_, ?_⟩⟩
    · exact completes_storeRead hop (.inr h) (d.storeExec_turned (d.storeCheck_unlisted ws m (head ▸ h)))
    · exact completes_storeRead hop (.inl h) (d.storeExec_turned bad)
    · rintro data ok rfl; exact completes_turned (exec_storeProgram s data ok) hop bad
    · rintro data ok rfl; exact completes_turned (exec_storeAppend s data ok) hop bad
    · rintro rfl; exact completes_turned (exec_storeErase s) hop bad
    · rintro rfl; exact completes_turned (exec_storePin s) hop bad
    · rintro rfl; exact completes_turned (exec_storeUnpin s) hop bad
    · refine completes_storeRead hop (.inl h) ?_
      rw [d.storeExec_passed ok]
      exact ⟨d.begun_joined _ rfl rfl, d.consumed.storeActRead_readPins o⟩
    · rintro data rfl
      refine completes_passed (exec_storeProgram s data true) hop ok (d.consumed.storeActProgram_ok _ data)
        (Dev.enqueue_queue ..) (Dev.enqueue_frame _ _ (π := .cores) (by decide)) ⟨?_, d.programJobs d.headOp data, ?_, ?_, ?_⟩
      · exact congrArg Block.erased ((Dev.enqueue_blk ..).trans (Dev.blk_onBlk_same ..))
      · exact Dev.enqueue_pages ..
      · exact d.programJobs_data _ data
      · exact fun j hj => d.programJobs_mem _ data hj
    · rintro data rfl host
      exact completes_passed (exec_storeProgram s data false) hop ok (d.consumed.storeActProgram_fault _ data host) rfl rfl ⟨rfl, rfl⟩
    · rintro rfl sound
      have unpinned : (d.blk o.block).readPins = 0 := d.storeCheck_erase head ok
      have erases : storeActErase o d.consumed = (o, d.consumed.eraseBlock o.block) :=
        congrArg _ (d.consumed.beginErase_sound unpinned sound)
      refine completes_passed (exec_storeErase s) hop ok erases rfl rfl ?_
      rw [Dev.joined_blk, Dev.blk_eraseBlock_same]
      exact ⟨rfl, rfl, rfl⟩
    · rintro data rfl broken
      exact completes_passed (exec_storeAppend s data true) hop ok (d.consumed.storeActAppend_broken _ data broken) rfl rfl rfl
    · rintro data rfl whole
      exact completes_passed (exec_storeAppend s data true) hop ok (d.consumed.storeActAppend_whole _ data whole) rfl rfl rfl
    · rintro rfl once
      exact completes_passed (exec_storePin s) hop ok rfl (Dev.storeActPin_queue ..) (Dev.storeActPin_cores ..)
        (d.consumed.storeActPin_holds o once)
    · rintro rfl once
      exact completes_passed (exec_storeUnpin s) hop ok rfl (Dev.storeActUnpin_queue ..) (Dev.storeActUnpin_cores ..)
        (d.consumed.storeActUnpin_holds o once)
  · refine completes_on (exec_storeDescComplete ..) ?_
    rw [d.storeDescComplete_erase hi h3 idle kept]
    exact ⟨rfl, (d.ended i).storeComplete_erase o h3⟩
  · exact completes_on (exec_storeDescComplete ..) (d.storeDescComplete_fault_effect hi h1 host)

end Sys2Proof.Machine

/-! PROOFS. RING_PREERASE and a memory of blocks out of its canonical form: the refutation of the obligation of the pages and of staging
memory; and the erase that its clause names, in canonical form. -/
namespace Sys2Proof.Machine

/-- Blocks of the ring that are erased, and container blocks whose erase is under way (R184). -/
def Dev.erasedAhead (d : Dev) : Nat :=
  d.ringErased + (d.store.blocks.filter fun b => decide (b.2.region = .container) && b.2.erasing).length

/-! A memory that lists a block twice -/

/-- A store that has used every block of its initial ring. Its memory of blocks is not in canonical form: it lists block 704 twice, first
erased and pinned by a READ, then as a programmed container block that nothing pins. -/
def doubledStore : Store :=
  { st := .ready, writerEn := true, fresh := 15680, blocks := [(704, { readPins := 1 }), (704, { erased := false })] }
def doubledDev : Dev := { store := doubledStore }

theorem doubledDev_victim : doubledDev.victim = some 704 := by decide
theorem doubledDev_erased_below : doubledDev.erasedAhead < doubledDev.store.preerase := by decide

/-- The search for the oldest container finds the second entry; the erase reads the first, whose READ makes it wait (R184, R202). -/
theorem doubledDev_ringPreerase_waits : Completes .ringPreerase { dev := doubledDev } fun e => (e.blk 704).erasing = false :=
  completes_on (exec_ringPreerase ..) (by decide)

/-- Refutes O29: its clause for RING_PREERASE takes every memory of blocks, and fails where one lists a block twice. The victim is chosen
among the entries, and the pins that hold its erase back are those of the block's first entry. `completes_ringPreerase` shows the clause
for memories in canonical form. -/
theorem not_pagesAndStagingMemory : ¬ Obligations.PagesAndStagingMemory := by
  intro h
  obtain ⟨-, -, -, -, -, -, -, -, -, preerase, -⟩ := h.1 { dev := doubledDev }
  have erases := preerase 704 (by decide) (by decide) doubledDev_victim (by decide) doubledDev_erased_below
  obtain ⟨e, ⟨erasing, -⟩, waits⟩ := erases.both doubledDev_ringPreerase_waits
  rw [waits] at erasing
  cases erasing

/-! The clause in canonical form -/

/-- In canonical form an entry of a memory is what its address reads as. -/
theorem spGet_of_mem {α : Type} [DecidableEq α] (d : Nat → α) {m : Sparse α} {lo : Nat} (w : spWfFrom d lo m = true) {b : Nat × α}
    (hb : b ∈ m) : lo ≤ b.1 ∧ spGet d m b.1 = b.2 := by
  induction m generalizing lo with
  | nil => cases hb
  | cons e m ih =>
    simp only [spWfFrom, Bool.and_eq_true, decide_eq_true_eq] at w
    obtain ⟨⟨hlo, -⟩, w⟩ := w
    rcases List.mem_cons.mp hb with rfl | hb
    · exact ⟨hlo, by simp [spGet]⟩
    · obtain ⟨h, read⟩ := ih w hb
      exact ⟨by omega, by rw [spGet, if_neg (by omega), read]⟩

theorem mem_of_mem_insertBy {α : Type} {r : α → α → Bool} {x y : α} {l : List α} (h : y ∈ insertBy r x l) : y = x ∨ y ∈ l := by
  induction l with
  | nil => exact .inl (List.mem_singleton.mp h)
  | cons z l ih =>
    unfold insertBy at h
    split at h
    · exact List.mem_cons.mp h
    · rcases List.mem_cons.mp h with rfl | h
      · exact .inr List.mem_cons_self
      · exact (ih h).imp_right (List.mem_cons_of_mem z)

theorem mem_of_mem_sortBy {α : Type} {r : α → α → Bool} {y : α} {l : List α} (h : y ∈ sortBy r l) : y ∈ l := by
  induction l with
  | nil => exact h
  | cons x l ih => exact (mem_of_mem_insertBy h).elim (· ▸ List.mem_cons_self) fun h => List.mem_cons_of_mem x (ih h)

namespace Dev
variable (d : Dev)

/-- No READ pins the block that the writer erases ahead. -/
theorem victim_unpinned (canonical : spWf (initBlock d.variant) d.store.blocks = true) {b : Nat} (h : d.victim = some b) :
    (d.blk b).readPins = 0 := by
  obtain ⟨k, first, rfl⟩ := Option.map_eq_some_iff.mp h
  obtain ⟨listed, fits⟩ := List.mem_filter.mp (mem_of_mem_sortBy (List.mem_of_mem_head? first))
  rw [blk, (spGet_of_mem _ canonical listed).2]
  simp only [Bool.and_eq_true, beq_iff_eq] at fits
  exact fits.1.2

/-- Below the level of STOR_CTRL.PREERASE the writer begins the erase of the victim (R184, R188). -/
theorem preErase_begins {b : Nat} (ready : d.store.st = .ready) (runs : d.store.writerEn = true ∨ d.power.startStep = .reconcile)
    (below : d.erasedAhead < d.store.preerase) (h : d.victim = some b) : d.preErase = d.beginErase b := by
  unfold preErase
  dsimp only
  rw [if_neg, h]
  simp only [Bool.not_eq_true', Bool.not_eq_false, Bool.and_eq_true, Bool.or_eq_true, decide_eq_true_eq]
  exact ⟨⟨ready, runs⟩, below⟩

end Dev

/-- The clause of RING_PREERASE that `not_pagesAndStagingMemory` refutes holds of every memory of blocks in canonical form. -/
theorem completes_ringPreerase {s : State} {b : Nat} (canonical : spWf (initBlock s.dev.variant) s.dev.store.blocks = true)
    (ready : s.dev.store.st = .ready) (runs : s.dev.store.writerEn = true ∨ s.dev.power.startStep = .reconcile)
    (victim : s.dev.victim = some b) (sound : (s.dev.blk b).bad = false)
    (below : s.dev.erasedAhead < s.dev.store.preerase) :
    Completes .ringPreerase s fun e => (e.blk b).erasing = true ∧ (e.blk b).seq = 0 ∧ (e.blk b).pages = []
      ∧ ∀ k, k ≠ b → e.blk k = s.dev.blk k := by
  refine completes_on (exec_ringPreerase ..) ?_
  rw [s.dev.preErase_begins ready runs below victim, s.dev.beginErase_sound (s.dev.victim_unpinned canonical victim) sound,
    Dev.blk_eraseBlock_same]
  exact ⟨rfl, rfl, rfl, fun k hk => Dev.blk_onBlk_ne _ _ hk.symm⟩

end Sys2Proof.Machine

/-! PROOFS. Mode requests, transitions, SHUTDOWN and GPIO levels: what each shared operation of the power controller leaves, and
their obligation. -/
namespace Sys2Proof.Machine

/-! GPIO levels as a register (R590) -/

/-- The recognised levels with that of line `n` changed. -/
def gpioSet (g : Word) (n : Nat) (level : Bool) : Word := if level then setBit g n else g &&& ~~~(lo32 (2 ^ n))

theorem flag_gpioSet (g : Word) {n k : Nat} (level : Bool) (hk : k < 32) :
    flag (gpioSet g n level) k = if n = k then level else flag g k := by
  cases level with
  | true => by_cases h : n = k <;> simp [gpioSet, flag_setBit, h, hk]
  | false =>
    have off : (~~~lo32 (2 ^ n)).getLsbD k = !decide (n = k) := by
      simp only [lo32, BitVec.getLsbD_not, BitVec.getLsbD_ofNat, Nat.testBit_two_pow, hk, decide_true, Bool.true_and]
    change (g &&& ~~~lo32 (2 ^ n)).getLsbD k = if n = k then false else g.getLsbD k
    rw [BitVec.getLsbD_and, off]
    by_cases h : n = k <;> simp [h]

namespace Dev
variable (d : Dev)

@[simp] theorem logEvent_power (t s : Nat) (bs : List Byte) : (d.logEvent t s bs).power = d.power :=
  logEvent_frame d t s bs (π := .power) (by decide)

@[simp] theorem setMode_power (m : Mode) : (d.setMode m).power = { d.power with mode := m } := by simp [setMode]

/-! Requests (R221, R246) -/

theorem goStatus_refused {st : Status} (h : st ≠ .ok) :
    d.goStatus st = d.onPower fun p => { p with lastStatus := st.code, err := setBit p.err 1 } := if_neg h

/-- The device with the REQ of a request that names a mode. -/
def asked (req : Nat) : Dev := d.onPower fun p => { p with req := req % 8 }

section
variable {req : Nat} {m : Mode}

theorem modeRequest_unlisted (h : Mode.ofReq (req % 8) = none) : (d.modeRequest req).2 = d.goStatus .modeInvalid := by
  unfold modeRequest
  rw [h]

variable (h : Mode.ofReq (req % 8) = some m)
include h

theorem modeRequest_busy (busy : d.power.target ≠ none) : (d.modeRequest req).2 = (d.asked req).goStatus .modeBusy := by
  have : d.power.target.isSome = true := Option.isSome_iff_ne_none.mpr busy
  simp [modeRequest, h, this, asked]

variable (free : d.power.target = none) (started : d.power.mode ≠ .test) (other : d.power.mode ≠ m)
include free started other

theorem modeRequest_asked : (d.modeRequest req).2 =
    if d.mayGo m then ((d.asked req).goStatus .ok).onPower fun p => { p with target := some m }
    else ((d.asked req).askDrain (Dev.mayGo · m)).goStatus .modePrecond := by
  have same : (d.onPower fun p => { p with req := req % 8 }).mayGo m = d.mayGo m := rfl
  simp only [modeRequest, h, asked, onPower_power, free, started, other, same, Option.isSome_none, decide_false, Bool.false_and,
    if_false, Bool.false_eq_true]
  split <;> rfl

end

/-- A request to leave INGEST drains staging where only staging, once OFF, held it up (R216). -/
theorem askDrain_staging {ok : Dev → Bool} (ingest : d.power.mode = .ingest) (ready : d.staging.st = .ready) :
    (d.askDrain ok).staging.st = if ok { d with staging := { d.staging with st := .off } } then .drain else .ready := by
  simp only [askDrain, ingest, ready, decide_true, Bool.true_and]
  split
  · rfl
  · exact ready

@[simp] theorem askDrain_power (ok : Dev → Bool) : (d.askDrain ok).power = d.power := askDrain_frame d ok (π := .power) (by decide)

/-! Transitions (R219, R221) -/

/-- What a device does on entry to a mode (R207, R215, R219). -/
def enterMode : Mode → Dev
  | .ingest => d.stagingEnter
  | .idle => d.gateAll.onPower fun p => { p with startStep := .done }
  | .test => d.gateAll.onPower fun p => { p with startStep := .recovery }
  | .standby =>
    let e := ((d.gateAll.standbyPool.logStandby).hiveStop false 3).timeStop
    let e := { e with supply := { e.supply with clocks := false }, rng := e.rng.clocksOff }
    (e.onStore fun s => { s with st := if s.st = StoreSt.fault then .fault else .off }).readerStop
  | _ => d

/-- The device in the mode `m`, with staging ended where it left INGEST. -/
def leaveMode (m : Mode) : Dev :=
  let e := (d.setMode m).onPower fun p => { p with target := none }
  if d.power.mode = .ingest then e.stagingLeave else e

/-- Entry to a mode changes START_STEP, and nothing else of the power controller. -/
theorem enterMode_power (m : Mode) : ∃ st, (d.enterMode m).power = { d.power with startStep := st } := by
  have gated : d.gateAll.power = d.power := gateAll_frame d (π := .power) (by decide)
  cases m with
  | ingest => exact ⟨_, stagingEnter_frame d (π := .power) (by decide)⟩
  | idle => exact ⟨.done, by simp [enterMode, gated]⟩
  | test => exact ⟨.recovery, by simp [enterMode, gated]⟩
  | standby =>
    refine ⟨d.power.startStep, ?_⟩
    change (d.enterMode .standby).get .power = d.get .power
    simp [enterMode]
  | vault | field | record | close => exact ⟨_, rfl⟩

theorem enterMode_staging {m : Mode} (h : m ≠ .ingest) : (d.enterMode m).staging = d.staging := by
  change (d.enterMode m).get .staging = d.get .staging
  cases m with
  | ingest => exact absurd rfl h
  | idle | test | standby => simp [enterMode]
  | vault | field | record | close => rfl

@[simp] theorem stagingLeave_power : d.stagingLeave.power = d.power := rfl

@[simp] theorem leaveMode_power (m : Mode) : (d.leaveMode m).power = { d.power with mode := m, target := none } := by
  unfold leaveMode
  split
  · rw [stagingLeave_power, onPower_power, setMode_power]
  · rw [onPower_power, setMode_power]

section
variable {m : Mode} (h : d.power.target = some m)
include h

theorem modeDone_trailerWaits (waits : d.trailerWaits m = true) : d.modeDone = d := by
  simp [modeDone, h, waits]

variable (old : d.power.mode ≠ .standby) (ready : d.trailerWaits m = false) (running : m = .standby → d.power.shutdown = false)
include old ready running

theorem modeDone_eq : d.modeDone = (((d.leaveMode m).enterMode m).hiveSettle.tagSettle).finish .mode id := by
  have kept (e : Dev) : e.hiveSettle.tagSettle.power = e.power :=
    (tagSettle_frame _ (π := .power) (by decide)).trans (hiveSettle_frame _ (π := .power) (by decide))
  have stays : ¬ (decide (m = .standby) && ((d.leaveMode m).enterMode m).hiveSettle.tagSettle.power.shutdown) = true := by
    obtain ⟨st, entered⟩ := (d.leaveMode m).enterMode_power m
    rw [kept, entered, leaveMode_power]
    simpa using running
  unfold modeDone
  simp only [h]
  rw [if_neg (by simp [old, ready])]
  exact congrArg (finish · .mode id) (if_neg stays)

theorem modeDone_part {π : DevPart}
    (hπ : π ∉ [.hive, .receipts, .wag, .ports, .waits, .tiles, .aon, .log, .field, .out]) :
    d.modeDone.get π = ((d.leaveMode m).enterMode m).get π := by
  rw [d.modeDone_eq h old ready running]
  simp at hπ
  simp [hπ]

theorem modeDone_power : ∃ st, d.modeDone.power = { d.power with mode := m, target := none, startStep := st } := by
  obtain ⟨st, entered⟩ := (d.leaveMode m).enterMode_power m
  refine ⟨st, (d.modeDone_part h old ready running (π := .power) (by decide)).trans (entered.trans ?_)⟩
  rw [leaveMode_power]

theorem modeDone_staging (ingest : d.power.mode = .ingest) (other : m ≠ .ingest) : d.modeDone.staging.st = .off := by
  have left : (d.leaveMode m).staging.st = .off := by simp [leaveMode, ingest, stagingLeave]
  rw [← enterMode_staging _ other] at left
  rwa [show d.modeDone.staging = _ from d.modeDone_part h old ready running (π := .staging) (by decide)]

end

theorem enterMode_standby_supply : (d.enterMode .standby).supply.clocks = false := by
  unfold enterMode
  exact congrArg Supply.clocks (readerStop_frame _ (π := .supply) (by decide))

theorem enterMode_standby_store : (d.enterMode .standby).store.st = if d.store.st = .fault then .fault else .off := by
  have kept : ((d.gateAll.standbyPool.logStandby).hiveStop false 3).timeStop.store = d.store := by
    change Dev.get _ .store = d.get .store
    simp
  unfold enterMode
  refine (congrArg Store.st (readerStop_frame _ (π := .store) (by decide))).trans ?_
  change (if _ = StoreSt.fault then StoreSt.fault else StoreSt.off) = _
  rw [kept]

theorem leaveMode_store (m : Mode) : (d.leaveMode m).store = d.store := by
  change (d.leaveMode m).get .store = d.get .store
  simp [leaveMode]

/-- The transition to STANDBY that is no orderly shutdown's: the clocks stop and the store goes off. -/
theorem modeDone_standby (target : d.power.target = some .standby) (idle : d.power.mode = .idle) (running : d.power.shutdown = false)
    (ready : d.trailerWaits .standby = false) : d.modeDone.power.mode = .standby ∧ d.modeDone.supply.clocks = false
      ∧ d.modeDone.store.st = if d.store.st = .fault then .fault else .off := by
  have old : d.power.mode ≠ .standby := by rw [idle]; decide
  obtain ⟨st, power⟩ := d.modeDone_power target old ready fun _ => running
  have supply : d.modeDone.supply = ((d.leaveMode .standby).enterMode .standby).supply :=
    d.modeDone_part target old ready (fun _ => running) (π := .supply) (by decide)
  have store : d.modeDone.store = ((d.leaveMode .standby).enterMode .standby).store :=
    d.modeDone_part target old ready (fun _ => running) (π := .store) (by decide)
  rw [power, supply, store, enterMode_standby_supply, enterMode_standby_store, leaveMode_store]
  exact ⟨rfl, rfl, rfl⟩

/-! SHUTDOWN (R222, R223, R231, R238) -/

@[simp] theorem logCloseBegin_power : d.logCloseBegin.power = d.power := logCloseBegin_frame d (π := .power) (by decide)
@[simp] theorem checkpointTries_power (n : Nat) : (d.checkpointTries n).power = d.power :=
  checkpointTries_frame d n (π := .power) (by decide)

/-- The lanes' stop edge leaves what the device does after the close record. -/
theorem lanesStop_after : d.lanesStop.close.after = d.close.after := by
  have zeroed : (d.each (List.range d.nLanes) fun e n => (e.zeroFill n 0).zeroFill n 1).close = d.close :=
    each_keeps close (fun e n => by change Dev.get _ .close = e.get .close; simp) _ _
  have combs (e : Dev) (c : Nat) :
      (if (List.range 8).any fun i => 0 < (e.lane (8 * c + i)).owedUnits then e else e.combClock c false).close = e.close := by
    split
    · rfl
    · exact combClock_frame e c false (π := .close) (by decide)
  unfold lanesStop
  dsimp only
  rw [each_keeps close combs, each_keeps close (fun e n => onLane_close e n _), onClose_close, zeroed]

/-- What the stop edge ends once the close sequencer is set up; the store's own changes stand before and after the writer's flush. -/
def halt (f g : Store → Store) : Dev := ((d.hiveStop true 5).tilesStop.lanesStop.stagingOff.onStore f).writerFlush.onStore g

theorem halt_power (f g : Store → Store) : (d.halt f g).power = d.power := by
  change (d.halt f g).get .power = d.get .power
  simp [halt]

theorem halt_after (f g : Store → Store) : (d.halt f g).close.after = d.close.after := by
  have ended : (d.halt f g).close = (d.hiveStop true 5).tilesStop.lanesStop.close := by
    change (d.halt f g).get .close = Dev.get _ .close
    simp [halt]
  have stopped : (d.hiveStop true 5).tilesStop.close = d.close := by
    change Dev.get _ .close = d.get .close
    simp
  rw [ended, lanesStop_after, stopped]

/-- The power controller at the stop edge of a close. -/
theorem closeBegin_power (cause : CloseCause) (resp : Nat) : (d.closeBegin cause resp).power =
    { d.power with mode := .close, closeStep := .stop, closeCause := cause, target := none, shutdown := false } := by
  unfold closeBegin
  refine (halt_power ..).trans ((each_keeps power (fun e _ => e.logEvent_power ..) _ _).trans ?_)
  simp

theorem closeBegin_after (cause : CloseCause) (resp : Nat) : (d.closeBegin cause resp).close.after = afterOf cause resp := by
  unfold closeBegin
  exact halt_after ..

/-- What ends at the stop edge besides leaves the power controller and the close sequencer. -/
theorem closeStart_power (cause : CloseCause) (resp : Nat) : (d.closeStart cause resp).power = (d.closeBegin cause resp).power := by
  change Dev.get _ .power = Dev.get _ .power
  simp [closeStart]
theorem closeStart_close (cause : CloseCause) (resp : Nat) : (d.closeStart cause resp).close = (d.closeBegin cause resp).close := by
  change Dev.get _ .close = Dev.get _ .close
  simp [closeStart]

/-- An event changes the ports, the event log and what is sent, and nothing else. -/
theorem logEvent_eq (t s : Nat) (bs : List Byte) : d.logEvent t s bs =
    { d with ports := (d.logEvent t s bs).ports, aon := (d.logEvent t s bs).aon, log := (d.logEvent t s bs).log
             out := (d.logEvent t s bs).out } := by
  refine ext_get fun π => ?_
  by_cases hπ : π ∈ [.ports, .aon, .log, .out]
  · simp at hπ
    obtain rfl | rfl | rfl | rfl := hπ <;> rfl
  · rw [logEvent_frame d t s bs hπ]
    simp at hπ
    simp [hπ]

/-- No condition of R221 reads what an event changes. -/
theorem logEvent_mayGo (t s : Nat) (bs : List Byte) (m : Mode) : (d.logEvent t s bs).mayGo m = d.mayGo m := by
  rw [logEvent_eq]
  rfl

theorem shutdown_closes (h : d.power.mode = .record ∨ d.power.mode = .ingest) : d.shutdown = d.closeStart .shutdown 0 := by
  unfold shutdown
  obtain h | h := h <;> rw [h]

theorem shutdown_idle (h : d.power.mode = .idle) (free : d.power.target = none) (may : d.mayGo .standby = true) :
    d.shutdown.power = { d.power with target := some .standby, shutdown := true } := by
  simp [shutdown, h, free, logEvent_mayGo, may]

/-! GPIO levels (R195, R224, R590) -/

section
variable {n : Nat}

/-- The device once line `n` is recognised at a level. -/
def levelled (n : Nat) (level : Bool) : Dev := d.onSupply fun s => { s with gpio := gpioSet s.gpio n level }

theorem wakeGpio_disabled (h : flag d.power.wakeGpio n = false) : d.wakeGpio n = d := by simp [wakeGpio, h]

/-- A change of level of a line that wakes nothing: what it does as a trigger (R195). -/
theorem gpioEdge_eq {level : Bool} (hn : n < 32) (changes : flag d.supply.gpio n = !level) (h : flag d.power.wakeGpio n = false) :
    d.gpioEdge n level = if !d.powerOff && flag d.store.trig.en n && flag d.store.trig.pol n == !level then (d.levelled n level).trigger n
      else d.levelled n level := by
  have moved : (decide (32 ≤ n) || flag d.supply.gpio n == level) = false := by simp [hn, changes]
  have asleep {e : Dev} (kept : e.power = d.power) (c : Prop) [Decidable c] : (if c then e.wakeGpio n else e) = e := by
    rw [wakeGpio_disabled e (kept ▸ h), ite_self]
  have kept (c : Prop) [Decidable c] : (if c then (d.levelled n level).trigger n else d.levelled n level).power = d.power := by
    split
    · exact trigger_frame _ n (π := .power) (by decide)
    · rfl
  unfold gpioEdge
  rw [moved]
  exact asleep (kept _) _

theorem trigger_placed (mode : d.power.mode ≠ .close) (armed : d.store.trig.rearm = []) (room : d.store.trig.fifo.length < 32) :
    (d.trigger n).store.trig.fifo = d.store.trig.fifo ++ [(n, d.now)]
      ∧ (d.trigger n).store.trig.toPlace = d.store.trig.toPlace ++ [(n, d.now)] ∧ (d.trigger n).power = d.power := by
  have : ¬ 32 ≤ d.store.trig.fifo.length := Nat.not_le.mpr room
  simp [trigger, armed, mode, this]

end

end Dev

/-! The rows and the obligation -/

section
variable {s : State} {P : Dev → Prop}

section
variable (runs : s.dev.superRuns = true)
include runs

theorem completes_modeRequest_unlisted {req : Nat} (h : Mode.ofReq (req % 8) = none)
    (hP : P ((s.dev.goStatus .modeInvalid).powerErr 0)) : Completes (.modeRequest req) s P :=
  completes_on (exec_modeRequest ..) (by simpa [runs, h, Dev.modeRequest_unlisted] using hP)

theorem completes_modeRequest {req : Nat} {m : Mode} (h : Mode.ofReq (req % 8) = some m) (hP : P (s.dev.modeRequest req).2) :
    Completes (.modeRequest req) s P :=
  completes_on (exec_modeRequest ..) (by simpa [runs, h] using hP)

theorem completes_pwrShutdown (hP : P s.dev.shutdown) : Completes .pwrShutdown s P :=
  completes_on (exec_pwrShutdown ..) (by rwa [if_pos runs])

end

theorem completes_modeTransitionDone (hP : P s.dev.modeDone) : Completes .modeTransitionDone s P :=
  completes_on (exec_modeTransitionDone ..) hP

theorem completes_gpioEdge {n : Nat} {level : Bool} (hP : P (s.dev.gpioEdge n level)) : Completes (.gpioEdge n level) s P :=
  completes_on (exec_gpioEdge ..) hP

end

/-- Settles O19: each clause is one branch of a request, of a transition's end, of SHUTDOWN or of a GPIO level, and the lemma of the
branch says what it leaves of the device. -/
theorem modesAndTriggers : Obligations.ModesAndTriggers := by
  refine ⟨?_, ?_⟩
  · intro s req d runs
    refine ⟨fun h => ?_, fun m h busy => ?_, fun m h free started other may => ?_, fun m h free started other may => ?_,
      fun m h old entered => ?_, fun h old running => ⟨fun ready => ?_, fun ready writes container => ?_⟩,
      fun h => ?_, fun h free may => ?_⟩
    -- Requests.
    · refine completes_modeRequest_unlisted runs h ?_
      rw [Dev.goStatus_refused _ (by decide)]
      exact ⟨rfl, rfl, rfl, flag_setBit_of _ _ _ (flag_setBit_same _ _ (by decide)), rfl, flag_setBit_same _ _ (by decide)⟩
    · refine completes_modeRequest runs h ?_
      rw [d.modeRequest_busy h busy, Dev.goStatus_refused _ (by decide)]
      exact ⟨rfl, rfl, flag_setBit_same _ _ (by decide)⟩
    · refine completes_modeRequest runs h ?_
      rw [d.modeRequest_asked h free started other, if_pos may]
      exact ⟨rfl, rfl, rfl, rfl⟩
    · refine completes_modeRequest runs h ?_
      rw [d.modeRequest_asked h free started other, may, if_neg Bool.false_ne_true, Dev.goStatus_refused _ (by decide)]
      simp only [Dev.onPower_power, Dev.askDrain_power, Dev.onPower_staging]
      refine ⟨free, rfl, rfl, flag_setBit_same _ _ (by decide), fun ingest staged off hoff => ?_⟩
      rw [hoff]
      exact (d.asked req).askDrain_staging ingest staged
    -- The end of a transition.
    · have ready : d.trailerWaits m = false := by simp [Dev.trailerWaits, entered]
      obtain ⟨st, power⟩ := d.modeDone_power h old ready fun standby => absurd standby entered
      refine completes_modeTransitionDone ⟨by rw [power], by rw [power], fun ingest other => ?_⟩
      exact d.modeDone_staging h old ready (fun standby => absurd standby entered) ingest other
    · exact completes_modeTransitionDone (d.modeDone_standby h old running ready)
    · refine completes_modeTransitionDone (d.modeDone_trailerWaits h ?_)
      simp [Dev.trailerWaits, ready, writes, Option.isSome_iff_ne_none, container]
    -- SHUTDOWN.
    · refine completes_pwrShutdown runs ?_
      rw [d.shutdown_closes h, d.closeStart_power, d.closeStart_close, d.closeBegin_power, d.closeBegin_after]
      exact ⟨rfl, rfl, rfl⟩
    · refine completes_pwrShutdown runs ?_
      rw [d.shutdown_idle h free may]
      exact ⟨h, rfl, rfl⟩
  · intro s n level d hn changes quiet
    refine ⟨fun disabled => ?_, fun enabled edge record armed room => ?_⟩
    · refine completes_gpioEdge ?_
      rw [d.gpioEdge_eq hn changes quiet, if_neg (by simp [disabled])]
      refine ⟨(flag_gpioSet _ level hn).trans (if_pos rfl), fun k hk other => ?_, rfl⟩
      exact (flag_gpioSet _ level hk).trans (if_neg other.symm)
    · refine completes_gpioEdge ?_
      rw [d.gpioEdge_eq hn changes quiet, if_pos (by simp [Dev.powerOff, record, enabled, edge])]
      exact (d.levelled n level).trigger_placed (by simp [Dev.levelled, record]) armed room

end Sys2Proof.Machine
